-- ==== Sys2Proof/Word.lean ====
section
/-! DEFINITION. Words and bytes of the FN96: the 16-bit word of its frames and its Plan Store, the byte of its two serial ports. -/

namespace Sys2Proof

/-- A 16-bit word of an order, an answer, a report item, a directive or the Plan Store. -/
abbrev Word := BitVec 16

/-- A byte of a frame. -/
abbrev Byte := BitVec 8

/-- "None" is given as the word 0xFFFF (every record table of the spec). -/
def noneWord : Word := 0xFFFF#16

/-- The word of a number. -/
def wordOf (n : Nat) : Word := BitVec.ofNat 16 n

/-- The word of an optional number, "none" as 0xFFFF. -/
def wordOfOption (o : Option Nat) : Word :=
  match o with
  | none => noneWord
  | some n => wordOf n

/-- The number a word names, none for 0xFFFF. -/
def optionOfWord (w : Word) : Option Nat :=
  if w = noneWord then none else some w.toNat

/-- The word of a yes/no field. -/
def wordOfBool (b : Bool) : Word := if b then 1#16 else 0#16

/-- The high byte of a word. -/
def highByte (w : Word) : Byte := BitVec.ofNat 8 (w.toNat / 256)

/-- The low byte of a word. -/
def lowByte (w : Word) : Byte := BitVec.ofNat 8 (w.toNat % 256)

/-- The word of two bytes, the high byte first. -/
def wordOfBytes (hi lo : Byte) : Word := wordOf (hi.toNat * 256 + lo.toNat)

/-- The bytes of a list of words, high byte first (9.1 and 8.1). -/
def bytesOfWords (ws : List Word) : List Byte := ws.flatMap (fun w => [highByte w, lowByte w])

/-- The words of a list of bytes, high byte first; an odd last byte is no word. -/
def wordsOfBytes : List Byte → List Word
  | hi :: lo :: rest => wordOfBytes hi lo :: wordsOfBytes rest
  | _ => []

/-- The sum of the bytes, modulo 256. -/
def byteSum (bs : List Byte) : Byte := bs.foldl (fun a b => a + b) 0#8

/-- A frame closed by its check byte: the sum of all its bytes is 0 modulo 256 (8.1, 9.1). -/
def closeFrame (bs : List Byte) : List Byte := bs ++ [0#8 - byteSum bs]

end Sys2Proof
end

