-- ==== Sys2Proof/Syntax.lean ====
section
/-! DEFINITION. The commands of the FN96: one constructor of Instr per row of spec/opcode_table.json, with the row's operands. -/

namespace Sys2Proof

/-- The eight tables of the order coding (1.5). -/
inductive TableId where
  | window | carrier | station | gallery | conference | operator | unit | part
  deriving DecidableEq, Repr

/-- The table selector of an order frame (1.5). -/
def TableId.selector : TableId → Nat
  | .window => 1
  | .carrier => 2
  | .station => 3
  | .gallery => 4
  | .conference => 5
  | .operator => 6
  | .unit => 7
  | .part => 8

/-- A record of the record memory (R180): its table and its key. The Part record has key 0. -/
structure RecordId where
  table : TableId
  key : Nat
  deriving DecidableEq, Repr

/-- An order as its frame carries it (9.1), the frame having passed the tests Mark to Verb of R162: the operator
number, the key word, the Force, Steal and Clear flags, and the parameter words. The table and the verb are the
command's own. -/
structure Order where
  operator : Fin 8
  key : Word
  force : Bool
  steal : Bool
  clear : Bool
  params : List Word
  deriving DecidableEq, Repr

/-- The commands: orders of the host, transactions of the two ports, timers, store transfers and start-up events. A
write transaction that carries an order is either the order's own command or ORDER_FRAME with its bytes. -/
inductive Instr where
  /-- POWER_ON (R173). -/
  | powerOn
  /-- RESET: the release of RESET# (R173). -/
  | reset
  /-- MEMORY_TEST: the walking-pattern test ends, passed or failed (R173). -/
  | memoryTest (passed : Bool)
  /-- LOAD: the plan load ends (R172). acknowledged = none: the store acknowledges every word; some n: it
  acknowledges the words below address n only, and with n = 0 not even its device address. -/
  | load (acknowledged : Option Nat)
  /-- SHOW_CLOCK_ADVANCE (R1). -/
  | showClockAdvance
  /-- GRACE_EXPIRY of a window (R9). -/
  | graceExpiry (window : Nat)
  /-- END_OF_CHECK of the candidate under the engine (R37). -/
  | endOfCheck
  /-- TUNE_TIMEOUT of a station's attempt (R59). -/
  | tuneTimeout (station : Nat)
  /-- WATCH_RUNS_OUT of a station (R62). -/
  | watchRunsOut (station : Nat)
  /-- RECOVERY of a station's Blocked standby (R70). -/
  | recovery (station : Nat)
  /-- CLEAN_AGE_PASSING_LINK_WATCH of a carrier (R70). -/
  | cleanAgePassingLinkWatch (carrier : Nat)
  /-- CALL_TIMEOUT of a station (R91). -/
  | callTimeout (station : Nat)
  /-- CUE_TIMEOUT of a station's entry; no source holds two entries in one stack (R116), so the source word names it
  (R120). -/
  | cueTimeout (station : Nat) (source : Word)
  /-- POLL (R143). -/
  | poll
  /-- DISCOVER (R143). -/
  | discover
  /-- DIRECTIVE_TURN (R152). -/
  | directiveTurn
  /-- POLL_ANSWERED: the unit frame's bytes (R145). -/
  | pollAnswered (frame : List Byte)
  /-- POLL_MISSED (R145). -/
  | pollMissed
  /-- DISCOVER_ANSWERED: the unit frame's bytes (R144). -/
  | discoverAnswered (frame : List Byte)
  /-- DISCOVER_MISSED (R144). -/
  | discoverMissed
  /-- ACKNOWLEDGEMENT: the unit frame's bytes (R152). -/
  | acknowledgement (frame : List Byte)
  /-- ACKNOWLEDGEMENT_MISSED (R152). -/
  | acknowledgementMissed
  /-- ORDER_FRAME: the whole bytes clocked in, and whether the Plan Store acknowledges the transfer that the order
  makes, if it makes one (R162). -/
  | orderFrame (bytes : List Byte) (acknowledged : Bool)
  /-- OVERRUN: the whole bytes of a write transaction that ends while the port is not idle (R160). -/
  | overrun (bytes : List Byte)
  /-- ANSWER_READ: how many whole bytes were clocked, the command byte 0x3A included (R161). -/
  | answerRead (clocked : Nat)
  /-- READ on a table (R165). -/
  | read (table : TableId) (order : Order)
  /-- READ_CONFERENCE (R96, chapter 5.1). -/
  | readConference (order : Order)
  /-- READ_PART (R170). -/
  | readPart (order : Order)
  /-- CLAIM on a table (R133). -/
  | claim (table : TableId) (order : Order)
  /-- RELEASE on a table (R135). -/
  | release (table : TableId) (order : Order)
  /-- NEXT_MARKED on a table (R167). -/
  | nextMarked (table : TableId) (order : Order)
  /-- DEFINE_WINDOW (R13). -/
  | defineWindow (order : Order)
  /-- EDIT_WINDOW (R14). -/
  | editWindow (order : Order)
  /-- RETIRE_WINDOW (R16). -/
  | retireWindow (order : Order)
  /-- DEFINE_CARRIER (R21). -/
  | defineCarrier (order : Order)
  /-- EDIT_CARRIER (R22). -/
  | editCarrier (order : Order)
  /-- RETIRE_CARRIER (R29). -/
  | retireCarrier (order : Order)
  /-- CHECK_CARRIER (R24). -/
  | checkCarrier (order : Order)
  /-- CANCEL_CHECK (R25). -/
  | cancelCheck (order : Order)
  /-- BLOCK_CARRIER (R26). -/
  | blockCarrier (order : Order)
  /-- UNBLOCK_CARRIER (R28). -/
  | unblockCarrier (order : Order)
  /-- SET_COORDINATION (R30). -/
  | setCoordination (order : Order)
  /-- DEFINE_STATION (R49). -/
  | defineStation (order : Order)
  /-- EDIT_STATION (R50). -/
  | editStation (order : Order)
  /-- RETIRE_STATION (R74). -/
  | retireStation (order : Order)
  /-- BIND_STATION (R51). -/
  | bindStation (order : Order)
  /-- UNBIND_STATION (R52). -/
  | unbindStation (order : Order)
  /-- GO_LIVE (R58). -/
  | goLive (order : Order)
  /-- PARK (R63). -/
  | park (order : Order)
  /-- SWAP (R69). -/
  | swap (order : Order)
  /-- SET_LINK (R55). -/
  | setLink (order : Order)
  /-- CALL_STATION (R90). -/
  | callStation (order : Order)
  /-- CLEAR_CALL (R90). -/
  | clearCall (order : Order)
  /-- DEFINE_GALLERY (R82). -/
  | defineGallery (order : Order)
  /-- EDIT_GALLERY (R83). -/
  | editGallery (order : Order)
  /-- RETIRE_GALLERY (R84). -/
  | retireGallery (order : Order)
  /-- DEFINE_CONFERENCE (R98). -/
  | defineConference (order : Order)
  /-- EDIT_CONFERENCE (R98). -/
  | editConference (order : Order)
  /-- RETIRE_CONFERENCE (R99). -/
  | retireConference (order : Order)
  /-- ADD_MEMBER (R100). -/
  | addMember (order : Order)
  /-- REMOVE_MEMBER (R101). -/
  | removeMember (order : Order)
  /-- SET_CUE_ACCEPT (R122). -/
  | setCueAccept (order : Order)
  /-- CUE (R122). -/
  | cue (order : Order)
  /-- CLEAR_CUES (R122). -/
  | clearCues (order : Order)
  /-- SET_CUE (R126). -/
  | setCue (order : Order)
  /-- EDIT_OPERATOR (R130). -/
  | editOperator (order : Order)
  /-- DEFINE_OPERATOR (R130). -/
  | defineOperator (order : Order)
  /-- RETIRE_OPERATOR (R130). -/
  | retireOperator (order : Order)
  /-- RELEASE_ALL (R136). -/
  | releaseAll (order : Order)
  /-- FREEZE_PLAN (R138). -/
  | freezePlan (order : Order)
  /-- THAW_PLAN (R139). -/
  | thawPlan (order : Order)
  /-- SET_CLOCK (R3). -/
  | setClock (order : Order)
  /-- SET_MATRIX_UNIT (R154). -/
  | setMatrixUnit (order : Order)
  /-- FORGET_UNIT (R155). -/
  | forgetUnit (order : Order)
  /-- LINE_RESET (R156). -/
  | lineReset (order : Order)
  /-- READ_ATTENTION (R169). -/
  | readAttention (order : Order)
  /-- SAVE_PLAN, and whether the store acknowledges the first write (R175). -/
  | savePlan (order : Order) (acknowledged : Bool)
  /-- SAVE_END: the last word of the save is written (R175). -/
  | saveEnd
  /-- SAVE_FAILED: the store has acknowledged this many writes of the save, and not the next (R176). -/
  | saveFailed (written : Nat)
  /-- RELOAD_PLAN (R177). -/
  | reloadPlan (order : Order)
  /-- RESTART (R178). -/
  | restart (order : Order)
  /-- STORE_READ, and whether the store acknowledges (R179). -/
  | storeRead (order : Order) (acknowledged : Bool)
  /-- STORE_WRITE, and whether the store acknowledges (R179). -/
  | storeWrite (order : Order) (acknowledged : Bool)
  /-- QUARANTINE: fault handling ends (R181). -/
  | quarantine
  deriving DecidableEq, Repr

end Sys2Proof
end

