-- ==== Sys2Proof/Decode.lean ====
section
/-! DEFINITION. The command that a word spells by the table's bits. No row of spec/opcode_table.json gives bits, so no word spells a command; the bytes of order frames and unit frames are read by their commands' own meanings. -/

namespace Sys2Proof

/-- No row of the table gives bits (every row's "fields" is empty): no word spells a command. -/
def decodeTableWord (_nbits _w : Nat) : Option Instr := none

end Sys2Proof
end

