-- ==== Sys2Proof/Config.lean ====
section
/-! DEFINITION. What an FN96 fixes (constants of the spec) and the free values that the spec leaves open. -/

namespace Sys2Proof.Config

/-- Lowest and highest frequency, in steps of 25 kHz (1.5). -/
def lowestFrequency : Nat := 18800
/-- See lowestFrequency. -/
def highestFrequency : Nat := 108000

/-- The Tune Timeout, fixed at 3 s (R55). -/
def tuneTimeout : Nat := 3000
/-- A tune is tried at most 3 times (R55). -/
def tuneAttempts : Nat := 3
/-- A clean age and a quality age stay at 60,000 ms (R19, R61). -/
def oldestAge : Nat := 60000
/-- A Single call lasts 2,000 ms (R90). -/
def callTime : Nat := 2000

/-- Capacities: Check Queue (R31), Directive Queue (R151), members, talkers and wait list of a conference (R96). -/
def checkQueueSize : Nat := 16
/-- The Directive Queue holds at most 64 entries (R151). -/
def directiveQueueSize : Nat := 64
/-- A directive is sent at most 3 times before its unit is declared Lost (R151, R152). -/
def sendMax : Nat := 3
/-- A conference holds at most 16 members (R96). -/
def memberMax : Nat := 16
/-- A conference holds at most 4 talkers (R96). -/
def talkerMax : Nat := 4
/-- A follow wait list holds at most 8 stations (R96). -/
def waitMax : Nat := 8

/-- The Plan Store holds 4,096 words (10.1). -/
def storeSize : Nat := 4096
/-- The first signature word of a plan image (10.1). -/
def signature0 : Word := 0x7A31#16
/-- The second signature word of a plan image (10.1). -/
def signature1 : Word := 0x0C96#16
/-- What a word of the store that nothing has written reads as: DESIGN CHOICE, unsafe (log 7). -/
def blankStoreWord : Word := 0xFFFF#16

/-- Every flag enabled: bits 0 to 5 and 8 to 11 (R168, R169). -/
def fullMask : Word := 0x0F3F#16

/-- Free value: the record that the n-th millisecond of the time base leaves damaged, if any. R180 says what a
damaged record is, and no rule says when one is damaged (log 4). -/
opaque upset : Nat → Option RecordId

/-- Free value: how many words after the first a save has written when it is cut short (R176; log 8). -/
opaque saveProgress : Nat → Nat

/-- Free value: how many further records a running save has written when a record is damaged, put under quarantine or
quarantined (R175, R176; log 8). -/
opaque saveReach : Nat → Nat

end Sys2Proof.Config
end

