-- ==== Sys2Proof/Machine/State.lean ====
section
/-! DEFINITION. The state of the FN96 as plain data: every record, queue, counter, setting and pin the spec gives it, and the queue of waiting commands. -/

namespace Sys2Proof.Machine

/-! ## Tables -/

/-- A filled slot of a record table: a Damaged slot, which holds only its mark (R166, R182), or a record. -/
inductive Slot (α : Type) where
  | damaged (mark : List Nat)
  | held (record : α)
  deriving DecidableEq, Repr

/-- A record table: its filled slots by ascending key; a key that is not listed is an empty slot. -/
structure Table (α : Type) where
  slots : List (Nat × Slot α)
  deriving DecidableEq, Repr

/-! ## Show Clock -/

/-- The Show Clock (R1): the date, the second of day, the Unset flag, and the milliseconds of the running second. -/
structure Clock where
  unset : Bool
  year : Nat
  month : Nat
  day : Nat
  second : Nat
  phase : Nat
  deriving DecidableEq, Repr

/-! ## Windows -/

/-- A window's schedule (field 12). -/
inductive Schedule where
  | always | daily | once
  deriving DecidableEq, Repr

/-- A window's state (field 20). -/
inductive WindowState where
  | closed | opened | closing
  deriving DecidableEq, Repr

/-- The Window record. grace is the time left of the vacate grace in ms. -/
structure Window where
  label : List Word
  lowEdge : Nat
  highEdge : Nat
  classes : Nat
  schedule : Schedule
  openMinute : Nat
  closeMinute : Nat
  dayMask : BitVec 7
  openDate : Nat
  closeDate : Nat
  enabled : Bool
  vacateGrace : Nat
  state : WindowState
  grace : Option Nat
  claim : Option Nat
  mark : List Nat
  deriving DecidableEq, Repr

/-! ## Carriers -/

/-- A carrier's class (field 3). -/
inductive CarrierClass where
  | audio | video
  deriving DecidableEq, Repr

/-- A role or slot of a station: Primary or Standby. -/
inductive Role where
  | primary | standby
  deriving DecidableEq, Repr

/-- A carrier's state (field 7, R18). -/
inductive CarrierState where
  | proposed | checking | conflict | cleared | assigned | standby | blocked
  deriving DecidableEq, Repr

/-- A conflict kind (field 11). -/
inductive ConflictKind where
  | window | edge | spacing | intermod
  deriving DecidableEq, Repr

/-- The Carrier record. The intent and the binding name a station and a role; check place is derived. -/
structure Carrier where
  frequency : Nat
  cls : CarrierClass
  window : Option Nat
  intent : Option (Nat × Role)
  state : CarrierState
  bound : Option (Nat × Role)
  conflict : Option (ConflictKind × List Nat)
  alternate : Option Nat
  cleanScore : Option Nat
  cleanAge : Option Nat
  restorePending : Bool
  claim : Option Nat
  mark : List Nat
  deriving DecidableEq, Repr

/-- A check under the engine: its candidate, and what its spacing and intermodulation stages found among the carriers
committed when it began (R34 to R36). -/
structure Check where
  carrier : Nat
  found : Option (ConflictKind × List Nat)
  deriving DecidableEq, Repr

/-! ## Stations -/

/-- A station's kind (field 7). -/
inductive StationKind where
  | camera | mic | inEar | beltpack
  deriving DecidableEq, Repr

/-- A call mode, and the kind of a call (fields 11 and 38). -/
inductive CallKind where
  | single | latched
  deriving DecidableEq, Repr

/-- A link state (field 14, R56). -/
inductive Link where
  | parked | tuning | up | weak | switching | lost
  deriving DecidableEq, Repr

/-- A switch kind (field 15). -/
inductive SwitchKind where
  | automatic | operator | vacate
  deriving DecidableEq, Repr

/-- The watch of a link (R62): stopped, running for so many ms since its start or its latest item, or run out. -/
inductive Watch where
  | off | running (ms : Nat) | runOut
  deriving DecidableEq, Repr

/-- A wanted or delivered tune (fields 23 to 26 and 28 to 31), with the class of the carrier and the tune token. -/
structure Tune where
  frequency : Option Nat
  cls : CarrierClass
  power : Nat
  muted : Bool
  token : Nat
  deriving DecidableEq, Repr

/-- A derived tally and a lamp level (fields 33 and 35). -/
inductive Tally where
  | off | preview | rehearse | live
  deriving DecidableEq, Repr

/-- A lamp: its level, Flash and Call (R87). -/
structure Lamp where
  level : Tally
  flash : Bool
  call : Bool
  deriving DecidableEq, Repr

/-- A source or identity (R96, R116): a station, a panel port or an operator. -/
inductive Source where
  | station (n : Nat)
  | port (n : Nat)
  | operator (n : Nat)
  deriving DecidableEq, Repr

/-- A cue level. -/
inductive CueLevel where
  | floor | director
  deriving DecidableEq, Repr

/-- An entry of a cue stack (R116); remaining in ms. -/
structure CueEntry where
  source : Source
  level : CueLevel
  saved : Bool
  remaining : Nat
  deriving DecidableEq, Repr

/-- What a delivery state is while no entry of the Directive Queue stands for it (R150); Queued and Sent are read from
the entry. -/
inductive DeliveryBase where
  | current | waiting | stale
  deriving DecidableEq, Repr

/-- The Station record (3.1, 4.5, 6.1). -/
structure Station where
  label : List Word
  kind : StationKind
  controlUnit : Option Nat
  pair : Option Nat
  power : Nat
  callMode : CallKind
  primary : Option Nat
  standby : Option Nat
  link : Link
  switchKind : Option SwitchKind
  blockOutgoing : Option Bool
  token : Nat
  attempts : Nat
  tuneTimer : Option Nat
  watch : Watch
  quality : Option Nat
  qualityAge : Option Nat
  inhibit : Bool
  recoveryRun : Option Nat
  wanted : Tune
  tuneBase : DeliveryBase
  delivered : Option Tune
  claim : Option Nat
  mark : List Nat
  tally : Tally
  contributing : List Nat
  lamp : Option Lamp
  lampBase : DeliveryBase
  deliveredLamp : Option Lamp
  call : Option CallKind
  callRemaining : Option Nat
  accept : Bool
  stack : List CueEntry
  cueRoute : Option Source
  cueBase : DeliveryBase
  deliveredRoute : Option (Option Source)
  deriving DecidableEq, Repr

/-! ## Galleries and conferences -/

/-- The Gallery record (4.1). The source map lists the stations of sources 1 to 32. -/
structure Gallery where
  label : List Word
  tallyUnit : Option Nat
  follow : Option Nat
  sources : List (Option Nat)
  live : Bool
  program : List Nat
  preview : List Nat
  claim : Option Nat
  mark : List Nat
  deriving DecidableEq, Repr

/-- How a member joined. -/
inductive JoinKind where
  | fixed | follow
  deriving DecidableEq, Repr

/-- A member entry (5.1). -/
structure Member where
  id : Source
  listen : Bool
  talk : Bool
  priority : Nat
  join : JoinKind
  reasons : List Nat
  absent : Bool
  deriving DecidableEq, Repr

/-- One member of a routing: the identity and its rights. -/
structure Routed where
  id : Source
  listen : Bool
  talk : Bool
  deriving DecidableEq, Repr

/-- A wanted or delivered routing (R112): the present members with their rights, and the talkers. -/
structure Routing where
  members : List Routed
  talkers : List Source
  deriving DecidableEq, Repr

/-- The Conference record (5.1). -/
structure Conference where
  label : List Word
  members : List Member
  talkers : List Source
  waiting : List Nat
  routing : Routing
  routingBase : DeliveryBase
  deliveredRouting : Option Routing
  claim : Option Nat
  mark : List Nat
  deriving DecidableEq, Repr

/-! ## Operators, units and the line -/

/-- The Operator record: rights (flag n for right n) and window mask (flag n - 1 for window n). -/
structure Operator where
  rights : BitVec 8
  mask : BitVec 16
  deriving DecidableEq, Repr

/-- A unit's kind (8.1). -/
inductive UnitKind where
  | rx | txc | tgi | tkm
  deriving DecidableEq, Repr

/-- A unit's state (8.2). -/
inductive UnitState where
  | absent | present | lost
  deriving DecidableEq, Repr

/-- The stored fields of a Unit record; fields 4 to 7 are read from the Directive Queue. -/
structure LineUnit where
  kind : Option UnitKind
  state : UnitState
  missed : Nat
  mark : List Nat
  deriving DecidableEq, Repr

/-- The delivery kinds of an entry's key (R151). -/
inductive DeliveryKind where
  | tune | lamp | routing | cueRoute
  deriving DecidableEq, Repr

/-- A wanted state as a directive carries it: a TUNE, or a MUTE when the tune is muted; a LAMP; a ROUTING; a CUE
ROUTE. -/
inductive Content where
  | tune (t : Tune)
  | lamp (l : Lamp)
  | routing (r : Routing)
  | cueRoute (s : Option Source)
  deriving DecidableEq, Repr

/-- An entry of the Directive Queue (R151, R153). -/
structure Entry where
  unit : Nat
  kind : DeliveryKind
  target : Nat
  content : Content
  sent : Bool
  attempts : Nat
  detached : Bool
  deriving DecidableEq, Repr

/-- A final delivery of the Line Controller's own (R153). A final routing or cue route goes to the TKM unit of the
Part settings, so destination is used by a final tune alone. -/
structure Final where
  kind : DeliveryKind
  target : Nat
  destination : Option Nat
  wanted : Content
  delivered : Option Content
  base : DeliveryBase
  deriving DecidableEq, Repr

/-- What a transaction on the line asks (R141). -/
inductive Ask where
  | poll (unit : Nat)
  | discover (unit : Nat)
  | directive (unit : Nat) (kind : DeliveryKind) (target : Nat) (content : Content)
  deriving DecidableEq, Repr

/-- The transaction on the line, with its sequence number (R141). -/
structure Transaction where
  ask : Ask
  sequence : Nat
  deriving DecidableEq, Repr

/-- Whose turn it is on the line (R142). -/
inductive Turn where
  | poll | directive
  deriving DecidableEq, Repr

/-! ## Control Port -/

/-- The status classes of R163. -/
inductive Status where
  | done | doneAdjusted | full | state | range | held | key | notPermitted | notInService | malformed
  deriving DecidableEq, Repr

/-- The code of a status class (R163). -/
def Status.code : Status → Nat
  | .done => 0
  | .doneAdjusted => 1
  | .full => 2
  | .state => 3
  | .range => 4
  | .held => 5
  | .key => 6
  | .notPermitted => 7
  | .notInService => 8
  | .malformed => 9

/-- An answer (9.1). -/
structure Answer where
  status : Status
  detail : Nat
  key : Word
  words : List Word
  deriving DecidableEq, Repr

/-- The Control Port (R160, R161): idle, processing an order (its key word), or holding an answer. -/
inductive Port where
  | idle
  | processing (key : Word)
  | pending (answer : Answer)
  deriving DecidableEq, Repr

/-! ## Part record, store and faults -/

/-- The service state (9.6). -/
inductive Service where
  | starting | inService | faultHandling | halted
  deriving DecidableEq, Repr

/-- What a start-up or a reload is at: nothing; the memory test; the load of a start-up; RELOAD PLAN waiting for the
line, or loading, with the tune deliveries of the old Station Table (R158). -/
inductive LoadPhase where
  | none
  | memoryTest
  | loading
  | reloadWaiting (key : Word)
  | reloading (key : Word) (old : List Final)
  deriving DecidableEq, Repr

/-- The Fault Snapshot (11.2). -/
structure Snapshot where
  record : RecordId
  activity : Nat
  deriving DecidableEq, Repr

/-- The Part settings (Part fields 15 to 32). -/
structure Settings where
  spacingGuard : Nat
  imGuard : Nat
  imFifth : Bool
  linkWatch : Nat
  fallbackFloor : Nat
  fallbackMargin : Nat
  returnMargin : Nat
  recoveryTime : Nat
  cueLimit : Nat
  directorPorts : List Nat
  matrixUnit : Option Nat
  deriving DecidableEq, Repr

/-- The store states, true for Changed (10.3). -/
structure StoreStates where
  window : Bool
  carrier : Bool
  station : Bool
  gallery : Bool
  conference : Bool
  operator : Bool
  part : Bool
  deriving DecidableEq, Repr

/-- The latched attention flags (9.5). -/
structure Latched where
  overrun : Bool
  store : Bool
  fault : Bool
  clock : Bool
  deriving DecidableEq, Repr

/-- The Plan Store: (address, word) pairs, addresses rising, no entry equal to what an unlisted address reads as. -/
structure Memory where
  cells : List (Nat × Word)
  deriving DecidableEq, Repr

/-- The state of the FN96. -/
structure State where
  /-- The commands that wait, first in, first out. -/
  pending : List Instr
  service : Service
  load : LoadPhase
  startCode : Nat
  snapshot : Option Snapshot
  /-- The records whose check code no longer agrees with their contents (R180). -/
  badCodes : List RecordId
  /-- The model's own: milliseconds counted, read by Config.upset (log 4). -/
  upsets : Nat
  /-- The model's own: free values drawn, read by Config.saveProgress and Config.saveReach (log 8). -/
  draws : Nat
  clock : Clock
  windows : Table Window
  carriers : Table Carrier
  checkQueue : List Nat
  engine : Option Check
  stations : Table Station
  galleries : Table Gallery
  conferences : Table Conference
  operators : List Operator
  freezeHolder : Option Nat
  settings : Settings
  units : List LineUnit
  queue : List Entry
  finals : List Final
  line : Option Transaction
  sequence : Nat
  round : List Ask
  lastDiscover : Nat
  turn : Turn
  port : Port
  /-- The bytes carried on MISO in the last transaction (R159). -/
  miso : List Byte
  latched : Latched
  mask : Word
  storeStates : StoreStates
  storeOutcome : Nat
  saving : Bool
  /-- The place of the last record that the running save has written, 0 for none (R175; log 8). -/
  savePlace : Nat
  /-- The words of the records that the running save has written, each as it stood then (R175; log 8). -/
  saveWritten : List Word
  store : Memory
  deriving DecidableEq, Repr

/-- No command of this block ends in a fault: what the spec calls a fault (damage of a record, a halt) is a next state
(R181, R183). -/
inductive Fault where
  deriving DecidableEq, Repr

/-- Why a command has no next state. -/
inductive Refusal where
  /-- The command has no meaning in this model yet; raised by exec's arms alone; safe. -/
  | notModelled (mnemonic : String)
  deriving DecidableEq, Repr

/-! ## The state after reset -/

/-- The Show Clock while Unset (R2). -/
def Clock.reset : Clock := { unset := true, year := 2000, month := 1, day := 1, second := 0, phase := 0 }

/-- The defaults of the Part settings (R30, R55, R126, R154). -/
def Settings.defaults : Settings where
  spacingGuard := 4
  imGuard := 2
  imFifth := false
  linkWatch := 500
  fallbackFloor := 40
  fallbackMargin := 15
  returnMargin := 10
  recoveryTime := 10
  cueLimit := 30
  directorPorts := []
  matrixUnit := none

/-- Operator 0: every right and a full window mask (R129). -/
def Operator.full : Operator := { rights := 0xFF#8, mask := 0xFFFF#16 }

/-- An operator with no right and an empty mask (R140). -/
def Operator.empty : Operator := { rights := 0#8, mask := 0#16 }

/-- The Operator Table before the load (R140). -/
def operatorsReset : List Operator := Operator.full :: List.replicate 7 Operator.empty

/-- A unit as at power-on, RESTART and LINE RESET (8.2). -/
def LineUnit.reset : LineUnit := { kind := none, state := .absent, missed := 0, mark := [] }

/-- Every store state Stored. -/
def StoreStates.stored : StoreStates := ⟨false, false, false, false, false, false, false⟩

/-- Every store state Changed. -/
def StoreStates.changed : StoreStates := ⟨true, true, true, true, true, true, true⟩

/-- The part as power-on leaves it (R173, R2, R168): Starting, the memory test running, the clock Unset, the Clock flag
set, every table empty. Values that no rule states are in log 6 and 7. -/
def State.reset : State where
  pending := []
  service := .starting
  load := .memoryTest
  startCode := 0
  snapshot := none
  badCodes := []
  upsets := 0
  draws := 0
  clock := Clock.reset
  windows := ⟨[]⟩
  carriers := ⟨[]⟩
  checkQueue := []
  engine := none
  stations := ⟨[]⟩
  galleries := ⟨[]⟩
  conferences := ⟨[]⟩
  operators := operatorsReset
  freezeHolder := none
  settings := Settings.defaults
  units := List.replicate 32 LineUnit.reset
  queue := []
  finals := []
  line := none
  sequence := 0
  round := []
  lastDiscover := 0
  turn := .poll
  port := .idle
  miso := []
  latched := { overrun := false, store := false, fault := false, clock := true }
  mask := Config.fullMask
  storeStates := StoreStates.stored
  storeOutcome := 0
  saving := false
  savePlace := 0
  saveWritten := []
  store := ⟨[]⟩

end Sys2Proof.Machine
end

