-- ==== Sys2Proof/Machine/Ops.lean ====
section
/-! DEFINITION. Named operations over the tables, the records, the marks, the Plan Store and the Control Port. -/

namespace Sys2Proof.Machine

/-- What a meaning answers. -/
abbrev Result := Host.Outcome State Fault Refusal

/-! ## Tables -/

/-- The slot at a key of a list of slots. -/
def slotAt {α : Type} : List (Nat × Slot α) → Nat → Option (Slot α)
  | [], _ => none
  | (k, x) :: rest, j => if j = k then some x else slotAt rest j

/-- Put a slot at a key, keeping ascending key order. -/
def slotPut {α : Type} : List (Nat × Slot α) → Nat → Slot α → List (Nat × Slot α)
  | [], j, y => [(j, y)]
  | (k, x) :: rest, j, y =>
    if j < k then (j, y) :: (k, x) :: rest
    else if j = k then (k, y) :: rest
    else (k, x) :: slotPut rest j y

/-- The slot at a key; none for an empty slot. -/
def Table.slot {α : Type} (t : Table α) (k : Nat) : Option (Slot α) := slotAt t.slots k

/-- The record at a key; none for an empty or Damaged slot. -/
def Table.get {α : Type} (t : Table α) (k : Nat) : Option α :=
  match t.slot k with
  | some (.held r) => some r
  | _ => none

/-- Put a record at a key. -/
def Table.put {α : Type} (t : Table α) (k : Nat) (r : α) : Table α := ⟨slotPut t.slots k (.held r)⟩

/-- Make a slot Damaged with this mark. -/
def Table.damage {α : Type} (t : Table α) (k : Nat) (mark : List Nat) : Table α :=
  ⟨slotPut t.slots k (.damaged mark)⟩

/-- Put the slot of another table at a key. -/
def Table.copySlot {α : Type} (t u : Table α) (k : Nat) : Table α :=
  match u.slot k with
  | some x => ⟨slotPut t.slots k x⟩
  | none => ⟨t.slots.filter (fun p => p.1 != k)⟩

/-- Empty a slot. -/
def Table.erase {α : Type} (t : Table α) (k : Nat) : Table α := ⟨t.slots.filter (fun p => p.1 != k)⟩

/-- Change the record at a key, if there is one. -/
def Table.modify {α : Type} (t : Table α) (k : Nat) (f : α → α) : Table α :=
  match t.get k with
  | some r => t.put k (f r)
  | none => t

/-- The keys that hold a record, ascending. -/
def Table.keys {α : Type} (t : Table α) : List Nat :=
  t.slots.filterMap (fun p => match p.2 with | .held _ => some p.1 | .damaged _ => none)

/-- The records with their keys, by ascending key. -/
def Table.records {α : Type} (t : Table α) : List (Nat × α) :=
  t.slots.filterMap (fun p => match p.2 with | .held r => some (p.1, r) | .damaged _ => none)

/-- Change every record. -/
def Table.map {α : Type} (t : Table α) (f : Nat → α → α) : Table α :=
  ⟨t.slots.map (fun p => match p.2 with | .held r => (p.1, .held (f p.1 r)) | .damaged m => (p.1, .damaged m))⟩

/-- The canonical form of a table: the keys strictly rise. -/
def Table.wf {α : Type} (t : Table α) : Bool := (t.slots.map (·.1)).Pairwise (· < ·)

/-! ## Records -/

/-- The window at a key. -/
def State.window (s : State) (k : Nat) : Option Window := s.windows.get k
/-- The carrier at a key. -/
def State.carrier (s : State) (k : Nat) : Option Carrier := s.carriers.get k
/-- The station at a key. -/
def State.station (s : State) (k : Nat) : Option Station := s.stations.get k
/-- The gallery at a key. -/
def State.gallery (s : State) (k : Nat) : Option Gallery := s.galleries.get k
/-- The conference at a key. -/
def State.conference (s : State) (k : Nat) : Option Conference := s.conferences.get k

/-- Change the window at a key. -/
def State.modWindow (s : State) (k : Nat) (f : Window → Window) : State :=
  { s with windows := s.windows.modify k f }
/-- Change the carrier at a key. -/
def State.modCarrier (s : State) (k : Nat) (f : Carrier → Carrier) : State :=
  { s with carriers := s.carriers.modify k f }
/-- Change the station at a key. -/
def State.modStation (s : State) (k : Nat) (f : Station → Station) : State :=
  { s with stations := s.stations.modify k f }
/-- Change the gallery at a key. -/
def State.modGallery (s : State) (k : Nat) (f : Gallery → Gallery) : State :=
  { s with galleries := s.galleries.modify k f }
/-- Change the conference at a key. -/
def State.modConference (s : State) (k : Nat) (f : Conference → Conference) : State :=
  { s with conferences := s.conferences.modify k f }

/-- The unit at an address 1 to 32. -/
def State.unitAt (s : State) (a : Nat) : Option LineUnit := if a = 0 then none else s.units[a - 1]?

/-- Change the unit at an address. -/
def State.modUnit (s : State) (a : Nat) (f : LineUnit → LineUnit) : State :=
  { s with units := if a = 0 then s.units else s.units.modify (a - 1) f }

/-- The record of an operator. -/
def State.operatorAt (s : State) (n : Nat) : Operator := s.operators.getD n Operator.empty

/-! ## Start-up phase -/

/-- The plan tables are being loaded, or the memory test runs. -/
def State.tablesDown (s : State) : Bool :=
  match s.load with
  | .memoryTest | .loading | .reloading _ _ => true
  | .none | .reloadWaiting _ => false

/-- The record under quarantine (R181): in Fault Handling, the damaged record of the snapshot. The Part record never is:
its damage halts the part (R180). -/
def State.quarantined (s : State) : Option RecordId :=
  match s.service, s.snapshot with
  | .faultHandling, some x =>
    if x.record.table != .part && s.badCodes.contains x.record then some x.record else none
  | _, _ => none

/-! ## Marks (R166) -/

/-- Add a reason code to a mark: the set holds each code once, ascending. -/
def addReason (r : Nat) : List Nat → List Nat
  | [] => [r]
  | x :: xs => if r < x then r :: x :: xs else if r = x then x :: xs else x :: addReason r xs

/-- Reason codes of windows (9.4). -/
def WindowReason.opened : Nat := 1
def WindowReason.closing : Nat := 2
def WindowReason.reopened : Nat := 3
def WindowReason.expired : Nat := 4
def WindowReason.claimLost : Nat := 5
def WindowReason.damaged : Nat := 6

/-- Reason codes of carriers (9.4). -/
def CarrierReason.conflict : Nat := 1
def CarrierReason.cleared : Nat := 2
def CarrierReason.bound : Nat := 3
def CarrierReason.intentUnmet : Nat := 4
def CarrierReason.unbound : Nat := 5
def CarrierReason.fallback : Nat := 6
def CarrierReason.roleChanged : Nat := 7
def CarrierReason.blockDone : Nat := 8
def CarrierReason.blockAbandoned : Nat := 9
def CarrierReason.recovered : Nat := 10
def CarrierReason.windowExpired : Nat := 11
def CarrierReason.stationGone : Nat := 12
def CarrierReason.alternateGone : Nat := 13
def CarrierReason.claimLost : Nat := 14
def CarrierReason.damaged : Nat := 15

/-- Reason codes of stations (9.4). -/
def StationReason.carrierBound : Nat := 1
def StationReason.tuned : Nat := 2
def StationReason.tuneFailed : Nat := 3
def StationReason.linkWeak : Nat := 4
def StationReason.linkRestored : Nat := 5
def StationReason.linkLost : Nat := 6
def StationReason.switched : Nat := 7
def StationReason.fallback : Nat := 8
def StationReason.switchFailed : Nat := 9
def StationReason.windowExpired : Nat := 10
def StationReason.onAirCut : Nat := 11
def StationReason.carrierDamaged : Nat := 12
def StationReason.pairChanged : Nat := 13
def StationReason.tallyChanged : Nat := 14
def StationReason.called : Nat := 15
def StationReason.callEnded : Nat := 16
def StationReason.callAnswered : Nat := 17
def StationReason.followDenied : Nat := 18
def StationReason.cueBusy : Nat := 19
def StationReason.cueDeclined : Nat := 20
def StationReason.cueTimeout : Nat := 21
def StationReason.cueDropped : Nat := 22
def StationReason.cueSourceGone : Nat := 23
def StationReason.claimLost : Nat := 24
def StationReason.damaged : Nat := 25

/-- Reason codes of galleries (9.4). -/
def GalleryReason.tallyReported : Nat := 1
def GalleryReason.tallyLost : Nat := 2
def GalleryReason.mapChanged : Nat := 3
def GalleryReason.followGone : Nat := 4
def GalleryReason.claimLost : Nat := 5
def GalleryReason.damaged : Nat := 6

/-- Reason codes of conferences (9.4). -/
def ConferenceReason.preempted : Nat := 1
def ConferenceReason.talkBusy : Nat := 2
def ConferenceReason.talkersDropped : Nat := 3
def ConferenceReason.followJoined : Nat := 4
def ConferenceReason.followWaiting : Nat := 5
def ConferenceReason.followLeft : Nat := 6
def ConferenceReason.memberGone : Nat := 7
def ConferenceReason.claimLost : Nat := 8
def ConferenceReason.damaged : Nat := 9

/-- Reason codes of units (9.4). -/
def UnitReason.found : Nat := 1
def UnitReason.lost : Nat := 2
def UnitReason.returned : Nat := 3
def UnitReason.kindChanged : Nat := 4
def UnitReason.badItem : Nat := 5
def UnitReason.damaged : Nat := 6

/-- Add a reason to a window's mark. -/
def State.markWindow (s : State) (k r : Nat) : State := s.modWindow k (fun x => { x with mark := addReason r x.mark })
/-- Add a reason to a carrier's mark. -/
def State.markCarrier (s : State) (k r : Nat) : State := s.modCarrier k (fun x => { x with mark := addReason r x.mark })
/-- Add a reason to a station's mark. -/
def State.markStation (s : State) (k r : Nat) : State := s.modStation k (fun x => { x with mark := addReason r x.mark })
/-- Add a reason to a gallery's mark. -/
def State.markGallery (s : State) (k r : Nat) : State := s.modGallery k (fun x => { x with mark := addReason r x.mark })
/-- Add a reason to a conference's mark. -/
def State.markConference (s : State) (k r : Nat) : State :=
  s.modConference k (fun x => { x with mark := addReason r x.mark })
/-- Add a reason to a unit's mark. -/
def State.markUnit (s : State) (a r : Nat) : State := s.modUnit a (fun x => { x with mark := addReason r x.mark })

/-! ## Store states (R174) -/

/-- The Window table's store state becomes Changed. -/
def State.windowChanged (s : State) : State := { s with storeStates := { s.storeStates with window := true } }
/-- The Carrier table's store state becomes Changed. -/
def State.carrierChanged (s : State) : State := { s with storeStates := { s.storeStates with carrier := true } }
/-- The Station table's store state becomes Changed. -/
def State.stationChanged (s : State) : State := { s with storeStates := { s.storeStates with station := true } }
/-- The Gallery table's store state becomes Changed. -/
def State.galleryChanged (s : State) : State := { s with storeStates := { s.storeStates with gallery := true } }
/-- The Conference table's store state becomes Changed. -/
def State.conferenceChanged (s : State) : State := { s with storeStates := { s.storeStates with conference := true } }
/-- The Operator table's store state becomes Changed. -/
def State.operatorChanged (s : State) : State := { s with storeStates := { s.storeStates with operator := true } }
/-- The Part settings' store state becomes Changed. -/
def State.partChanged (s : State) : State := { s with storeStates := { s.storeStates with part := true } }

/-- The plan summary: Changed exactly when some table's store state is Changed (R174). -/
def StoreStates.summary (x : StoreStates) : Bool :=
  x.window || x.carrier || x.station || x.gallery || x.conference || x.operator || x.part

/-! ## Plan Store memory -/

/-- The word at an address of a list of cells. -/
def cellAt : List (Nat × Word) → Nat → Word
  | [], _ => Config.blankStoreWord
  | (k, x) :: rest, a => if a = k then x else cellAt rest a

/-- Put a word at an address of a list of cells; a blank word is not listed. -/
def cellPut : List (Nat × Word) → Nat → Word → List (Nat × Word)
  | [], a, w => if w = Config.blankStoreWord then [] else [(a, w)]
  | (k, x) :: rest, a, w =>
    if a < k then (if w = Config.blankStoreWord then (k, x) :: rest else (a, w) :: (k, x) :: rest)
    else if a = k then (if w = Config.blankStoreWord then rest else (k, w) :: rest)
    else (k, x) :: cellPut rest a w

/-- The word of the store at an address. -/
def Memory.read (m : Memory) (a : Nat) : Word := cellAt m.cells a

/-- Write one word of the store. -/
def Memory.write (m : Memory) (a : Nat) (w : Word) : Memory := ⟨cellPut m.cells a w⟩

/-- Write words in order. -/
def Memory.writeAll (m : Memory) (ws : List (Nat × Word)) : Memory := ws.foldl (fun m p => m.write p.1 p.2) m

/-- The canonical form: addresses strictly rise and no listed word is blank. -/
def Memory.wf (m : Memory) : Bool :=
  (m.cells.map (·.1)).Pairwise (· < ·) && m.cells.all (fun p => p.2 != Config.blankStoreWord)

/-! ## Rights, holds and answers -/

/-- The eight rights (7.1). -/
inductive Right where
  | plan | carrier | station | talkback | gallery | store | force | rights
  deriving DecidableEq, Repr

/-- The flag of a right in the rights word (7.1). -/
def Right.flag : Right → Nat
  | .plan => 0
  | .carrier => 1
  | .station => 2
  | .talkback => 3
  | .gallery => 4
  | .store => 5
  | .force => 6
  | .rights => 7

/-- The operator's record holds the right (R129). -/
def State.hasRight (s : State) (op : Nat) (r : Right) : Bool := (s.operatorAt op).rights.getLsbD r.flag

/-- The window is in the operator's window mask (7.1: flag n - 1 for window n). -/
def State.permitsWindow (s : State) (op : Nat) (w : Nat) : Bool :=
  1 ≤ w && w ≤ 16 && (s.operatorAt op).mask.getLsbD (w - 1)

/-- The Force flag is effective (7.3): set, and the operator holds the Force right. -/
def State.forced (s : State) (o : Order) : Bool := o.force && s.hasRight o.operator.val .force

/-- The Steal flag is effective (7.3). -/
def State.steals (s : State) (o : Order) : Bool := o.steal && s.hasRight o.operator.val .force

/-- A refusal of an order: its class, its detail and its result words. -/
structure Refuse where
  status : Status
  detail : Nat
  words : List Word
  deriving DecidableEq, Repr

/-- One test of an order: whether it fails, and the refusal it then gives. -/
abbrev Check1 := Bool × Refuse

/-- The first failing test gives the answer (R163). -/
def firstFailing : List Check1 → Option Refuse
  | [] => none
  | (b, r) :: rest => if b then some r else firstFailing rest

/-- A test of a class without result words. -/
def failIf (b : Bool) (st : Status) (detail : Nat) : Check1 := (b, ⟨st, detail, []⟩)

/-- The operator lacks a right (R131). -/
def State.lacks (s : State) (o : Order) (r : Right) (detail : Nat) : Check1 :=
  failIf (!s.hasRight o.operator.val r) .notPermitted detail

/-- The claim hold (R132, detail 1): another operator holds the claim. -/
def claimHold (o : Order) (claim : Option Nat) : Check1 :=
  match claim with
  | some h => (h != o.operator.val, ⟨.held, 1, [wordOf h]⟩)
  | none => (false, ⟨.held, 1, []⟩)

/-- The freeze hold (R132, detail 2): another operator holds the freeze and Force is not effective. -/
def State.freezeHold (s : State) (o : Order) : Check1 :=
  match s.freezeHolder with
  | some h => (h != o.operator.val && !s.forced o, ⟨.held, 2, [wordOf h]⟩)
  | none => (false, ⟨.held, 2, []⟩)

/-- The store-busy hold (R132, detail 3): a save is running. -/
def State.saveHold (s : State) : Check1 := failIf s.saving .held 3

/-- The on-air hold (R73, R132 detail 4): the station is Live and Force is not effective. -/
def State.airHold (s : State) (o : Order) (live : Bool) : Check1 := failIf (live && !s.forced o) .held 4

/-- What an order's effect answers: class, detail, key word and result words. -/
structure Reply where
  status : Status
  detail : Nat
  key : Word
  words : List Word
  deriving DecidableEq, Repr

/-- DONE with no result words, echoing the order's key (log 37). -/
def doneReply (o : Order) : Reply := ⟨.done, 0, o.key, []⟩

/-- DONE with result words. -/
def doneWith (o : Order) (ws : List Word) : Reply := ⟨.done, 0, o.key, ws⟩

/-- DONE, or DONE-ADJUSTED with its detail. -/
def adjustedReply (o : Order) (adjusted : Bool) (detail : Nat) : Reply :=
  if adjusted then ⟨.doneAdjusted, detail, o.key, []⟩ else doneReply o

/-- Make an answer ready (R161). -/
def State.answer (s : State) (r : Reply) : State := { s with port := .pending ⟨r.status, r.detail, r.key, r.words⟩ }

/-- Make a refusal ready as the answer to an order. It echoes the order's key: R162 says so of MALFORMED alone, and of
the others it is the model's reading (log 37). -/
def State.refuse (s : State) (o : Order) (r : Refuse) : State := s.answer ⟨r.status, r.detail, o.key, r.words⟩

/-- The key of an order as a number. -/
def keyOf (o : Order) : Nat := o.key.toNat

/-- The pairs of a DEFINE or EDIT (R164): field numbers and values. -/
def pairsOf : List Word → List (Nat × Word)
  | f :: v :: rest => (f.toNat, v) :: pairsOf rest
  | _ => []

/-- The set of an order's parameter count tests: an even count between two bounds. -/
def evenCount (lo hi : Nat) (ws : List Word) : Bool := lo ≤ ws.length && ws.length ≤ hi && ws.length % 2 = 0

/-! ## Small list operations -/

/-- The numbers 1 to n. -/
def upTo (n : Nat) : List Nat := List.range' 1 n

/-- Insert a number into an ascending list without repeats. -/
def insertNat (r : Nat) (xs : List Nat) : List Nat := addReason r xs

/-- The ascending list without repeats of some numbers. -/
def sortNat (xs : List Nat) : List Nat := xs.foldl (fun acc x => insertNat x acc) []

/-- A word of flags: flag n - lo is set for each n of the list. -/
def flagWord (lo : Nat) (ns : List Nat) : Word :=
  wordOf ((sortNat ns).foldl (fun acc n => if lo ≤ n then acc + 2 ^ (n - lo) else acc) 0)

/-- Do an operation for each key, in order. -/
def State.forEach {α : Type} (s : State) (xs : List α) (f : State → α → State) : State := xs.foldl f s

end Sys2Proof.Machine
end

