-- ==== Sys2Proof/Machine/Operands.lean ====
section
/-! DEFINITION. Field words: the stored fields of each record as the words that DEFINE, EDIT, READ and the plan image carry, their ranges, and the legalised fields. -/

namespace Sys2Proof.Machine

/-- The number of the i-th word of a list, counting from 0. -/
def fieldNat (ws : List Word) (i : Nat) : Nat := (ws.getD i 0#16).toNat

/-- The optional number of the i-th word, none for 0xFFFF. -/
def fieldOption (ws : List Word) (i : Nat) : Option Nat := optionOfWord (ws.getD i 0#16)

/-- The upper and lower words of a value that needs more than one word (chapters 1 and 2). -/
def wideWords (n : Nat) : List Word := [wordOf (n / 65536), wordOf (n % 65536)]

/-- The value of an upper and a lower word. -/
def fieldWide (ws : List Word) (i : Nat) : Nat := fieldNat ws i * 65536 + fieldNat ws (i + 1)

/-- The word of an optional number lies in a range, or is none. -/
def optionIn (lo hi : Nat) (w : Word) : Bool := w = noneWord || (lo ≤ w.toNat && w.toNat ≤ hi)

/-- Apply pairs to field words: the index function places each field number that may be written; other numbers are
passed over (the Field Number test refuses them). -/
def applyPairs (index : Nat → Option Nat) (ws : List Word) (ps : List (Nat × Word)) : List Word :=
  ps.foldl (fun acc p => match index p.1 with | some i => acc.set i p.2 | none => acc) ws

/-- Some pair names a field that may not be written (RANGE, detail 1). -/
def badField (index : Nat → Option Nat) (ps : List (Nat × Word)) : Bool := ps.any (fun p => (index p.1).isNone)

/-- Some pair names the field. -/
def namesField (f : Nat) (ps : List (Nat × Word)) : Bool := ps.any (fun p => p.1 = f)

/-- Fields 1 to n stand at places 0 to n - 1. -/
def fieldIndex (n : Nat) (f : Nat) : Option Nat := if 1 ≤ f && f ≤ n then some (f - 1) else none

/-! ## Labels -/

/-- The bytes of a label before its ending zero. -/
def labelBytes (ws : List Word) : List Byte := (bytesOfWords (ws.take 6)).takeWhile (· != 0#8)

/-- A label holds a code outside 32 to 126 before its ending zero (RANGE, detail 3). -/
def labelBad (ws : List Word) : Bool := (labelBytes ws).any (fun b => b.toNat < 32 || 126 < b.toNat)

/-- The empty label. -/
def emptyLabel : List Word := List.replicate 6 0#16

/-! ## Windows: fields 1 to 19 -/

/-- The code of a schedule. -/
def Schedule.code : Schedule → Nat
  | .always => 0
  | .daily => 1
  | .once => 2

/-- The schedule of a code. -/
def scheduleOf (n : Nat) : Schedule := if n = 0 then .always else if n = 1 then .daily else .once

/-- Fields 1 to 19 of a window. -/
def windowWords (w : Window) : List Word :=
  w.label ++ wideWords w.lowEdge ++ wideWords w.highEdge ++
    [wordOf w.classes, wordOf w.schedule.code, wordOf w.openMinute, wordOf w.closeMinute, wordOf w.dayMask.toNat,
      wordOf w.openDate, wordOf w.closeDate, wordOfBool w.enabled, wordOf w.vacateGrace]

/-- The words of a window's defaults (record table of chapter 1). -/
def windowDefaults : List Word :=
  emptyLabel ++ wideWords 18800 ++ wideWords 108000 ++ [3#16, 0#16, 0#16, 0#16, 127#16, 0#16, 0#16, 0#16, 60#16]

/-- A vacate grace is rounded down to a multiple of 5. -/
def legalGrace (n : Nat) : Nat := n / 5 * 5

/-- A window's fields taken from words 1 to 19, over the read-only fields of another window. -/
def Window.withWords (w : Window) (ws : List Word) : Window :=
  { w with
    label := ws.take 6
    lowEdge := fieldWide ws 6
    highEdge := fieldWide ws 8
    classes := fieldNat ws 10
    schedule := scheduleOf (fieldNat ws 11)
    openMinute := fieldNat ws 12
    closeMinute := fieldNat ws 13
    dayMask := BitVec.ofNat 7 (fieldNat ws 14)
    openDate := fieldNat ws 15
    closeDate := fieldNat ws 16
    enabled := fieldNat ws 17 = 1
    vacateGrace := legalGrace (fieldNat ws 18) }

/-- A window with the defaults: Closed, no grace, no claim, no mark. -/
def Window.blank : Window where
  label := emptyLabel
  lowEdge := 18800
  highEdge := 108000
  classes := 3
  schedule := .always
  openMinute := 0
  closeMinute := 0
  dayMask := 127#7
  openDate := 0
  closeDate := 0
  enabled := false
  vacateGrace := 60
  state := .closed
  grace := none
  claim := none
  mark := []

/-- A frequency lies in the usable range (1.5). -/
def frequencyIn (n : Nat) : Bool := Config.lowestFrequency ≤ n && n ≤ Config.highestFrequency

/-- A window's words hold a value outside its range (R12, RANGE 2). -/
def windowRangeBad (ws : List Word) : Bool :=
  !(fieldNat ws 6 ≤ 1 && fieldNat ws 8 ≤ 1 && frequencyIn (fieldWide ws 6) && frequencyIn (fieldWide ws 8) &&
    (1 ≤ fieldNat ws 10 && fieldNat ws 10 ≤ 3) && fieldNat ws 11 ≤ 2 && fieldNat ws 12 ≤ 1439 &&
    fieldNat ws 13 ≤ 1439 && fieldNat ws 14 ≤ 127 && fieldNat ws 15 ≤ 36524 && fieldNat ws 16 ≤ 36524 &&
    fieldNat ws 17 ≤ 1 && fieldNat ws 18 ≤ 600)

/-- The low edge is not below the high edge (RANGE 4). -/
def edgesBad (ws : List Word) : Bool := !(fieldWide ws 6 < fieldWide ws 8)

/-! ## Carriers: fields 1 to 6 -/

/-- The code of a class. -/
def CarrierClass.code : CarrierClass → Nat
  | .audio => 1
  | .video => 2

/-- The occupied width of a class (1.5). -/
def CarrierClass.width : CarrierClass → Nat
  | .audio => 8
  | .video => 400

/-- The class of a code. -/
def classOf (n : Nat) : CarrierClass := if n = 2 then .video else .audio

/-- The code of a role. -/
def Role.code : Role → Nat
  | .primary => 0
  | .standby => 1

/-- The role of a code. -/
def roleOf (n : Nat) : Role := if n = 1 then .standby else .primary

/-- Fields 1 to 6 of a carrier. -/
def carrierWords (c : Carrier) : List Word :=
  wideWords c.frequency ++ [wordOf c.cls.code, wordOfOption c.window, wordOfOption (c.intent.map (·.1)),
    wordOfOption (c.intent.map (·.2.code))]

/-- The words of a carrier's defaults (2.1). -/
def carrierDefaults : List Word := wideWords 18800 ++ [1#16, noneWord, noneWord, noneWord]

/-- The intent that words 5 and 6 give: an intent without a role takes Primary, a role without a station is dropped
(R21, R23). That an EDIT which writes the role itself as none makes it Primary, whatever role was held, is the model's
choice (log 33). -/
def intentOfWords (ws : List Word) : Option (Nat × Role) :=
  match fieldOption ws 4 with
  | none => none
  | some k => some (k, match fieldOption ws 5 with | none => .primary | some r => roleOf r)

/-- A carrier's fields taken from words 1 to 6. -/
def Carrier.withWords (c : Carrier) (ws : List Word) : Carrier :=
  { c with
    frequency := fieldWide ws 0
    cls := classOf (fieldNat ws 2)
    window := fieldOption ws 3
    intent := intentOfWords ws }

/-- A carrier with the defaults. -/
def Carrier.blank : Carrier where
  frequency := 18800
  cls := .audio
  window := none
  intent := none
  state := .proposed
  bound := none
  conflict := none
  alternate := none
  cleanScore := none
  cleanAge := none
  restorePending := false
  claim := none
  mark := []

/-- A carrier's words hold a value outside its range (R20, RANGE 2). None passes for the window: an order without a
window is refused STATE 1 (log 23). -/
def carrierRangeBad (ws : List Word) : Bool :=
  !(fieldNat ws 0 ≤ 1 && frequencyIn (fieldWide ws 0) && (1 ≤ fieldNat ws 2 && fieldNat ws 2 ≤ 2) &&
    optionIn 1 16 (ws.getD 3 0#16) && optionIn 1 96 (ws.getD 4 0#16) && optionIn 0 1 (ws.getD 5 0#16))

/-! ## Stations: fields 1 to 11 -/

/-- The code of a station kind. -/
def StationKind.code : StationKind → Nat
  | .camera => 0
  | .mic => 1
  | .inEar => 2
  | .beltpack => 3

/-- The kind of a code. -/
def stationKindOf (n : Nat) : StationKind :=
  if n = 0 then .camera else if n = 1 then .mic else if n = 2 then .inEar else .beltpack

/-- The code of a call kind. -/
def CallKind.code : CallKind → Nat
  | .single => 0
  | .latched => 1

/-- The call kind of a code. -/
def callKindOf (n : Nat) : CallKind := if n = 1 then .latched else .single

/-- The class a station's carriers have (R18). -/
def StationKind.cls : StationKind → CarrierClass
  | .camera => .video
  | .mic | .inEar | .beltpack => .audio

/-- Cameras and Beltpacks have a lamp (R87). -/
def StationKind.hasLamp : StationKind → Bool
  | .camera | .beltpack => true
  | .mic | .inEar => false

/-- InEars and Beltpacks have a cue stack (6.1). -/
def StationKind.hasCue : StationKind → Bool
  | .inEar | .beltpack => true
  | .camera | .mic => false

/-- The legal powers of a kind, ascending (3.1, field 10). -/
def StationKind.powers : StationKind → List Nat
  | .camera => [25, 100, 250, 500]
  | .mic | .inEar | .beltpack => [1, 10, 25, 50]

/-- The default power of a kind (3.1). -/
def StationKind.defaultPower : StationKind → Nat
  | .camera => 100
  | .mic | .inEar | .beltpack => 10

/-- A power legalised: itself when legal, else the largest legal value below it, else the smallest (R49). -/
def legalPower (k : StationKind) (p : Nat) : Nat :=
  match (k.powers.filter (· ≤ p)).getLast? with
  | some q => q
  | none => k.powers.headD 1

/-- Fields 1 to 11 of a station. -/
def stationWords (x : Station) : List Word :=
  x.label ++ [wordOf x.kind.code, wordOfOption x.controlUnit, wordOfOption x.pair, wordOf x.power,
    wordOf x.callMode.code]

/-- The words of a station's defaults: kind Mic, power 10 (3.1). -/
def stationDefaults : List Word := emptyLabel ++ [1#16, noneWord, noneWord, 10#16, 0#16]

/-- A station's words hold a value outside its range (R47, RANGE 2). -/
def stationRangeBad (ws : List Word) : Bool :=
  !(fieldNat ws 6 ≤ 3 && optionIn 1 32 (ws.getD 7 0#16) && optionIn 1 96 (ws.getD 8 0#16) &&
    (1 ≤ fieldNat ws 9 && fieldNat ws 9 ≤ 500) && fieldNat ws 10 ≤ 1)

/-- The wanted tune of a new or loaded station: no frequency, its power, muted (R49, R76). -/
def silentTune (k : StationKind) (power : Nat) : Tune := ⟨none, k.cls, power, true, 0⟩

/-- A new station from its words (R49, R76, R95, R128): Parked, slots empty, muted, tally Off, stack empty. -/
def Station.ofWords (ws : List Word) : Station :=
  let kind := stationKindOf (fieldNat ws 6)
  let power := legalPower kind (fieldNat ws 9)
  { label := ws.take 6
    kind := kind
    controlUnit := fieldOption ws 7
    pair := fieldOption ws 8
    power := power
    callMode := callKindOf (fieldNat ws 10)
    primary := none
    standby := none
    link := .parked
    switchKind := none
    blockOutgoing := none
    token := 0
    attempts := 0
    tuneTimer := none
    watch := .off
    quality := none
    qualityAge := none
    inhibit := false
    recoveryRun := none
    wanted := silentTune kind power
    tuneBase := .current
    delivered := none
    claim := none
    mark := []
    tally := .off
    contributing := []
    lamp := if kind.hasLamp then some ⟨.off, false, false⟩ else none
    lampBase := .current
    deliveredLamp := none
    call := none
    callRemaining := none
    accept := true
    stack := []
    cueRoute := none
    cueBase := .current
    deliveredRoute := none }

/-! ## Galleries: fields 1 to 8 and 16 to 47 -/

/-- Where a gallery's field stands among its stored words. -/
def galleryIndex (f : Nat) : Option Nat :=
  if 1 ≤ f && f ≤ 8 then some (f - 1) else if 16 ≤ f && f ≤ 47 then some (f - 8) else none

/-- Fields 1 to 8 and 16 to 47 of a gallery. -/
def galleryWords (g : Gallery) : List Word :=
  g.label ++ [wordOfOption g.tallyUnit, wordOfOption g.follow] ++ g.sources.map wordOfOption

/-- The words of a gallery's defaults (4.1). -/
def galleryDefaults : List Word := emptyLabel ++ List.replicate 34 noneWord

/-- A gallery's words hold a value outside its range (R81, RANGE 2). -/
def galleryRangeBad (ws : List Word) : Bool :=
  !(optionIn 1 32 (ws.getD 6 0#16) && optionIn 1 24 (ws.getD 7 0#16) && (ws.drop 8).all (optionIn 1 96))

/-- A gallery's fields taken from its stored words. -/
def Gallery.withWords (g : Gallery) (ws : List Word) : Gallery :=
  { g with
    label := ws.take 6
    tallyUnit := fieldOption ws 6
    follow := fieldOption ws 7
    sources := (ws.drop 8).map optionOfWord }

/-- A gallery with the defaults. -/
def Gallery.blank : Gallery where
  label := emptyLabel
  tallyUnit := none
  follow := none
  sources := List.replicate 32 none
  live := false
  program := []
  preview := []
  claim := none
  mark := []

/-- The station behind a source of a gallery (source map). -/
def Gallery.stationOf (g : Gallery) (source : Nat) : Option Nat :=
  if source = 0 then none else (g.sources.getD (source - 1) none)

/-! ## Conferences -/

/-- The word of a source or identity (R96, R116). -/
def Source.code : Source → Nat
  | .station n => n
  | .port n => 256 + n
  | .operator n => 512 + n

/-- The source of a word: a station 1 to 96, a panel port 257 to 304, an operator 512 to 519 (R116). -/
def sourceOf (n : Nat) : Option Source :=
  if 1 ≤ n && n ≤ 96 then some (.station n)
  else if 257 ≤ n && n ≤ 304 then some (.port (n - 256))
  else if 512 ≤ n && n ≤ 519 then some (.operator (n - 512))
  else none

/-- The identity of a word: a station or a panel port (R96). -/
def identityOf (n : Nat) : Option Source :=
  match sourceOf n with
  | some (.operator _) => none
  | r => r

/-- The word of an optional source. -/
def sourceWord (x : Option Source) : Word := wordOfOption (x.map Source.code)

/-- The rights code: 1 Listen, 2 Talk, 3 both (R97). -/
def rightsCode (listen talk : Bool) : Nat := (if listen then 1 else 0) + (if talk then 2 else 0)

/-- The attribute word of a member (5.1). -/
def Member.attributes (m : Member) : Word :=
  wordOf (rightsCode m.listen m.talk + m.priority * 4 + (if m.join = .follow then 16 else 0) +
    (if m.absent then 32 else 0) + (flagWord 1 m.reasons).toNat * 256)

/-- The stored words of a conference's Fixed members (10.1). -/
def memberWords (m : Member) : List Word := [wordOf m.id.code, wordOf (rightsCode m.listen m.talk + m.priority * 4)]

/-- The stored field words of a conference: the label, then its Fixed members (10.1). -/
def conferenceWords (c : Conference) : List Word :=
  c.label ++ ((c.members.filter (fun m => m.join = .fixed)).flatMap memberWords)

/-- An empty conference. -/
def Conference.blank : Conference where
  label := emptyLabel
  members := []
  talkers := []
  waiting := []
  routing := ⟨[], []⟩
  routingBase := .current
  deliveredRouting := none
  claim := none
  mark := []

/-! ## Part settings: fields 15 to 32 -/

/-- A Link Watch is rounded down to a multiple of 50 (R55). -/
def legalWatch (n : Nat) : Nat := n / 50 * 50

/-- The eight words of the Director Ports, unused words none. -/
def portWords (ps : List Nat) : List Word := (ps.map wordOf ++ List.replicate 8 noneWord).take 8

/-- Part fields 15 to 32. -/
def settingsWords (x : Settings) : List Word :=
  [wordOf x.spacingGuard, wordOf x.imGuard, wordOfBool x.imFifth, wordOf x.linkWatch, wordOf x.fallbackFloor,
    wordOf x.fallbackMargin, wordOf x.returnMargin, wordOf x.recoveryTime, wordOf x.cueLimit] ++
    portWords x.directorPorts ++ [wordOfOption x.matrixUnit]

/-- The coordination words are outside their ranges (R30). -/
def coordinationBad (ws : List Word) : Bool := !(fieldNat ws 0 ≤ 40 && fieldNat ws 1 ≤ 20 && fieldNat ws 2 ≤ 1)

/-- The link words are outside their ranges (3.4). -/
def linkBad (ws : List Word) : Bool :=
  !((100 ≤ fieldNat ws 0 && fieldNat ws 0 ≤ 5000) && fieldNat ws 1 ≤ 100 && fieldNat ws 2 ≤ 50 &&
    fieldNat ws 3 ≤ 50 && (1 ≤ fieldNat ws 4 && fieldNat ws 4 ≤ 300))

/-- Part fields 15 to 32 hold a value outside its range (R171). -/
def settingsBad (ws : List Word) : Bool :=
  coordinationBad ws || linkBad (ws.drop 3) || !(1 ≤ fieldNat ws 8 && fieldNat ws 8 ≤ 120) ||
    !(((ws.drop 9).take 8).all (optionIn 1 48)) || !(optionIn 1 32 (ws.getD 17 0#16))

/-- The settings that fields 15 to 32 give, legalised (R171). -/
def settingsOfWords (ws : List Word) : Settings where
  spacingGuard := fieldNat ws 0
  imGuard := fieldNat ws 1
  imFifth := fieldNat ws 2 = 1
  linkWatch := legalWatch (fieldNat ws 3)
  fallbackFloor := fieldNat ws 4
  fallbackMargin := fieldNat ws 5
  returnMargin := fieldNat ws 6
  recoveryTime := fieldNat ws 7
  cueLimit := fieldNat ws 8
  directorPorts := sortNat (((ws.drop 9).take 8).filterMap optionOfWord)
  matrixUnit := fieldOption ws 17

/-- The return level (R55). -/
def Settings.returnLevel (x : Settings) : Nat := x.fallbackFloor + x.returnMargin

/-! ## Other codes -/

/-- The code of a window state. -/
def WindowState.code : WindowState → Nat
  | .closed => 0
  | .opened => 1
  | .closing => 2

/-- The code of a carrier state. -/
def CarrierState.code : CarrierState → Nat
  | .proposed => 0
  | .checking => 1
  | .conflict => 2
  | .cleared => 3
  | .assigned => 4
  | .standby => 5
  | .blocked => 6

/-- The committed set: Cleared, Assigned, Standby and Blocked (R18). -/
def CarrierState.committed : CarrierState → Bool
  | .cleared | .assigned | .standby | .blocked => true
  | .proposed | .checking | .conflict => false

/-- The code of a conflict kind. -/
def ConflictKind.code : ConflictKind → Nat
  | .window => 0
  | .edge => 1
  | .spacing => 2
  | .intermod => 3

/-- The code of a link state. -/
def Link.code : Link → Nat
  | .parked => 0
  | .tuning => 1
  | .up => 2
  | .weak => 3
  | .switching => 4
  | .lost => 5

/-- The last column of the table of R56: the lamp is deliverable and the member present. -/
def Link.deliverable : Link → Bool
  | .up | .weak | .switching => true
  | .parked | .tuning | .lost => false

/-- The link is Up or Weak. -/
def Link.upOrWeak : Link → Bool
  | .up | .weak => true
  | .parked | .tuning | .switching | .lost => false

/-- The link is Parked or Lost. -/
def Link.parkedOrLost : Link → Bool
  | .parked | .lost => true
  | .tuning | .up | .weak | .switching => false

/-- The code of a switch kind. -/
def SwitchKind.code : SwitchKind → Nat
  | .automatic => 0
  | .operator => 1
  | .vacate => 2

/-- The code of a tally or lamp level. -/
def Tally.code : Tally → Nat
  | .off => 0
  | .preview => 1
  | .rehearse => 2
  | .live => 3

/-- The code of a cue level. -/
def CueLevel.code : CueLevel → Nat
  | .floor => 0
  | .director => 1

/-- The code of a unit kind. -/
def UnitKind.code : UnitKind → Nat
  | .rx => 0
  | .txc => 1
  | .tgi => 2
  | .tkm => 3

/-- The unit kind of a code. -/
def unitKindOf (n : Nat) : Option UnitKind :=
  if n = 0 then some .rx else if n = 1 then some .txc else if n = 2 then some .tgi else if n = 3 then some .tkm
  else none

/-- The code of a unit state. -/
def UnitState.code : UnitState → Nat
  | .absent => 0
  | .present => 1
  | .lost => 2

/-- The code of a delivery kind (Unit field 4). -/
def DeliveryKind.code : DeliveryKind → Nat
  | .tune => 0
  | .lamp => 1
  | .routing => 2
  | .cueRoute => 3

/-- The table of a delivery's target. -/
def DeliveryKind.table : DeliveryKind → TableId
  | .tune | .lamp | .cueRoute => .station
  | .routing => .conference

/-- The code of a service state. -/
def Service.code : Service → Nat
  | .starting => 0
  | .inService => 1
  | .faultHandling => 2
  | .halted => 3

end Sys2Proof.Machine
end

