-- ==== Sys2Proof/Machine/Deliver.lean ====
section
/-! DEFINITION. Wanted and delivered state: what each delivery is, how the Line Controller decides it, the entries of the Directive Queue, and final deliveries (8.4, 8.5). -/

namespace Sys2Proof.Machine

/-- A delivery as R150 reads it: its destination, the wanted and the delivered state, and its state while it has no
entry. -/
structure Delivery where
  destination : Option Nat
  wanted : Content
  delivered : Option Content
  base : DeliveryBase
  deriving DecidableEq, Repr

/-- A station's lamp is deliverable (R88). -/
def Station.lampDeliverable (x : Station) : Bool := x.lamp.isSome && x.link.deliverable

/-- The final delivery of a key, if the Line Controller holds one (R153). -/
def State.finalAt (s : State) (kind : DeliveryKind) (target : Nat) : Option Final :=
  s.finals.find? (fun f => f.kind = kind && f.target = target)

/-- Where a final delivery goes: a tune to its last control unit, a routing or cue route to the TKM unit (R153; log
21). -/
def State.finalDestination (s : State) (f : Final) : Option Nat :=
  match f.kind with
  | .tune | .lamp => f.destination
  | .routing | .cueRoute => s.settings.matrixUnit

/-- A final delivery as a delivery. -/
def State.finalDelivery (s : State) (kind : DeliveryKind) (target : Nat) : Option Delivery :=
  (s.finalAt kind target).map (fun f => ⟨s.finalDestination f, f.wanted, f.delivered, f.base⟩)

/-- The delivery of a kind and target (8.4): the owner's when the record has it, else the Line Controller's final
delivery. A station without a control unit has no tune to deliver; a lamp that is not deliverable is not decided
(R150). -/
def State.delivery (s : State) (kind : DeliveryKind) (target : Nat) : Option Delivery :=
  match kind with
  | .tune =>
    match s.station target with
    | some x => x.controlUnit.map (fun u => ⟨some u, .tune x.wanted, x.delivered.map .tune, x.tuneBase⟩)
    | none => s.finalDelivery .tune target
  | .lamp =>
    match s.station target with
    | some x =>
      if x.link.deliverable then
        x.lamp.map (fun l => ⟨x.controlUnit, .lamp l, x.deliveredLamp.map .lamp, x.lampBase⟩)
      else none
    | none => none
  | .routing =>
    match s.conference target with
    | some c => some ⟨s.settings.matrixUnit, .routing c.routing, c.deliveredRouting.map .routing, c.routingBase⟩
    | none => s.finalDelivery .routing target
  | .cueRoute =>
    match s.station target with
    | some x =>
      if x.kind.hasCue then
        some ⟨s.settings.matrixUnit, .cueRoute x.cueRoute, x.deliveredRoute.map .cueRoute, x.cueBase⟩
      else s.finalDelivery .cueRoute target
    | none => s.finalDelivery .cueRoute target

/-- The record, not a final delivery, owns this delivery. -/
def State.owned (s : State) (kind : DeliveryKind) (target : Nat) : Bool :=
  match kind with
  | .tune | .lamp => (s.station target).isSome
  | .routing => (s.conference target).isSome
  | .cueRoute => match s.station target with | some x => x.kind.hasCue | none => false

/-- Change the final delivery of a key. -/
def State.modFinal (s : State) (kind : DeliveryKind) (target : Nat) (f : Final → Final) : State :=
  { s with finals := s.finals.map (fun x => if x.kind = kind && x.target = target then f x else x) }

/-- Drop the final delivery of a key. -/
def State.dropFinal (s : State) (kind : DeliveryKind) (target : Nat) : State :=
  { s with finals := s.finals.filter (fun x => !(x.kind = kind && x.target = target)) }

/-- Set the state of a delivery that has no entry. A final delivery ends when it becomes Current (R153). -/
def State.setBase (s : State) (kind : DeliveryKind) (target : Nat) (b : DeliveryBase) : State :=
  if s.owned kind target then
    match kind with
    | .tune => s.modStation target (fun x => { x with tuneBase := b })
    | .lamp => s.modStation target (fun x => { x with lampBase := b })
    | .routing => s.modConference target (fun x => { x with routingBase := b })
    | .cueRoute => s.modStation target (fun x => { x with cueBase := b })
  else if b = .current then s.dropFinal kind target
  else s.modFinal kind target (fun x => { x with base := b })

/-- Set the delivered state of a delivery (R152). -/
def State.setDelivered (s : State) (kind : DeliveryKind) (target : Nat) (c : Content) : State :=
  if s.owned kind target then
    match kind, c with
    | .tune, .tune t => s.modStation target (fun x => { x with delivered := some t })
    | .lamp, .lamp l => s.modStation target (fun x => { x with deliveredLamp := some l })
    | .routing, .routing r => s.modConference target (fun x => { x with deliveredRouting := some r })
    | .cueRoute, .cueRoute r => s.modStation target (fun x => { x with deliveredRoute := some r })
    | _, _ => s
  else s.modFinal kind target (fun x => { x with delivered := some c })

/-- An entry has this key (R151). -/
def Entry.has (e : Entry) (unit : Nat) (kind : DeliveryKind) (target : Nat) : Bool :=
  e.unit = unit && e.kind = kind && e.target = target

/-- The entry of a delivery, detached or not. -/
def State.entryOf (s : State) (d : Delivery) (kind : DeliveryKind) (target : Nat) : Option Entry :=
  match d.destination with
  | none => none
  | some u => s.queue.find? (fun e => e.has u kind target)

/-- The delivery state that the owner's field reads: 0 Current, 1 Queued, 2 Sent, 3 Waiting, 4 Stale (R150). -/
def State.deliveryCode (s : State) (kind : DeliveryKind) (target : Nat) : Option Nat :=
  match s.delivery kind target with
  | none => none
  | some d =>
    match s.entryOf d kind target with
    | some e =>
      if e.detached then some (match d.base with | .current => 0 | .waiting => 3 | .stale => 4)
      else some (if e.sent then 2 else 1)
    | none => some (match d.base with | .current => 0 | .waiting => 3 | .stale => 4)

/-- The unit kind that a delivery needs (R150). -/
def DeliveryKind.unitKind : DeliveryKind → UnitKind
  | .tune | .lamp => .txc
  | .routing | .cueRoute => .tkm

/-- The destination is a Present unit of the right kind. -/
def State.reachable (s : State) (kind : DeliveryKind) (destination : Option Nat) : Bool :=
  match destination with
  | none => false
  | some u =>
    match s.unitAt u with
    | some x => x.state = .present && x.kind = some kind.unitKind
    | none => false

/-- The destination is Lost. -/
def State.unitIsLost (s : State) (destination : Option Nat) : Bool :=
  match destination with
  | none => false
  | some u => match s.unitAt u with | some x => x.state = .lost | none => false

/-- Append an entry at the tail: Queued (R150). -/
def State.appendEntry (s : State) (unit : Nat) (kind : DeliveryKind) (target : Nat) (c : Content) : State :=
  { s with queue := s.queue ++ [⟨unit, kind, target, c, false, 0, false⟩] }

/-- Replace an entry's content in place: Queued, no attempts, taken back when it was detached (R151, R153). -/
def State.replaceEntry (s : State) (unit : Nat) (kind : DeliveryKind) (target : Nat) (c : Content) : State :=
  { s with
    queue := s.queue.map (fun e =>
      if e.has unit kind target then { e with content := c, sent := false, attempts := 0, detached := false } else e) }

/-- Decide a delivery afresh (R150, R151): an entry is replaced; else the table of R150. -/
def State.decideDelivery (s : State) (kind : DeliveryKind) (target : Nat) : State :=
  match s.delivery kind target with
  | none => s
  | some d =>
    match s.entryOf d kind target with
    | some e => (s.setBase kind target .waiting).replaceEntry e.unit kind target d.wanted
    | none =>
      if d.delivered = some d.wanted then s.setBase kind target .current
      else if s.unitIsLost d.destination then s.setBase kind target .stale
      else if s.reachable kind d.destination && s.queue.length < Config.directiveQueueSize then
        (s.setBase kind target .waiting).appendEntry (d.destination.getD 0) kind target d.wanted
      else s.setBase kind target .waiting

/-- The owner hands a new wanted state (R150): an entry is replaced; a Stale or Waiting delivery stays as it is; a
Current one is decided. -/
def State.hand (s : State) (kind : DeliveryKind) (target : Nat) : State :=
  match s.delivery kind target with
  | none => s
  | some d =>
    if (s.entryOf d kind target).isSome || d.base = .current then s.decideDelivery kind target else s

/-- Every delivery key in the fixed order of R152: stations, the tune before the lamp of each; conferences; cue
routes. -/
def deliveryKeys : List (DeliveryKind × Nat) :=
  (upTo 96).flatMap (fun k => [(.tune, k), (.lamp, k)]) ++ (upTo 24).map (fun k => (.routing, k)) ++
    (upTo 96).map (fun k => (.cueRoute, k))

/-- A Waiting delivery that the scan meets (R152): one whose wanted state equals its delivered state becomes Current and
takes no place, in a full queue too; another is appended while there is room. -/
def State.scanOne (s : State) (p : DeliveryKind × Nat) : State :=
  match s.delivery p.1 p.2 with
  | none => s
  | some d =>
    if d.base = .waiting && (s.entryOf d p.1 p.2).isNone && s.reachable p.1 d.destination then
      s.decideDelivery p.1 p.2
    else s

/-- The scan of the Waiting deliveries (R152), which fills the free space of the queue. -/
def State.fillQueue (s : State) : State := s.forEach deliveryKeys State.scanOne

/-- Remove the entries that a test picks and fill the space they free (R151). -/
def State.removeEntries (s : State) (p : Entry → Bool) : State :=
  if s.queue.any p then State.fillQueue { s with queue := s.queue.filter (fun e => !p e) } else s

/-- The owner no longer asks for the entries that a test picks: a Queued entry is removed, a Sent one is detached
(R153). -/
def State.withdraw (s : State) (p : Entry → Bool) : State :=
  State.removeEntries
    { s with queue := s.queue.map (fun e => if p e && e.sent then { e with detached := true } else e) }
    (fun e => p e && !e.sent)

/-- Every delivery to an address is decided afresh (R144, R147), in the order of R152's scan: the model's choice (log 14). -/
def State.decideAll (s : State) (unit : Nat) : State :=
  s.forEach deliveryKeys (fun s p =>
    match s.delivery p.1 p.2 with
    | some d => if d.destination = some unit then s.decideDelivery p.1 p.2 else s
    | none => s)

/-- Reset to undelivered every delivered state that depends on an address (R144). -/
def State.resetUndelivered (s : State) (unit : Nat) : State :=
  let matrix := s.settings.matrixUnit = some unit
  { s with
    stations := s.stations.map (fun _ x =>
      { x with
        delivered := if x.controlUnit = some unit then none else x.delivered
        deliveredLamp := if x.controlUnit = some unit then none else x.deliveredLamp
        deliveredRoute := if matrix then none else x.deliveredRoute })
    conferences :=
      if matrix then s.conferences.map (fun _ x => { x with deliveredRouting := none }) else s.conferences
    finals := s.finals.map (fun f => if s.finalDestination f = some unit then { f with delivered := none } else f) }

/-- The Line Controller takes over a delivery as its own final delivery (R153). The record must have left its table.
With fresh the delivery is decided by R150; else it goes on as it stood, and it is no delivery when it was Current. -/
def State.takeOver (s : State) (f : Final) (fresh : Bool) : State :=
  let t := s.dropFinal f.kind f.target
  let t := { t with finals := t.finals ++ [f] }
  if fresh then t.decideDelivery f.kind f.target
  else
    match t.delivery f.kind f.target with
    | some d =>
      if f.base = .current && (t.entryOf d f.kind f.target).isNone then t.dropFinal f.kind f.target else t
    | none => t

end Sys2Proof.Machine
end

