-- ==== Sys2Proof/Machine/Flags.lean ====
section
/-! DEFINITION. The attention flags, the pins that follow them, and the calendar of the Show Clock. -/

namespace Sys2Proof.Machine

/-! ## Attention (9.5) -/

/-- Some record or Damaged slot of a table is marked (R166). -/
def Table.anyMarked {α : Type} (t : Table α) (mark : α → List Nat) : Bool :=
  t.slots.any (fun p => match p.2 with | .held r => !(mark r).isEmpty | .damaged m => !m.isEmpty)

/-- The attention word: the mark flags follow their tables, the latched flags stand beside them (R168). -/
def State.attentionWord (s : State) : Word :=
  wordOf ((if s.windows.anyMarked Window.mark then 1 else 0) +
    (if s.carriers.anyMarked Carrier.mark then 2 else 0) +
    (if s.stations.anyMarked Station.mark then 4 else 0) +
    (if s.galleries.anyMarked Gallery.mark then 8 else 0) +
    (if s.conferences.anyMarked Conference.mark then 16 else 0) +
    (if s.units.any (fun u => !u.mark.isEmpty) then 32 else 0) +
    (if s.latched.overrun then 256 else 0) +
    (if s.latched.store then 512 else 0) +
    (if s.latched.fault then 1024 else 0) +
    (if s.latched.clock then 2048 else 0))

/-- ATTN# is low while a flag is both set and enabled (R168). -/
def State.attnLow (s : State) : Bool := s.attentionWord &&& s.mask != 0#16

/-- ANS# is low while an answer is ready (R161). -/
def State.ansLow (s : State) : Bool := match s.port with | .pending _ => true | _ => false

/-- READY is high while the part is In Service (1.8). -/
def State.readyHigh (s : State) : Bool := s.service = .inService

/-- Every latched flag clear. -/
def Latched.none : Latched := ⟨false, false, false, false⟩

/-- Set the Overrun flag. -/
def State.latchOverrun (s : State) : State := { s with latched := { s.latched with overrun := true } }
/-- Set the Store flag. -/
def State.latchStore (s : State) : State := { s with latched := { s.latched with store := true } }
/-- Set the Fault flag. -/
def State.latchFault (s : State) : State := { s with latched := { s.latched with fault := true } }

/-! ## Calendar (R1) -/

/-- February has 29 days in every year divisible by four. -/
def leapYear (y : Nat) : Bool := y % 4 = 0

/-- The length of a month. -/
def monthLength (y m : Nat) : Nat :=
  if m = 2 then (if leapYear y then 29 else 28)
  else if m = 4 || m = 6 || m = 9 || m = 11 then 30 else 31

/-- The days of the months before month m. -/
def daysBeforeMonth (y m : Nat) : Nat := (upTo (m - 1)).foldl (fun acc i => acc + monthLength y i) 0

/-- The date number: days from 2000-01-01 (chapter 1). Years 2000 to y - 1 hold 365 days each and a leap day every
fourth year from 2000. -/
def dateNumber (y m d : Nat) : Nat := (y - 2000) * 365 + (y - 2000 + 3) / 4 + daysBeforeMonth y m + (d - 1)

/-- The date number of the Show Clock. -/
def Clock.date (c : Clock) : Nat := dateNumber c.year c.month c.day

/-- The day of week: 2000-01-01 is a Saturday, 6 (R1). -/
def Clock.dayOfWeek (c : Clock) : Nat := (c.date + 6) % 7

/-- The minute of day (R1). -/
def Clock.minute (c : Clock) : Nat := c.second / 60

/-- The day after; the day after 2099-12-31 is 2000-01-01 (R1). -/
def Clock.nextDay (c : Clock) : Clock :=
  if c.day < monthLength c.year c.month then { c with day := c.day + 1 }
  else if c.month < 12 then { c with month := c.month + 1, day := 1 }
  else { c with year := if c.year < 2099 then c.year + 1 else 2000, month := 1, day := 1 }

/-- The advance of one second (R1); an Unset clock does not advance. -/
def Clock.advance (c : Clock) : Clock :=
  if c.unset then c
  else if c.second < 86399 then { c with second := c.second + 1, phase := 0 }
  else { c.nextDay with second := 0, phase := 0 }

/-- The advance that led to this clock was a minute change (R1). -/
def Clock.minuteChange (c : Clock) : Bool := !c.unset && c.second % 60 = 0

end Sys2Proof.Machine
end

