-- ==== Sys2Proof/Machine/Image.lean ====
section
/-! DEFINITION. The plan image: the words that a save writes, and the reading of an image by a load (10.1, 10.2). -/

namespace Sys2Proof.Machine

/-! ## The words of a save (R175) -/

/-- A plan record: the header, the key, the stored field words. -/
def planRecord (kind key : Nat) (ws : List Word) : List Word :=
  wordOf (kind * 256 + (ws.length + 1)) :: wordOf key :: ws

/-- A record that a save writes, and its words. -/
abbrev PlanItem := RecordId × List Word

/-- The records of a table as plan records. -/
def tableItems {α : Type} (table : TableId) (t : Table α) (words : α → List Word) : List PlanItem :=
  t.records.map (fun p => (⟨table, p.1⟩, planRecord table.selector p.1 (words p.2)))

/-- The stored words of an operator. -/
def Operator.words (x : Operator) : List Word := [wordOf x.rights.toNat, x.mask]

/-- The plan records of a save, in the order Window, Carrier, Station, Gallery, Conference, Operator, Part; operator 0
is not written. -/
def State.planItems (s : State) : List PlanItem :=
  tableItems .window s.windows windowWords ++ tableItems .carrier s.carriers carrierWords ++
    tableItems .station s.stations stationWords ++ tableItems .gallery s.galleries galleryWords ++
    tableItems .conference s.conferences conferenceWords ++
    ((upTo 7).map (fun n => (⟨.operator, n⟩, planRecord 6 n (s.operatorAt n).words))) ++
    [(⟨.part, 0⟩, planRecord 8 0 (settingsWords s.settings))]

/-- Where a record stands in the order of a save. -/
def recordPlace (r : RecordId) : Nat := 256 * r.table.selector + r.key

/-- The records that a save has still to write: those behind its place; in Fault Handling it passes over the record under
quarantine (R176; log 8). -/
def State.saveLeft (s : State) : List PlanItem :=
  s.planItems.filter (fun p => s.savePlace < recordPlace p.1 && s.quarantined != some p.1)

/-- The words of the plan records of a save: those that it has written, each as its record stood then, and those of the
records that it has still to write, as they stand (R175). While no save has written a record this is the whole plan. -/
def State.planWords (s : State) : List Word := s.saveWritten ++ s.saveLeft.flatMap (·.2)

/-- The save writes some records, as they stand. -/
def State.saveThrough (s : State) (items : List PlanItem) : State :=
  { s with
    savePlace := (items.getLast?.map (fun p => recordPlace p.1)).getD s.savePlace
    saveWritten := s.saveWritten ++ items.flatMap (·.2) }

/-- The sum of some words, modulo 65,536. -/
def wordSum (ws : List Word) : Word := ws.foldl (fun a b => a + b) 0#16

/-- The checksum word: the sum from the first signature word through it is 0 modulo 65,536 (R171). -/
def checksumWord (body : List Word) : Word := 0#16 - (Config.signature0 + Config.signature1 + wordSum body)

/-- The image from address 1 on: the second signature word, the records, the end word and the checksum word. -/
def State.imageTail (s : State) : List Word :=
  let body := s.planWords ++ [0xFFFF#16]
  Config.signature1 :: body ++ [checksumWord body]

/-- The writes of a save, in order (R175). No write goes past the last word of the store. -/
def State.saveWrites (s : State) : List (Nat × Word) :=
  (((0, 0#16) :: (s.imageTail.zipIdx.map (fun (p : Word × Nat) => (p.2 + 1, p.1)))) ++ [(0, Config.signature0)]).filter
    (fun (p : Nat × Word) => p.1 < Config.storeSize)

/-! ## The tests of a record (R171) -/

/-- The count of words after the header fits the kind. -/
def countFits (kind count : Nat) : Bool :=
  match kind with
  | 1 => count = 20
  | 2 => count = 7
  | 3 => count = 12
  | 4 => count = 41
  | 5 => 7 ≤ count && count ≤ 39 && count % 2 = 1
  | 6 => count = 3
  | 8 => count = 19
  | _ => false

/-- The key lies in the kind's range. -/
def keyFits (kind key : Nat) : Bool :=
  match kind with
  | 1 => 1 ≤ key && key ≤ 16
  | 2 => 1 ≤ key && key ≤ 128
  | 3 => 1 ≤ key && key ≤ 96
  | 4 => 1 ≤ key && key ≤ 8
  | 5 => 1 ≤ key && key ≤ 24
  | 6 => key ≤ 7
  | 8 => key = 0
  | _ => false

/-- The two-word entries of a stored conference. -/
def memberPairs : List Word → List (Word × Word)
  | a :: b :: rest => (a, b) :: memberPairs rest
  | _ => []

/-- A stored member entry is in range: the identity is a station or a panel port, the rights 1 to 3, the priority 0 to
3, and no other bit is set (log 24). -/
def memberFits (p : Word × Word) : Bool :=
  (identityOf p.1.toNat).isSome && p.2.toNat % 4 != 0 && p.2.toNat < 16

/-- The field words of a record are in range. -/
def fieldsFit (kind : Nat) (ws : List Word) : Bool :=
  match kind with
  | 1 => !windowRangeBad ws && !labelBad ws && !edgesBad ws
  | 2 => !carrierRangeBad ws && (ws.getD 3 noneWord) != noneWord
  | 3 => !stationRangeBad ws && !labelBad ws
  | 4 => !galleryRangeBad ws && !labelBad ws
  | 5 => !labelBad ws && (memberPairs (ws.drop 6)).all memberFits
  | 6 => fieldNat ws 0 ≤ 255
  | 8 => !settingsBad ws
  | _ => false

/-! ## Placing records -/

/-- A Fixed member of a stored entry; presence is set when the load ends. -/
def memberOf (p : Word × Word) : Option Member :=
  (identityOf p.1.toNat).map (fun id =>
    { id := id
      listen := p.2.toNat % 2 = 1
      talk := p.2.toNat / 2 % 2 = 1
      priority := p.2.toNat / 4 % 4
      join := .fixed
      reasons := []
      absent := false })

/-- A conference of stored words. -/
def conferenceOfWords (ws : List Word) : Conference :=
  { Conference.blank with label := ws.take 6, members := (memberPairs (ws.drop 6)).filterMap memberOf }

/-- An operator of stored words. -/
def operatorOfWords (ws : List Word) : Operator := ⟨BitVec.ofNat 8 (fieldNat ws 0), ws.getD 1 0#16⟩

/-- Place a record in its table; a later record of the same key replaces an earlier one whole (R171). -/
def State.placeRecord (s : State) (kind key : Nat) (ws : List Word) : State :=
  match kind with
  | 1 => { s with windows := s.windows.put key (Window.blank.withWords ws) }
  | 2 => { s with carriers := s.carriers.put key (Carrier.blank.withWords ws) }
  | 3 => { s with stations := s.stations.put key (Station.ofWords ws) }
  | 4 => { s with galleries := s.galleries.put key (Gallery.blank.withWords ws) }
  | 5 => { s with conferences := s.conferences.put key (conferenceOfWords ws) }
  | 6 => if key = 0 then s else { s with operators := s.operators.set key (operatorOfWords ws) }
  | 8 => { s with settings := settingsOfWords ws }
  | _ => s

/-- Empty every plan table and set every plan setting to its default (R172, R140). -/
def State.emptyPlan (s : State) : State :=
  { s with
    windows := ⟨[]⟩
    carriers := ⟨[]⟩
    checkQueue := []
    engine := none
    stations := ⟨[]⟩
    galleries := ⟨[]⟩
    conferences := ⟨[]⟩
    operators := operatorsReset
    freezeHolder := none
    settings := Settings.defaults }

/-! ## Reading an image (R172) -/

/-- How a load ended: the state with the records placed, and the start code. -/
structure Loaded where
  state : State
  code : Nat
  deriving DecidableEq, Repr

/-- The store acknowledges the read of an address; none means that it acknowledges every one. -/
def acknowledges (limit : Option Nat) (a : Nat) : Bool :=
  match limit with
  | none => true
  | some n => a < n

/-- The words of the store at some addresses, when the store has and acknowledges them all; else the start code. -/
def Memory.readRun (m : Memory) (limit : Option Nat) (a : Nat) : Nat → Except Nat (List Word)
  | 0 => .ok []
  | n + 1 =>
    if Config.storeSize ≤ a then .error 3
    else if !acknowledges limit a then .error 4
    else
      match m.readRun limit (a + 1) n with
      | .ok ws => .ok (m.read a :: ws)
      | .error e => .error e

/-- Read records from an address, placing each as it is read (R172). The sum runs over every word read so far. Fuel
bounds the number of records. -/
def readRecords (m : Memory) (limit : Option Nat) : Nat → Nat → Word → State → Loaded
  | 0, _, _, s => ⟨s, 3⟩
  | fuel + 1, a, sum, s =>
    match m.readRun limit a 1 with
    | .error e => ⟨s, e⟩
    | .ok hs =>
      let header := hs.headD 0#16
      if header = 0xFFFF#16 then
        -- the checksum word; an end word at the last address leaves no checksum to hold (log 24)
        if Config.storeSize ≤ a + 1 then ⟨s, 5⟩
        else if !acknowledges limit (a + 1) then ⟨s, 4⟩
        else ⟨s, if sum + header + m.read (a + 1) = 0#16 then 0 else 5⟩
      else
        let kind := header.toNat / 256
        let count := header.toNat % 256
        if !countFits kind count then ⟨s, 3⟩
        else
          match m.readRun limit (a + 1) count with
          | .error e => ⟨s, e⟩
          | .ok ws =>
            let key := fieldNat ws 0
            if keyFits kind key && fieldsFit kind (ws.drop 1) then
              readRecords m limit fuel (a + 1 + count) (sum + header + wordSum ws)
                (s.placeRecord kind key (ws.drop 1))
            else ⟨s, 3⟩

/-- Read a whole image into emptied plan tables (R172). -/
def State.readImage (s : State) (limit : Option Nat) : Loaded :=
  if limit = some 0 then ⟨s, 1⟩
  else
    match s.store.readRun limit 0 2 with
    -- the store stopped before both signature words were read: no image was found (log 24)
    | .error _ => ⟨s, 1⟩
    | .ok ws =>
      if ws = [Config.signature0, Config.signature1] then
        readRecords s.store limit Config.storeSize 2 (wordSum ws) s
      else ⟨s, 2⟩

end Sys2Proof.Machine
end

