-- ==== Sys2Proof/Machine/Fault.lean ====
section
/-! DEFINITION. The Record Memory and Fault Monitor: which records an activity reads, what a check failure does, and the taking of an order by the Control Port (R160, R163, R180, R181, R183). -/

namespace Sys2Proof.Machine

/-! ## Records and their references -/

/-- The records that a station's source names. -/
def Source.names : Source → List RecordId
  | .station k => [⟨.station, k⟩]
  | .port _ => []
  | .operator n => [⟨.operator, n⟩]

/-- A record of a table, if it is named. -/
def nameOf (t : TableId) (k : Option Nat) : List RecordId := (k.map (fun k => ⟨t, k⟩)).toList

/-- The records that the work on a station goes by beside its own: its control unit, its partner and its carriers (R60, R87,
R150). -/
def Station.uses (x : Station) : List RecordId :=
  nameOf .unit x.controlUnit ++ nameOf .station x.pair ++ nameOf .carrier x.primary ++ nameOf .carrier x.standby

/-- The records that the words of a carrier's DEFINE or EDIT name (R20). -/
def Carrier.placed (y : Carrier) : List RecordId :=
  nameOf .window y.window ++ nameOf .station (y.intent.map (·.1))

/-- The stations that a gallery's source map names. -/
def Gallery.mapped (g : Gallery) : List RecordId := g.sources.flatMap (nameOf .station)

/-- The records that a record names. -/
def State.names (s : State) (r : RecordId) : List RecordId :=
  match r.table with
  | .window | .operator | .unit => []
  | .carrier =>
    match s.carrier r.key with
    | none => []
    | some y =>
      y.placed ++ nameOf .station (y.bound.map (·.1)) ++ nameOf .carrier y.alternate
  | .station =>
    match s.station r.key with
    | none => []
    | some x => x.uses ++ x.stack.flatMap (fun e => e.source.names)
  | .gallery =>
    match s.gallery r.key with
    | none => []
    | some g =>
      nameOf .unit g.tallyUnit ++ nameOf .conference g.follow ++ g.mapped
  | .conference =>
    match s.conference r.key with
    | none => []
    | some c => c.members.flatMap (fun m => m.id.names) ++ c.waiting.map (fun k => ⟨.station, k⟩)
  | .part => nameOf .unit s.settings.matrixUnit

/-- The record exists: empty and Damaged slots hold no record (R180). -/
def State.holdsRecord (s : State) (r : RecordId) : Bool :=
  match r.table with
  | .window => (s.window r.key).isSome
  | .carrier => (s.carrier r.key).isSome
  | .station => (s.station r.key).isSome
  | .gallery => (s.gallery r.key).isSome
  | .conference => (s.conference r.key).isSome
  | .operator => r.key < 8
  | .unit => 1 ≤ r.key && r.key ≤ 32
  | .part => r.key = 0

/-- Every record of the record memory. -/
def State.allRecords (s : State) : List RecordId :=
  s.windows.keys.map (⟨.window, ·⟩) ++ s.carriers.keys.map (⟨.carrier, ·⟩) ++ s.stations.keys.map (⟨.station, ·⟩) ++
    s.galleries.keys.map (⟨.gallery, ·⟩) ++ s.conferences.keys.map (⟨.conference, ·⟩) ++
    (List.range 8).map (⟨.operator, ·⟩) ++ (upTo 32).map (⟨.unit, ·⟩) ++ [⟨.part, 0⟩]

/-- The records that a block learns of from a record that it reads: none from a damaged one, whose contents it does not use
(R180). -/
def State.namesSeen (s : State) (r : RecordId) : List RecordId := if s.badCodes.contains r then [] else s.names r

/-- A record is one relation away from one that has been read: that one names it, or is named by it. -/
def State.linked (s : State) (a b : RecordId) : Bool := (s.namesSeen a).contains b || (s.names b).contains a

/-- A record is one of some records, or one relation away from one of them. -/
def State.near (s : State) (roots : List RecordId) (r : RecordId) : Bool :=
  roots.contains r || roots.any (fun q => s.linked q r)

/-- A record is at most two relations away from one of some records. -/
def State.around (s : State) (roots : List RecordId) (r : RecordId) : Bool :=
  s.near roots r || s.allRecords.any (fun m => s.near roots m && s.linked m r)

/-- What an order that changes records reads before its tests (log 5): the operator, the Part record, the target, and the
records at most two relations away from the target. What its cascade touches, uses or searches beyond them is read by
State.touching. -/
def State.orderReads (s : State) (o : Order) (targets : List RecordId) (r : RecordId) : Bool :=
  r = ⟨.operator, o.operator.val⟩ || r = ⟨.part, 0⟩ || s.around targets r

/-! ## Activities (11.2) -/

/-- The activity words of the Fault Snapshot. -/
def Activity.check : Nat := 1
def Activity.item : Nat := 2
def Activity.timer : Nat := 3
def Activity.notice : Nat := 4
def Activity.directive : Nat := 5
def Activity.save : Nat := 6

/-- The activity word of an order. -/
def Activity.order (table : TableId) (verb : Nat) : Nat := 0x8000 + 256 * table.selector + verb

/-! ## Damaged records met by a read (R180) -/

/-- The first record with a failing check code among those that an activity reads. In Fault Handling the record under
quarantine is read by none: every relation treats it as retired (R181). In Halted no read fails, a RESTART's read of its
operator and of the stations included, and the contents are used as they stand: R183 and R178 give no effect of a failed
read there, and this is the model's choice (log 41). -/
def State.firstBad (s : State) (reads : RecordId → Bool) : Option RecordId :=
  if s.service = .halted then none
  else s.badCodes.find? (fun r => s.holdsRecord r && s.quarantined != some r && reads r)

/-! ## A save that goes on (R175, R176) -/

/-- A read of this record fails. -/
def State.readFails (s : State) (r : RecordId) : Bool := (s.firstBad (fun q => q = r)).isSome

/-- A save writes up to so many further records, and stops before a damaged one. -/
def State.saveReaches (s : State) (n : Nat) : State :=
  s.saveThrough ((s.saveLeft.take n).takeWhile (fun p => !s.readFails p.1))

/-- A running save has gone on before what it writes changes: a record is about to be damaged, to be put under quarantine,
or to be quarantined. How far it has come is a free value (log 8). -/
def State.saveGoesOn (s : State) : State :=
  if s.saving then { s.saveReaches (Config.saveReach s.draws) with draws := s.draws + 1 } else s

/-- No save is running, and none has written a record. -/
def State.saveOver (s : State) : State := { s with saving := false, savePlace := 0, saveWritten := [] }

/-- The writes that a save which is cut short has made: at least so many, those of the records that it has written, and
not the last (R176). -/
def State.writesMade (s : State) (n : Nat) : List (Nat × Word) :=
  s.saveWrites.take (min (max n (if s.savePlace = 0 then 1 else s.saveWritten.length + 2)) (s.saveWrites.length - 1))

/-- The save ends where its transfers have come to (R176): address 0 stays 0x0000. How far it had come is a free value
(log 8). -/
def State.abandonSave (s : State) : State :=
  if s.saving then
    { s.saveOver with
      store := (s.store.write 0 0#16).writeAll (s.writesMade (Config.saveProgress s.draws))
      draws := s.draws + 1 }
  else s

/-- The effects of a later failed write (R176). -/
def State.saveLost (s : State) : State :=
  State.latchStore { s.saveOver with storeStates := StoreStates.changed, storeOutcome := 4 }

/-! ## Check failures (R180, R181, R183) -/

/-- An order that is being processed is answered NOT IN SERVICE (R181, R183). -/
def State.answerBroken (s : State) (detail : Nat) : State :=
  match s.port with
  | .processing key => { s with port := .pending ⟨.notInService, detail, key, []⟩ }
  | .idle | .pending _ => s

/-- The snapshot that a check failure in Halted leaves, or one that halts the part (R183): the fault whose handling was
under way is kept. A part that a failed memory test has halted was handling none. -/
def State.haltSnapshot (s : State) (found : Snapshot) : Option Snapshot :=
  match s.service with
  | .faultHandling => s.snapshot
  | .halted => if s.startCode = 6 then some found else some (s.snapshot.getD found)
  | .starting | .inService => some found

/-- The part enters Halted, or a check failure is found in it (R183). -/
def State.halt (s : State) (r : RecordId) (activity : Nat) : State :=
  let t := if s.saving then s.abandonSave.saveLost else s
  State.latchFault
    (State.answerBroken
      { t with
        service := .halted
        load := .none
        line := none
        snapshot := s.haltSnapshot ⟨r, activity⟩ }
      3)

/-- The part enters Fault Handling (R181): a check in flight is abandoned, its candidate stays under the engine (R46);
a RELOAD PLAN that waits for the line has no effect. A running save has gone on before it. -/
def State.beginFault (s : State) (r : RecordId) (activity : Nat) : State :=
  State.latchFault
    (State.answerBroken { s.saveGoesOn with service := .faultHandling, load := .none, snapshot := some ⟨r, activity⟩ } 2)

/-- A check failure (R180). -/
def State.checkFailure (s : State) (r : RecordId) (activity : Nat) : State :=
  if r.table != .part && s.service = .inService && !s.tablesDown then s.beginFault r activity
  else s.halt r activity

/-- Do an activity: read its records, then take its effect; a read that fails is a check failure instead. -/
def State.reading (s : State) (activity : Nat) (reads : RecordId → Bool) (effect : State → State) : State :=
  match s.firstBad reads with
  | some r => s.checkFailure r activity
  | none => effect s

/-- What writes the Part record reads it first. -/
def State.readingPart (s : State) (activity : Nat) (effect : State → State) : State :=
  s.reading activity (fun r => r = ⟨.part, 0⟩) effect

/-! ## The record under quarantine (R181, R182) -/

/-- A record as the other activities see it while it is under quarantine: its slot is Damaged; a Unit record is Absent. -/
def State.veil (s : State) (r : RecordId) : State :=
  match r.table with
  | .window => { s with windows := s.windows.damage r.key [] }
  | .carrier => { s with carriers := s.carriers.damage r.key [] }
  | .station => { s with stations := s.stations.damage r.key [] }
  | .gallery => { s with galleries := s.galleries.damage r.key [] }
  | .conference => { s with conferences := s.conferences.damage r.key [] }
  | .unit => s.modUnit r.key (fun _ => LineUnit.reset)
  | .operator | .part => s

/-- The record under quarantine is left as it stood in s. -/
def State.unveil (t s : State) (r : RecordId) : State :=
  match r.table with
  | .window => { t with windows := t.windows.copySlot s.windows r.key }
  | .carrier => { t with carriers := t.carriers.copySlot s.carriers r.key }
  | .station => { t with stations := t.stations.copySlot s.stations r.key }
  | .gallery => { t with galleries := t.galleries.copySlot s.galleries r.key }
  | .conference => { t with conferences := t.conferences.copySlot s.conferences r.key }
  | .unit => match s.unitAt r.key with | some u => t.modUnit r.key (fun _ => u) | none => t
  | .operator | .part => t

/-- Do an activity beside the record under quarantine: in Fault Handling, report items, timers and the line go on, and they
neither read nor write that record; its slot counts as Damaged already (R181; log 5). -/
def State.beside (s : State) (f : State → State) : State :=
  match s.quarantined with
  | some r => (f (s.veil r)).unveil s r
  | none => f s

/-! ## The records that a cascade touches (R180, R181) -/

/-- The entries of the Directive Queue that deliver a record's states, or that go to a unit. -/
def State.entriesOf (s : State) (r : RecordId) : List Entry :=
  match r.table with
  | .unit => s.queue.filter (fun e => e.unit = r.key)
  | t => s.queue.filter (fun e => e.kind.table = t && e.target = r.key)

/-- From s to t a record is touched: some field of it, or an entry of the Directive Queue that its fields show, is
another. -/
def State.touches (s t : State) (r : RecordId) : Bool :=
  (match r.table with
    | .window => s.windows.slot r.key != t.windows.slot r.key
    | .carrier => s.carriers.slot r.key != t.carriers.slot r.key
    | .station => s.stations.slot r.key != t.stations.slot r.key
    | .gallery => s.galleries.slot r.key != t.galleries.slot r.key
    | .conference => s.conferences.slot r.key != t.conferences.slot r.key
    | .operator => s.operatorAt r.key != t.operatorAt r.key
    | .unit => s.unitAt r.key != t.unitAt r.key
    | .part =>
      s.settings != t.settings || s.freezeHolder != t.freezeHolder || s.storeStates != t.storeStates ||
        s.saving != t.saving || s.storeOutcome != t.storeOutcome) ||
    s.entriesOf r != t.entriesOf r

/-- The keys that hold a record in either of two tables. -/
def bothKeys {α : Type} (a b : Table α) : List Nat := a.keys ++ b.keys

/-- A table has lost the record of some key. -/
def Table.lost {α : Type} (a b : Table α) : Bool := a.keys.any (fun k => !b.keys.contains k)

/-- From s to t the queue was scanned (R152): an entry has left it, or a unit has become Present. -/
def State.scanned (s t : State) : Bool :=
  s.queue.any (fun e => !t.queue.any (fun x => x.has e.unit e.kind e.target)) ||
    (upTo 32).any (fun a => (t.unitAt a).map LineUnit.state = some .present &&
      (s.unitAt a).map LineUnit.state != some .present)

/-- From s to t a window has left Open, or Closing for Closed: the notices of R6 and R9 were given. -/
def State.windowsLeft (s t : State) : Bool :=
  s.windows.records.any (fun p =>
    let now := (t.window p.1).map Window.state
    match p.2.state with
    | .opened => now != some .opened
    | .closing => now = some .closed || now.isNone
    | .closed => false)

/-- From s to t what a derivation reads of a gallery has changed (R79). -/
def State.tallyMoved (s t : State) : Bool :=
  (bothKeys s.galleries t.galleries).any (fun g =>
    (s.gallery g).map (fun x => (x.live, x.program, x.preview, x.sources)) !=
      (t.gallery g).map (fun x => (x.live, x.program, x.preview, x.sources)))

/-- From s to t a follow field has changed (R109); a gallery that is not there follows into none. -/
def State.followMoved (s t : State) : Bool :=
  (bothKeys s.galleries t.galleries).any (fun g => (s.gallery g).bind Gallery.follow != (t.gallery g).bind Gallery.follow)

/-- From s to t a pair or the contributing galleries of a station have changed (R108, R110). -/
def State.pairsMoved (s t : State) : Bool :=
  (bothKeys s.stations t.stations).any (fun k =>
    (s.station k).map (fun x => (x.pair, x.contributing)) != (t.station k).map (fun x => (x.pair, x.contributing)))

/-- From s to t a station has become present or absent (R105). -/
def State.presenceMoved (s t : State) : Bool :=
  (bothKeys s.stations t.stations).any (fun k =>
    (s.station k).map (fun x => x.link.deliverable) != (t.station k).map (fun x => x.link.deliverable))

/-- From s to t a unit has changed its state, or another unit is the TKM unit. -/
def State.unitsMoved (s t : State) : Bool :=
  s.units.map LineUnit.state != t.units.map LineUnit.state || s.settings.matrixUnit != t.settings.matrixUnit

/-- From s to t these beltpacks have left the wait list of a conference that stays: their due reasons were found (R106,
R107). -/
def State.waitServed (s t : State) : List Nat :=
  s.conferences.records.flatMap (fun q =>
    match t.conference q.1 with
    | some c => q.2.waiting.filter (fun p => !c.waiting.contains p)
    | none => [])

/-- The cascade from s to t searched a table: it tested every record of it, those that it left as they were too. -/
def State.searched (s t : State) (table : TableId) : Bool :=
  match table with
  | .window => s.windowsLeft t
  | .carrier => s.windowsLeft t || s.windows.lost t.windows || s.carriers.lost t.carriers || s.stations.lost t.stations
  | .station =>
    s.scanned t || s.windowsLeft t || s.carriers.lost t.carriers || s.stations.lost t.stations || s.followMoved t ||
      s.unitsMoved t
  | .gallery =>
    s.tallyMoved t || s.followMoved t || s.pairsMoved t || s.stations.lost t.stations ||
      s.conferences.lost t.conferences || s.unitsMoved t || !(s.waitServed t).isEmpty
  | .conference =>
    s.scanned t || s.presenceMoved t || s.followMoved t || s.pairsMoved t || s.stations.lost t.stations || s.unitsMoved t
  | .operator | .unit | .part => false

/-- What the work on the station at a key goes by; a damaged record shows nothing of it (R180). -/
def State.stationUses (s : State) (k : Nat) : List RecordId :=
  if s.badCodes.contains ⟨.station, k⟩ then [] else ((s.station k).map Station.uses).getD []

/-- A station's wanted cue route; none where it has no cue. -/
def State.routeWanted (s : State) (k : Nat) : Option (Option Source) :=
  ((s.station k).filter (·.kind.hasCue)).map Station.cueRoute

/-- The scan of the queue from s asks a unit whether it is Present: a Waiting delivery without an entry, of a record that is
not damaged, goes to it (R152). -/
def State.scanAsks (s : State) (a : Nat) : Bool :=
  deliveryKeys.any (fun p =>
    match s.delivery p.1 p.2 with
    | some d =>
      d.base = .waiting && d.destination = some a && (s.entryOf d p.1 p.2).isNone &&
        !s.badCodes.contains ⟨p.1.table, p.2⟩
    | none => false)

/-- The cascade from s to t used a unit's record: a delivery to it was decided (R150, R153, R154) or scanned (R152). The
deliveries of a touched station go to a unit of its State.stationUses. -/
def State.unitUsed (s t : State) (a : Nat) : Bool :=
  (t.settings.matrixUnit = some a &&
    (s.settings.matrixUnit != t.settings.matrixUnit ||
      (bothKeys s.conferences t.conferences).any (fun c => s.touches t ⟨.conference, c⟩) ||
      (bothKeys s.stations t.stations).any (fun k => s.routeWanted k != t.routeWanted k))) ||
    t.finals.any (fun f => !s.finals.contains f && t.finalDestination f = some a) ||
    (s.scanned t && s.scanAsks a)

/-- The cascade from s to t used a record beside one that it touched: one that a touched station goes by, a unit that a
delivery goes to, or a beltpack of a served wait list and its Camera (R87, R106, R107, R150). -/
def State.used (s t : State) (r : RecordId) : Bool :=
  (bothKeys s.stations t.stations).any (fun k =>
    s.touches t ⟨.station, k⟩ && ((s.stationUses k).contains r || (t.stationUses k).contains r)) ||
    (s.waitServed t).any (fun p => r = ⟨.station, p⟩ || (r.table = .station && (s.stationUses p).contains r)) ||
    (r.table = .unit && s.unitUsed t r.key)

/-- What an activity reads besides the records it starts from: those that its cascade touches, those that it uses beside
them, and every record of a table that it searches. -/
def State.cascadeReads (s t : State) (r : RecordId) : Bool := s.touches t r || s.used t r || s.searched t r.table

/-- The committed carriers other than X, by ascending number. -/
def State.committedSet (s : State) (x : Nat) : List (Nat × Carrier) :=
  s.carriers.records.filter (fun p => p.2.state.committed && p.1 != x)

/-- What the window stage of a candidate reads (R33): the candidate, and the window that it names. -/
def State.windowStageReads (s : State) (c : Nat) (r : RecordId) : Bool :=
  r = ⟨.carrier, c⟩ || (r.table = .window && (s.namesSeen ⟨.carrier, c⟩).contains r)

/-- What a check reads (R33 to R36): the candidate with its neighbours, every carrier, for the committed ones among them
are found by their states, and the Part record. -/
def State.checkReads (s : State) (c : Nat) (r : RecordId) : Bool :=
  r = ⟨.part, 0⟩ || s.near [⟨.carrier, c⟩] r || r.table = .carrier

/-- The engine has looked for a candidate (R32): the check that has begun reads its records; and where none was found, every
carrier was tested for restore pending. A read that fails is a check failure of the engine's own. -/
def State.checkBegun (s : State) : State :=
  if s.service = .inService && !s.tablesDown then
    match s.engine with
    | none => s.reading Activity.check (fun r => r.table = .carrier) id
    | some k => s.reading Activity.check (s.checkReads k.carrier) id
  else s

/-- Take an effect whose cascade reads every record that it touches, uses or searches, and the further ones that more names,
before it changes any (R181); a check that it begins reads after it. With no damaged record this is the effect. -/
def State.touchingWith (s : State) (activity : Nat) (more : State → RecordId → Bool) (effect : State → State) : State :=
  if s.badCodes.isEmpty then effect s
  else
    match s.firstBad (fun r => s.cascadeReads (effect s) r || more s r) with
    | some r => s.checkFailure r activity
    | none => if (effect s).engine = s.engine then effect s else (effect s).checkBegun

/-- Take an effect whose cascade reads nothing further. -/
def State.touching (s : State) (activity : Nat) (effect : State → State) : State :=
  s.touchingWith activity (fun _ _ => false) effect

/-- Do an activity with its cascade. -/
def State.acting (s : State) (activity : Nat) (reads : RecordId → Bool) (effect : State → State) : State :=
  s.reading activity reads (·.touching activity effect)

/-! ## The taking of an order (R160, R162, R163) -/

/-- The service state that refuses an order (R163). -/
def State.serviceDetail (s : State) : Option Nat :=
  match s.service with
  | .starting => some 1
  | .inService => none
  | .faultHandling => some 2
  | .halted => some 3

/-- A write transaction carries 0x00 on MISO throughout (R159). -/
def State.clockZeros (s : State) (n : Nat) : State := { s with miso := List.replicate n 0#8 }

/-- The order is being processed (R160). -/
def State.process (s : State) (o : Order) : State := { s with port := .processing o.key }

/-- The Control Port takes an order. A busy port discards it (R160); then come the tests Length, Count and service
state, the reads, the order's own tests, and what an accepted order does. The whole read set of the order is read before
its first test, the right among them: the model's choice (log 5), so that an order that its tests refuse finds a damaged
record near its target too. -/
def State.gate (s : State) (o : Order) (activity : Nat) (countOk : Bool) (service : Option Nat)
    (reads : RecordId → Bool) (tests : List Check1) (accept : State → State) : State :=
  let t := s.clockZeros (9 + 2 * o.params.length)
  match s.port with
  | .processing _ | .pending _ => t.latchOverrun
  | .idle =>
    if 16 < o.params.length then t.refuse o ⟨.malformed, 2, []⟩
    else if !countOk then t.refuse o ⟨.malformed, 7, []⟩
    else
      match service with
      | some d => t.refuse o ⟨.notInService, d, []⟩
      | none =>
        (t.process o).reading activity reads (fun t =>
          match firstFailing tests with
          | some r => t.refuse o r
          | none => accept t)

/-- An order whose answer is ready with its effects; its cascade reads what it touches, and the further records that more
names, before anything changes (R181). -/
def State.takeOrderWith (s : State) (o : Order) (activity : Nat) (countOk : Bool) (reads : RecordId → Bool)
    (tests : List Check1) (more : State → RecordId → Bool) (effect : State → State × Reply) : State :=
  s.gate o activity countOk s.serviceDetail reads tests
    (·.touchingWith activity more (fun t => (effect t).1.answer (effect t).2))

/-- An order whose cascade reads nothing further. -/
def State.takeOrder (s : State) (o : Order) (activity : Nat) (countOk : Bool) (reads : RecordId → Bool)
    (tests : List Check1) (effect : State → State × Reply) : State :=
  s.takeOrderWith o activity countOk reads tests (fun _ _ => false) effect

end Sys2Proof.Machine
end

