-- ==== Sys2Proof/Machine/Conference.lean ====
section
/-! DEFINITION. The Conference Unit: routing, presence, talk slots, follow membership and wait lists (chapter 5). -/

namespace Sys2Proof.Machine

/-! ## Routing (R112) -/

/-- The routing that the lists give: the present members with their rights, and the talkers. -/
def Conference.routed (c : Conference) : Routing where
  members := (c.members.filter (fun m => !m.absent)).map (fun m => ⟨m.id, m.listen, m.talk⟩)
  talkers := c.talkers

/-- Recompute the wanted routing, and hand it on when it differs (R112). -/
def State.recomputeRouting (s : State) (c : Nat) : State :=
  match s.conference c with
  | none => s
  | some x =>
    if x.routed = x.routing then s
    else (s.modConference c (fun x => { x with routing := x.routed })).hand .routing c

/-! ## Presence (R105) -/

/-- An entry of this identity is absent now: its station's link is Parked, Tuning or Lost. -/
def State.absentNow (s : State) (id : Source) : Bool :=
  match id with
  | .station k => match s.station k with | some x => !x.link.deliverable | none => true
  | .port _ | .operator _ => false

/-- Set the absent flag of a station's entries; a talker that becomes absent leaves the talker list (R103, R105). -/
def Conference.setAbsent (x : Conference) (id : Source) (absent : Bool) : Conference :=
  { x with
    members := x.members.map (fun m => if m.id = id then { m with absent := absent } else m)
    talkers := if absent then x.talkers.filter (· != id) else x.talkers }

/-- The link of a station has entered or left Up, Weak and Switching (R105): its entries in every conference, by ascending
number, the model's choice (log 14). -/
def State.presenceNotice (s : State) (k : Nat) (absent : Bool) : State :=
  s.forEach (upTo 24) (fun s c =>
    match s.conference c with
    | none => s
    | some x =>
      if x.members.any (fun m => m.id = .station k) then
        (s.modConference c (fun x => x.setAbsent (.station k) absent)).recomputeRouting c
      else s)

/-! ## Follow membership (R106, R107) -/

/-- During a follow notice a gallery is read as following into its new conference (R109). -/
abbrev FollowOverride := Option (Nat × Option Nat)

/-- The follow conference of a gallery as it is read. -/
def State.followOf (s : State) (ov : FollowOverride) (g : Nat) : Option Nat :=
  match ov with
  | some (h, c) => if g = h then c else (s.gallery g).bind Gallery.follow
  | none => (s.gallery g).bind Gallery.follow

/-- The Camera that a Beltpack's pair names. -/
def State.cameraOf (s : State) (p : Nat) : Option (Nat × Station) :=
  match s.station p with
  | some x =>
    match x.kind, x.pair with
    | .beltpack, some k =>
      match s.station k with
      | some y => if y.kind = .camera then some (k, y) else none
      | none => none
    | _, _ => none
  | none => none

/-- The Beltpack that a Camera's pair names. -/
def State.beltpackOf (s : State) (k : Nat) : Option Nat :=
  match s.station k with
  | some x => if x.kind = .camera then x.pair else none
  | none => none

/-- The due reasons of a station in a conference (R106). -/
def State.dueReasons (s : State) (ov : FollowOverride) (p c : Nat) : List Nat :=
  match s.cameraOf p with
  | none => []
  | some (_, y) =>
    (upTo 8).filter (fun g => (s.gallery g).isSome && s.followOf ov g = some c && y.contributing.contains g)

/-- A Follow member as it joins: Listen and Talk, priority 0 (R106). -/
def State.followMember (s : State) (p : Nat) (reasons : List Nat) : Member :=
  ⟨.station p, true, true, 0, .follow, reasons, s.absentNow (.station p)⟩

/-- Serve the wait list (R107): the oldest entry with due reasons joins; entries without are dropped. silent: the
leaving was caused by an order aimed at the conference, so a join adds no reason. -/
def serveList (ov : FollowOverride) (silent : Bool) (c : Nat) : List Nat → State → State
  | [], s => s
  | p :: rest, s =>
    let t := s.modConference c (fun x => { x with waiting := rest })
    match t.dueReasons ov p c with
    | [] => serveList ov silent c rest (t.markConference c ConferenceReason.followLeft)
    | g :: gs =>
      let m := t.followMember p (g :: gs)
      let u := t.modConference c (fun x => { x with members := x.members ++ [m] })
      if silent then u else u.markConference c ConferenceReason.followJoined

/-- A member has left a conference: serve its wait list once (R107). -/
def State.serveWaitList (s : State) (ov : FollowOverride) (silent : Bool) (c : Nat) : State :=
  match s.conference c with
  | none => s
  | some x => serveList ov silent c x.waiting s

/-- Take an identity out of the member and talker lists. -/
def Conference.dropMember (x : Conference) (id : Source) : Conference :=
  { x with members := x.members.filter (fun m => m.id != id), talkers := x.talkers.filter (· != id) }

/-- How a station stands in a conference (R106). -/
inductive Standing where
  | fixed | follow | waits | out
  deriving DecidableEq, Repr

/-- The standing of a station in a conference. -/
def Conference.standing (x : Conference) (p : Nat) : Standing :=
  match x.members.find? (fun m => m.id = .station p) with
  | some m => match m.join with | .fixed => .fixed | .follow => .follow
  | none => if x.waiting.contains p then .waits else .out

/-- A station without due reasons, not a Fixed member: a Follow member leaves, a waiting one is dropped (R106). -/
def State.followLeaves (s : State) (ov : FollowOverride) (p c : Nat) (st : Standing) : State :=
  match st with
  | .fixed | .out => s
  | .follow =>
    let t := (s.modConference c (fun x => x.dropMember (.station p))).markConference c ConferenceReason.followLeft
    (t.serveWaitList ov false c).recomputeRouting c
  | .waits =>
    (s.modConference c (fun x => { x with waiting := x.waiting.filter (· != p) })).markConference c
      ConferenceReason.followLeft

/-- A station with due reasons, not a Fixed member: it keeps its place, joins, waits or is denied (R106). -/
def State.followJoins (s : State) (p c : Nat) (x : Conference) (due : List Nat) (st : Standing) : State :=
  match st with
  | .fixed | .waits => s
  | .follow =>
    s.modConference c (fun x =>
      { x with members := x.members.map (fun m => if m.id = .station p then { m with reasons := due } else m) })
  | .out =>
    if x.members.length < Config.memberMax then
      let m := s.followMember p due
      let t := s.modConference c (fun x => { x with members := x.members ++ [m] })
      (t.markConference c ConferenceReason.followJoined).recomputeRouting c
    else if x.waiting.length < Config.waitMax then
      (s.modConference c (fun x => { x with waiting := x.waiting ++ [p] })).markConference c
        ConferenceReason.followWaiting
    else s.markStation p StationReason.followDenied

/-- The recompute of station P in conference C (R106). -/
def State.recomputeFollow (s : State) (ov : FollowOverride) (p c : Nat) : State :=
  match s.conference c with
  | none => s
  | some x =>
    let due := s.dueReasons ov p c
    if due.isEmpty then s.followLeaves ov p c (x.standing p) else s.followJoins p c x due (x.standing p)

/-- The contribution notice (R108): the galleries are those gained and lost. -/
def State.contributionNotice (s : State) (k : Nat) (galleries : List Nat) : State :=
  match s.beltpackOf k with
  | none => s
  | some p =>
    s.forEach (upTo 24) (fun s c =>
      if galleries.any (fun g => s.followOf none g = some c) then s.recomputeFollow none p c else s)

/-- The follow notice (R109). -/
def State.followNotice (s : State) (g : Nat) (old new : Option Nat) : State :=
  if old = new then s
  else
    s.forEach (upTo 96) (fun s k =>
      match s.station k, s.beltpackOf k with
      | some y, some p =>
        if y.contributing.contains g then
          let t := match old with | some c => s.recomputeFollow (some (g, new)) p c | none => s
          match new with | some c => t.recomputeFollow (some (g, new)) p c | none => t
        else s
      | _, _ => s)

/-- Recompute a beltpack wherever it is a Follow member or waits (R110, R111), and in the conferences that a test
picks. -/
def State.recomputeEverywhere (s : State) (ov : FollowOverride) (p : Nat) (also : State → Nat → Bool) : State :=
  s.forEach (upTo 24) (fun s c =>
    match s.conference c with
    | none => s
    | some x =>
      if x.standing p = .follow || x.standing p = .waits || also s c then s.recomputeFollow ov p c else s)

/-- The pair notice for Camera K, its old and its new Beltpack (R110). The old one is recomputed first, in every
conference: R110 gives no order of the two, and with a full wait list the order shows; it is the model's choice (log
14). -/
def State.pairNotice (s : State) (k : Nat) (old new : Option Nat) : State :=
  let galleries := match s.station k with | some y => y.contributing | none => []
  let also := fun (s : State) (c : Nat) => galleries.any (fun g => s.followOf none g = some c)
  let t := match old with | some p => s.recomputeEverywhere none p also | none => s
  match new with | some p => t.recomputeEverywhere none p also | none => t

/-! ## Talk slots (R102 to R104) -/

/-- The priority of a member, 0 for none. -/
def Conference.priorityOf (x : Conference) (id : Source) : Nat :=
  match x.members.find? (fun m => m.id = id) with
  | some m => m.priority
  | none => 0

/-- The lowest priority among the talkers. -/
def Conference.lowestTalker (x : Conference) : Nat := x.talkers.foldl (fun a t => min a (x.priorityOf t)) 3

/-- A Talk press (R102): discarded, no change, appended, pre-empting, or refused. -/
def State.talkPress (s : State) (c : Nat) (id : Source) : State :=
  match s.conference c with
  | none => s
  | some x =>
    match x.members.find? (fun m => m.id = id) with
    | none => s
    | some m =>
      if !m.talk || m.absent || x.talkers.contains id then s
      else if x.talkers.length < Config.talkerMax then
        (s.modConference c (fun x => { x with talkers := x.talkers ++ [id] })).recomputeRouting c
      else if x.lowestTalker < m.priority then
        match x.talkers.find? (fun t => x.priorityOf t = x.lowestTalker) with
        | none => s
        | some oldest =>
          let t := s.modConference c (fun x => { x with talkers := x.talkers.erase oldest ++ [id] })
          (t.markConference c ConferenceReason.preempted).recomputeRouting c
      else s.markConference c ConferenceReason.talkBusy

/-- A Talk release (R103). -/
def State.talkRelease (s : State) (c : Nat) (id : Source) : State :=
  match s.conference c with
  | none => s
  | some x =>
    if x.talkers.contains id then
      (s.modConference c (fun x => { x with talkers := x.talkers.erase id })).recomputeRouting c
    else s

/-- Empty every talker list: loss of the TKM unit, LINE RESET, SET MATRIX UNIT (R104, R154). -/
def State.dropTalkers (s : State) : State :=
  s.forEach (upTo 24) (fun s c =>
    match s.conference c with
    | none => s
    | some x =>
      if x.talkers.isEmpty then s
      else
        ((s.modConference c (fun x => { x with talkers := [] })).markConference c
          ConferenceReason.talkersDropped).recomputeRouting c)

/-! ## A station leaves every conference (R111) -/

/-- Remove a retired or damaged station from one conference: its member entries, talk slot and wait place; each place
freed serves the wait list. fixedChanges: a Fixed entry that a retirement by order removes makes the store state
Changed. -/
def State.stationLeaves (s : State) (k c : Nat) (byOrder : Bool) : State :=
  match s.conference c with
  | none => s
  | some x =>
    let gone := x.members.filter (fun m => m.id = .station k)
    if gone.isEmpty && !x.waiting.contains k then s
    else
      let t := s.modConference c (fun x =>
        { x.dropMember (.station k) with waiting := x.waiting.filter (· != k) })
      let t := t.markConference c ConferenceReason.memberGone
      let t := if byOrder && gone.any (fun m => m.join = .fixed) then t.conferenceChanged else t
      (t.forEach gone (fun t _ => t.serveWaitList none false c)).recomputeRouting c

/-- Remove a retired or damaged station from every conference. -/
def State.stationLeavesAll (s : State) (k : Nat) (byOrder : Bool) : State :=
  s.forEach (upTo 24) (fun s c => s.stationLeaves k c byOrder)

end Sys2Proof.Machine
end

