-- ==== Sys2Proof/Machine/Tally.lean ====
section
/-! DEFINITION. The Tally Unit: derivation, wanted lamps, calls, and galleries changed by other events (chapter 4). -/

namespace Sys2Proof.Machine

/-! ## Derivation (R79, R80) -/

/-- A station is reached by a set of sources through a gallery's map. -/
def Gallery.reaches (g : Gallery) (set : List Nat) (k : Nat) : Bool := set.any (fun n => g.stationOf n = some k)

/-- The galleries in which a station is on program or on preview (R79). -/
def State.contributingOf (s : State) (k : Nat) : List Nat :=
  (upTo 8).filter (fun g => match s.gallery g with | some x => x.reaches (x.program ++ x.preview) k | none => false)

/-- The derived tally of a station (R79). -/
def State.tallyOf (s : State) (k : Nat) : Tally :=
  let gs := s.galleries.records.map (·.2)
  if gs.any (fun g => g.live && g.reaches g.program k) then .live
  else if gs.any (fun g => g.reaches g.program k) then .rehearse
  else if gs.any (fun g => g.reaches g.preview k) then .preview
  else .off

/-! ## Lamps (R87, R88) -/

/-- A station has a current cue (R116). -/
def Station.cued (x : Station) : Bool := !x.stack.isEmpty

/-- The wanted lamp that tally, cues and calls give (R87). -/
def State.lampOf (s : State) (k : Nat) : Option Lamp :=
  match s.station k with
  | none => none
  | some x =>
    if x.kind.hasLamp then
      let partner := x.pair.bind s.station
      let level := match x.kind with
        | .camera => x.tally
        | _ => match partner with | some y => y.tally | none => .off
      some ⟨level, x.cued || (match partner with | some y => y.cued | none => false),
        x.call.isSome || (match partner with | some y => y.call.isSome | none => false)⟩
    else none

/-- Recompute a wanted lamp; when it differs it is set, and handed on while the lamp is deliverable (R87). -/
def State.recomputeLamp (s : State) (k : Nat) : State :=
  match s.station k with
  | none => s
  | some x =>
    let l := s.lampOf k
    if l = x.lamp then s else (s.modStation k (fun x => { x with lamp := l })).hand .lamp k

/-- Recompute the wanted lamps of a station and of the station its pair names (R90 to R92, R124). No rule says which of the
two is handed first; the station before its partner is the model's choice (log 14). -/
def State.recomputeLamps (s : State) (k : Nat) : State :=
  match s.station k with
  | none => s
  | some x =>
    let t := s.recomputeLamp k
    match x.pair with | some p => t.recomputeLamp p | none => t

/-- The link has left the deliverable states (R88): the delivered lamp is Unknown; a Queued LAMP entry is removed and
a Sent one is detached. -/
def State.lampOff (s : State) (k : Nat) : State :=
  (s.modStation k (fun x => { x with deliveredLamp := none })).withdraw
    (fun e => e.kind = .lamp && e.target = k && !e.detached)

/-- The link has entered the deliverable states (R88): the wanted lamp is delivered as it stands. -/
def State.lampOn (s : State) (k : Nat) : State :=
  (s.modStation k (fun x => { x with deliveredLamp := none })).decideDelivery .lamp k

/-- What a derivation finds for a station: its new tally and contributing galleries. -/
structure Derived where
  key : Nat
  tally : Tally
  contributing : List Nat
  oldContributing : List Nat
  changed : Bool
  deriving DecidableEq, Repr

/-- Compute the derivation of one station. -/
def State.deriveOne (s : State) (k : Nat) : Option Derived :=
  (s.station k).map (fun x =>
    ⟨k, s.tallyOf k, s.contributingOf k, x.contributing,
      s.tallyOf k != x.tally || s.contributingOf k != x.contributing⟩)

/-- The acts after a derivation for one station that it changed (R80): the mark, the lamps, the contribution notice; the
lamps before the notice are the model's choice where R80 gives no order (log 14). -/
def State.derivedActs (s : State) (d : Derived) : State :=
  if d.changed then
    let t := (s.markStation d.key StationReason.tallyChanged).recomputeLamps d.key
    let delta := (upTo 8).filter (fun g => d.contributing.contains g != d.oldContributing.contains g)
    match t.station d.key with
    | some x => if x.kind = .camera && !delta.isEmpty then t.contributionNotice d.key delta else t
    | none => t
  else s

/-- A derivation of some stations, taken whole (R79): every new value first, then the acts of R80 in ascending station
number. -/
def State.derive (s : State) (ks : List Nat) : State :=
  let ds := (sortNat ks).filterMap s.deriveOne
  let t := s.forEach ds (fun s d => s.modStation d.key (fun x => { x with tally := d.tally, contributing := d.contributing }))
  t.forEach ds State.derivedActs

/-- The stations that a gallery's sets reach. -/
def Gallery.reached (g : Gallery) : List Nat := (g.program ++ g.preview).filterMap g.stationOf

/-! ## Galleries changed by other events -/

/-- Empty the live flag and sets of the galleries that a test picks; mark those that change; one derivation (R85). -/
def State.emptySets (s : State) (p : Gallery → Bool) : State :=
  let hit := s.galleries.records.filter (fun q => p q.2 && (q.2.live || !q.2.program.isEmpty || !q.2.preview.isEmpty))
  let reached := hit.flatMap (fun q => q.2.reached)
  let t := s.forEach hit (fun s q =>
    (s.modGallery q.1 (fun g => { g with live := false, program := [], preview := [] })).markGallery q.1
      GalleryReason.tallyLost)
  t.derive reached

/-- A station leaves every source map (R86): the entries become none, with reason Map Changed. -/
def State.unmapStation (s : State) (k : Nat) (byOrder : Bool) : State :=
  let hit := (s.galleries.records.filter (fun q => q.2.sources.contains (some k))).map (·.1)
  let t := s.forEach hit (fun s g =>
    (s.modGallery g (fun x => { x with sources := x.sources.map (fun e => if e = some k then none else e) })).markGallery
      g GalleryReason.mapChanged)
  if byOrder && !hit.isEmpty then t.galleryChanged else t

/-- A conference leaves every follow field (R86): none, with reason Follow Gone, and no follow notice. -/
def State.unfollow (s : State) (c : Nat) (byOrder : Bool) : State :=
  let hit := (s.galleries.records.filter (fun q => q.2.follow = some c)).map (·.1)
  let t := s.forEach hit (fun s g =>
    (s.modGallery g (fun x => { x with follow := none })).markGallery g GalleryReason.followGone)
  if byOrder && !hit.isEmpty then t.galleryChanged else t

/-! ## TALLY items (R78) -/

/-- A taken TALLY item replaces the live flag and the sets whole (R78). -/
def State.tallyItem (s : State) (g : Nat) (live : Bool) (program preview : List Nat) : State :=
  match s.gallery g with
  | none => s
  | some x =>
    let p := sortNat program
    let q := sortNat preview
    if x.live = live && x.program = p && x.preview = q then s
    else
      let y := { x with live := live, program := p, preview := q }
      let t := (s.modGallery g (fun x => { x with live := live, program := p, preview := q })).markGallery g
        GalleryReason.tallyReported
      t.derive (x.reached ++ y.reached)

/-! ## Calls (R90 to R92) -/

/-- Start a call on a station, of the kind its call mode gives (R90). -/
def State.startCall (s : State) (k : Nat) : State :=
  (s.modStation k (fun x =>
    { x with
      call := some x.callMode
      callRemaining := match x.callMode with | .single => some Config.callTime | .latched => none })).recomputeLamps k

/-- A call is held on a station. -/
def State.callHeld (s : State) (k : Nat) : Bool :=
  match s.station k with
  | some x => x.call.isSome
  | none => false

/-- End the call held on a station. -/
def State.endCall (s : State) (k : Nat) : State :=
  s.modStation k (fun x => { x with call := none, callRemaining := none })

/-- End the call held on a station, with a mark reason, if one is held. -/
def State.endCallMarked (s : State) (k reason : Nat) : State :=
  if s.callHeld k then (s.endCall k).markStation k reason else s

/-- The partner that a station's pair names. -/
def State.partnerOf (s : State) (k : Nat) : Option Nat := (s.station k).bind Station.pair

/-- A Call key press on a target (R92). -/
def State.callPress (s : State) (k : Nat) : State :=
  match s.station k with
  | some x => if x.kind.hasLamp then (s.startCall k).markStation k StationReason.called else s
  | none => s

/-- An Answer key press from a station (R92). -/
def State.answerPress (s : State) (k : Nat) : State :=
  match s.station k with
  | some x =>
    if x.kind = .beltpack then
      let t := s.endCallMarked k StationReason.callAnswered
      let t := match x.pair with | some p => t.endCallMarked p StationReason.callAnswered | none => t
      t.recomputeLamps k
    else s
  | none => s

/-! ## Pairs (R93) -/

/-- The pair field of some stations has changed (R93): their lamps are recomputed; a Camera with contributing
galleries gives the pair notice with its old and new Beltpack. The stations are taken in the order of the list, all lamps
before all pair notices: R93 and R110 give no order, and it is the model's choice (log 14). -/
def State.pairsChanged (s : State) (changes : List (Nat × Option Nat × Option Nat)) : State :=
  let t := s.forEach changes (fun s c => s.recomputeLamp c.1)
  t.forEach changes (fun s c =>
    match s.station c.1 with
    | some x => if x.kind = .camera && !x.contributing.isEmpty then s.pairNotice c.1 c.2.1 c.2.2 else s
    | none => s)

end Sys2Proof.Machine
end

