-- ==== Sys2Proof/Machine/Cue.lean ====
section
/-! DEFINITION. The Cue Unit: pushes, releases and the notices of a changed stack (chapter 6). A stack lists its bottom entry first. -/

namespace Sys2Proof.Machine

/-- The current entry's source (R116, R124). -/
def currentSource (stack : List CueEntry) : Option Source := stack.getLast?.map CueEntry.source

/-- Set a station's stack and accept, and give the notices of R124: the wanted cue route is handed on when it changes,
and the Tally Unit is told when the station gains or loses its current entry. R124 lets the two notices be taken in either
order; that the route is handed first, and so takes a last free place of the Directive Queue, is the model's choice (log
14). -/
def State.setStack (s : State) (k : Nat) (stack : List CueEntry) (accept : Bool) : State :=
  match s.station k with
  | none => s
  | some x =>
    let route := currentSource stack
    let t := s.modStation k (fun x => { x with stack := stack, accept := accept, cueRoute := route })
    let t := if route = x.cueRoute then t else t.hand .cueRoute k
    if stack.isEmpty = x.stack.isEmpty then t else t.recomputeLamps k

/-- A source holds an entry in a stack. -/
def holdsEntry (stack : List CueEntry) (src : Source) : Bool := stack.any (fun e => e.source = src)

/-- The stack and accept that a release from a source leaves (R119): the current entry is popped and accept restored;
a buried entry is removed and its saved accept passes upward. -/
def releaseFrom (stack : List CueEntry) (accept : Bool) (src : Source) : List CueEntry × Bool :=
  match stack with
  | [] => ([], accept)
  | [e] => if e.source = src then ([], e.saved) else ([e], accept)
  | b :: t :: rest =>
    if t.source = src then (b :: rest, t.saved)
    else if b.source = src then ({ t with saved := b.saved } :: rest, accept)
    else (b :: t :: rest, accept)

/-- A release from a source into a station's stack (R119). -/
def State.cueRelease (s : State) (k : Nat) (src : Source) : State :=
  match s.station k with
  | none => s
  | some x =>
    if holdsEntry x.stack src then
      let r := releaseFrom x.stack x.accept src
      s.setStack k r.1 r.2
    else s

/-- Push an entry on top of a stack (R116). -/
def State.cuePush (s : State) (k : Nat) (src : Source) (level : CueLevel) : State :=
  match s.station k with
  | none => s
  | some x => s.setStack k (x.stack ++ [⟨src, level, x.accept, s.settings.cueLimit * 1000⟩]) false

/-- What a press meets (R118). -/
inductive PressResult where
  | pushed | linkDown | repeated | declined | busy
  deriving DecidableEq, Repr

/-- A press against a station's stack (R118). -/
def pressResult (x : Station) (src : Source) (level : CueLevel) : PressResult :=
  if x.link.parkedOrLost then .linkDown
  else if holdsEntry x.stack src then .repeated
  else
    match x.stack, level with
    | [], .floor => if x.accept then .pushed else .declined
    | [], .director => .pushed
    | [e], .director => match e.level with | .floor => .pushed | .director => .busy
    | _, _ => .busy

/-- The level of a press after legalisation (R117): Director is honoured from a Director Port or operator 0. -/
def State.legalLevel (s : State) (src : Source) (level : CueLevel) : CueLevel :=
  match level, src with
  | .floor, _ => .floor
  | .director, .port p => if s.settings.directorPorts.contains p then .director else .floor
  | .director, .operator n => if n = 0 then .director else .floor
  | .director, .station _ => .floor

/-- A Cue KEY press (R117, R118). -/
def State.cueKeyPress (s : State) (k : Nat) (src : Source) (level : CueLevel) : State :=
  match s.station k with
  | none => s
  | some x =>
    match pressResult x src (s.legalLevel src level) with
    | .pushed => s.cuePush k src (s.legalLevel src level)
    | .repeated => s
    | .linkDown | .declined => s.markStation k StationReason.cueDeclined
    | .busy => s.markStation k StationReason.cueBusy

/-- A Cue KEY item (R117): an item whose source is no Beltpack, whose target has no stack, or whose source is its
target is discarded without a mark. -/
def State.cueKey (s : State) (k : Nat) (src : Source) (level : CueLevel) (press : Bool) : State :=
  let sourceFits := match src with
    | .station n => (match s.station n with | some y => y.kind = .beltpack | none => false)
    | .port _ => true
    | .operator _ => false
  let targetFits := match s.station k with | some x => x.kind.hasCue | none => false
  if sourceFits && targetFits && src != .station k then
    (if press then s.cueKeyPress k src level else s.cueRelease k src)
  else s

/-- Release the entries of a stack that a test picks, the top entry first (R123). -/
def State.releaseWhere (s : State) (k : Nat) (p : CueEntry → Bool) : State :=
  match s.station k with
  | none => s
  | some x => s.forEach (x.stack.reverse.filter p) (fun s e => s.cueRelease k e.source)

/-- Release every entry of a station's stack (R122, R123). -/
def State.releaseAllCues (s : State) (k : Nat) : State := s.releaseWhere k (fun _ => true)

/-- An entry whose source is a panel port or a station. -/
def CueEntry.fromKey (e : CueEntry) : Bool := match e.source with | .operator _ => false | _ => true

/-- Release the key entries of every stack, with reason Cue Dropped (R123). -/
def State.releaseKeyCues (s : State) : State :=
  s.forEach (upTo 96) (fun s k =>
    match s.station k with
    | some x =>
      if x.stack.any CueEntry.fromKey then
        (s.releaseWhere k CueEntry.fromKey).markStation k StationReason.cueDropped
      else s
    | none => s)

/-- Release the entries that a station was sourcing in other stacks, with reason Cue Source Gone (R125). -/
def State.releaseSourced (s : State) (src : Nat) : State :=
  s.forEach (upTo 96) (fun s k =>
    match s.station k with
    | some x =>
      if k != src && holdsEntry x.stack (.station src) then
        (s.cueRelease k (.station src)).markStation k StationReason.cueSourceGone
      else s
    | none => s)

/-- The notice given at the loss of the TKM unit, at LINE RESET and at SET MATRIX UNIT (R104, R123, R154): the talker lists
before the key entries, the model's choice where R146 and R156 allow either order (log 14). -/
def State.matrixLost (s : State) : State := s.dropTalkers.releaseKeyCues

end Sys2Proof.Machine
end

