-- ==== Sys2Proof/Machine/Link.lean ====
section
/-! DEFINITION. The Link Supervisor: tunes, links, switches, recovery runs, and windows closing under stations (chapter 3). -/

namespace Sys2Proof.Machine

/-! ## Notices and tunes -/

/-- The notices of a link change (R56): the lamp and the presence when the link enters or leaves Up, Weak and
Switching; the cue stack when it becomes Parked or Lost (R123). R56 lets them be taken in either order; Tally, then
Conference, then Cue is the model's choice (log 14). It shows in the order of the LAMP, ROUTING and CUE ROUTE entries of the
Directive Queue, and in who takes a last free place. -/
def State.linkNotices (s : State) (k : Nat) (old new : Link) : State :=
  let t :=
    if old.deliverable = new.deliverable then s
    else if new.deliverable then (s.lampOn k).presenceNotice k false
    else (s.lampOff k).presenceNotice k true
  if new.parkedOrLost then t.releaseAllCues k else t

/-- Set a station's link and give the notices of the change. -/
def State.setLink (s : State) (k : Nat) (new : Link) : State :=
  match s.station k with
  | none => s
  | some x => (s.modStation k (fun x => { x with link := new })).linkNotices k x.link new

/-- The token after a token (R57). -/
def nextToken (t : Nat) : Nat := (t + 1) % 256

/-- Want the transmitter on a carrier, with a new token (R57). awaited: a TUNED report is awaited, and the Tune Timeout
starts. -/
def State.tuneTo (s : State) (k c attempts : Nat) (awaited : Bool) : State :=
  match s.station k, s.carrier c with
  | some x, some y =>
    let token := nextToken x.token
    (s.modStation k (fun x =>
      { x with
        token := token
        attempts := attempts
        tuneTimer := if awaited then some 0 else none
        wanted := ⟨some y.frequency, y.cls, x.power, false, token⟩ })).hand .tune k
  | _, _ => s

/-- A switch with block outgoing set has not been made: the primary gets Block Abandoned (R27). -/
def State.blockAbandoned (s : State) (x : Station) : State :=
  match x.blockOutgoing, x.primary with
  | some true, some p => s.markCarrier p CarrierReason.blockAbandoned
  | _, _ => s

/-- Park a station (R63). -/
def State.parkStation (s : State) (k : Nat) : State :=
  match s.station k with
  | none => s
  | some x =>
    let t := (s.modStation k (fun x =>
      { x with
        wanted := { x.wanted with muted := true }
        attempts := 0
        tuneTimer := none
        watch := .off
        switchKind := none
        blockOutgoing := none
        quality := none
        qualityAge := none
        inhibit := false })).hand .tune k
    (t.blockAbandoned x).setLink k .parked

/-- Start the tune of GO LIVE, or a retune (R58, R60): the link becomes Tuning on the primary. -/
def State.startTune (s : State) (k : Nat) : State :=
  match (s.station k).bind Station.primary with
  | none => s
  | some p =>
    let t := s.tuneTo k p 1 true
    (t.modStation k (fun x => { x with quality := none, qualityAge := none, watch := .off })).setLink k .tuning

/-- A Done report ends Tuning (R59). -/
def State.tuneDone (s : State) (k : Nat) : State :=
  let t := s.modStation k (fun x => { x with attempts := 0, tuneTimer := none, watch := .running 0 })
  (t.setLink k .up).markStation k StationReason.tuned

/-- A tune has failed: parked as PARK does, with reason Tune Failed (R59). -/
def State.tuneFailed (s : State) (k : Nat) : State := (s.parkStation k).markStation k StationReason.tuneFailed

/-! ## Recovery (R70) -/

/-- The carrier's clean score is above the return level and its clean age at most Link Watch (R70). -/
def State.heardClean (s : State) (c : Nat) : Bool :=
  match s.carrier c with
  | some y =>
    match y.cleanScore, y.cleanAge with
    | some score, some age => s.settings.returnLevel < score && age ≤ s.settings.linkWatch
    | _, _ => false
  | none => false

/-- A carrier has become a station's Blocked standby: the recovery run begins at 0 if it is heard clean (R70). -/
def State.beginRecovery (s : State) (k c : Nat) : State :=
  s.modStation k (fun x => { x with recoveryRun := if s.heardClean c then some 0 else none })

/-- The recovery run of a station stops. -/
def State.stopRecovery (s : State) (k : Nat) : State := s.modStation k (fun x => { x with recoveryRun := none })

/-- The recovery run reaches Recovery Time (R70): the Blocked standby becomes Standby. -/
def State.recover (s : State) (k : Nat) : State :=
  match s.station k with
  | none => s
  | some x =>
    match x.recoveryRun, x.standby with
    | some _, some c =>
      let t := s.modCarrier c (fun y => { y with state := .standby, alternate := none })
      (t.markCarrier c CarrierReason.recovered).stopRecovery k
    | _, _ => s

/-! ## Switches (R64 to R69) -/

/-- A station's standby is in state Standby. -/
def State.usableStandby (s : State) (x : Station) : Bool :=
  match x.standby.bind s.carrier with
  | some y => y.state = .standby
  | none => false

/-- Start a switch to the standby (R64). -/
def State.startSwitch (s : State) (k : Nat) (kind : SwitchKind) (block : Bool) : State :=
  match (s.station k).bind Station.standby with
  | none => s
  | some c =>
    let t := s.modStation k (fun x => { x with switchKind := some kind, blockOutgoing := some block })
    (t.tuneTo k c 1 true).setLink k .switching

/-- A Done report ends a switch (R65): the carriers exchange slots. -/
def State.switchDone (s : State) (k : Nat) : State :=
  match s.station k with
  | none => s
  | some x =>
    match x.primary, x.standby with
    | some p, some c =>
      let automatic := x.switchKind = some .automatic
      let blocked := x.blockOutgoing = some true
      let t := s.modCarrier c (fun y => { y with state := .assigned, bound := some (k, .primary), alternate := none })
      let t := t.markCarrier c CarrierReason.roleChanged
      let t := t.modCarrier p (fun y =>
        { y with
          state := if automatic || blocked then .blocked else .standby
          bound := some (k, .standby)
          alternate := if automatic then some c else none })
      let t := t.markCarrier p
        (if automatic then CarrierReason.fallback else if blocked then CarrierReason.blockDone
          else CarrierReason.roleChanged)
      let t := t.modStation k (fun x =>
        { x with
          primary := some c
          standby := some p
          switchKind := none
          blockOutgoing := none
          attempts := 0
          tuneTimer := none
          quality := none
          qualityAge := none
          watch := .running 0
          recoveryRun := none })
      let t := if automatic || blocked then t.beginRecovery k p else t
      let t := (t.setLink k .up).markStation k StationReason.switched
      if automatic then t.markStation k StationReason.fallback else t
    | _, _ => s

/-- A switch ends as a failure (R66): back to the primary, Weak or Lost, fallback inhibit set. -/
def State.switchFail (s : State) (k : Nat) : State :=
  match s.station k with
  | none => s
  | some x =>
    let t := match x.primary with | some p => s.tuneTo k p 0 false | none => s
    let t := t.modStation k (fun x => { x with switchKind := none, blockOutgoing := none, inhibit := true })
    ((t.blockAbandoned x).setLink k (if x.watch = .runOut then .lost else .weak)).markStation k
      StationReason.switchFailed

/-! ## TUNED reports, timeouts and the watch -/

/-- A TUNED item (R57): taken when a report is awaited, from the station's control unit, with the current token. -/
def State.tunedItem (s : State) (k fromUnit token : Nat) (done : Bool) : State :=
  match s.station k with
  | none => s
  | some x =>
    if x.controlUnit = some fromUnit && x.token = token then
      match x.link with
      | .tuning => if done then s.tuneDone k else s.tuneFailed k
      | .switching => if done then s.switchDone k else s.switchFail k
      | .parked | .up | .weak | .lost => s
    else s

/-- The Tune Timeout of an attempt runs out (R59, R64). -/
def State.tuneTimeout (s : State) (k : Nat) : State :=
  match s.station k with
  | none => s
  | some x =>
    if x.tuneTimer.isNone then s
    else
      match x.link with
      | .tuning =>
        if x.attempts < Config.tuneAttempts then
          (match x.primary with | some p => s.tuneTo k p (x.attempts + 1) true | none => s)
        else s.tuneFailed k
      | .switching =>
        if x.attempts < Config.tuneAttempts then
          (match x.standby with | some c => s.tuneTo k c (x.attempts + 1) true | none => s)
        else s.switchFail k
      | .parked | .up | .weak | .lost => s

/-- The watch runs out (R62). -/
def State.watchRunsOut (s : State) (k : Nat) : State :=
  match s.station k with
  | none => s
  | some x =>
    match x.watch with
    | .off | .runOut => s
    | .running _ =>
      let t := s.modStation k (fun x => { x with watch := .runOut })
      match x.link with
      | .up | .weak => (t.setLink k .lost).markStation k StationReason.linkLost
      | .switching => t
      | .parked | .tuning | .lost => s

/-! ## QUALITY and CLEAN items -/

/-- The fallback test of R67 for a quality taken in Up or Weak. -/
def State.fallsBack (s : State) (x : Station) (quality : Nat) : Bool :=
  !x.inhibit && quality < s.settings.fallbackFloor && s.usableStandby x &&
    (match x.standby.bind s.carrier with
     | some y =>
       match y.cleanScore, y.cleanAge with
       | some score, some age => age ≤ s.settings.linkWatch && quality + s.settings.fallbackMargin < score
       | _, _ => false
     | none => false)

/-- The hysteresis step of R62 in Up and Weak. -/
def State.hysteresis (s : State) (k : Nat) (link : Link) (quality : Nat) : State :=
  match link with
  | .up =>
    if quality < s.settings.fallbackFloor then (s.setLink k .weak).markStation k StationReason.linkWeak else s
  | .weak =>
    if s.settings.returnLevel ≤ quality then (s.setLink k .up).markStation k StationReason.linkRestored else s
  | .parked | .tuning | .switching | .lost => s

/-- A QUALITY item (R61, R62, R67, R68). -/
def State.qualityItem (s : State) (k c quality : Nat) : State :=
  match s.station k with
  | none => s
  | some x =>
    if x.link = .parked || x.primary != some c then s
    else
      let t := s.modStation k (fun x =>
        { x with
          quality := some quality
          qualityAge := some 0
          watch := if x.link = .tuning then x.watch else .running 0
          inhibit := if x.link.upOrWeak || x.link = .lost then
            x.inhibit && quality < s.settings.returnLevel else x.inhibit })
      match x.link with
      | .parked | .tuning | .switching => t
      | .up | .weak =>
        match t.station k with
        | none => t
        | some y =>
          if t.fallsBack y quality then t.startSwitch k .automatic false else t.hysteresis k x.link quality
      | .lost =>
        if s.settings.fallbackFloor ≤ quality then (t.setLink k .up).markStation k StationReason.linkRestored
        else (t.setLink k .weak).markStation k StationReason.linkWeak

/-- The station whose Blocked standby a carrier is. -/
def Carrier.blockedStandbyOf (y : Carrier) : Option Nat :=
  match y.state, y.bound with
  | .blocked, some (k, .standby) => some k
  | _, _ => none

/-- A CLEAN item (R19, R70): the score is recorded, and the recovery run of a Blocked standby begins, goes on or
stops. -/
def State.cleanItem (s : State) (c score : Nat) : State :=
  match s.carrier c with
  | none => s
  | some y =>
    let t := s.modCarrier c (fun y => { y with cleanScore := some score, cleanAge := some 0 })
    match y.blockedStandbyOf with
    | none => t
    | some k =>
      t.modStation k (fun x =>
        { x with
          recoveryRun :=
            if s.settings.returnLevel < score then some (x.recoveryRun.getD 0) else none })

/-- The clean age of a carrier passes Link Watch (R70): the recovery run of a Blocked standby stops. The age reads past
Link Watch from then on. -/
def State.cleanAgePasses (s : State) (c : Nat) : State :=
  match s.carrier c with
  | none => s
  | some y =>
    match y.cleanAge with
    | none => s
    | some age =>
      let t := s.modCarrier c (fun y => { y with cleanAge := some (max age (s.settings.linkWatch + 1)) })
      match y.blockedStandbyOf with
      | none => t
      | some k => t.stopRecovery k

/-! ## Windows closing under stations (R71, R72) -/

/-- A station's primary names a window. -/
def State.primaryIn (s : State) (x : Station) (w : Nat) : Bool :=
  match x.primary.bind s.carrier with
  | some y => y.window = some w
  | none => false

/-- A station's standby names a window that is Open. -/
def State.standbyWindowOpen (s : State) (x : Station) : Bool :=
  match (x.standby.bind s.carrier).bind Carrier.window with
  | some w => (match s.window w with | some v => v.state = .opened | none => false)
  | none => false

/-- The Closing notice (R6, R71): a Vacate switch for each eligible station. R71 gives no order of the stations; by ascending
number is the model's choice (log 14). -/
def State.closingNotice (s : State) (w : Nat) : State :=
  s.forEach (upTo 96) (fun s k =>
    match s.station k with
    | none => s
    | some x =>
      if s.primaryIn x w && x.link.upOrWeak && s.usableStandby x && s.standbyWindowOpen x then
        s.startSwitch k .vacate false
      else s)

/-- The Expiry notice to the Link Supervisor (R72): park every station whose primary names the window.
R72 gives no order of the stations; by ascending number is the model's choice (log 14). -/
def State.parkExpired (s : State) (w : Nat) : State :=
  s.forEach (upTo 96) (fun s k =>
    match s.station k with
    | none => s
    | some x =>
      if s.primaryIn x w && x.link != .parked then
        let t := (s.parkStation k).markStation k StationReason.windowExpired
        if x.tally = .live then t.markStation k StationReason.onAirCut else t
      else s)

/-- A station loses a slot to an expiry or to damage (R54): a switch towards a lost standby fails, a recovery run stops,
a station that loses its primary is first parked. -/
def State.loseSlot (s : State) (k : Nat) (role : Role) (reason : Nat) : State :=
  match s.station k with
  | none => s
  | some x =>
    match role with
    | .primary =>
      let t := if x.link = .parked then s else s.parkStation k
      (t.modStation k (fun x => { x with primary := none })).markStation k reason
    | .standby =>
      let t := if x.link = .switching then s.switchFail k else s
      (t.modStation k (fun x => { x with standby := none, recoveryRun := none })).markStation k reason

/-! ## Links and slots at orders -/

/-- Fill a station's slot with a Cleared carrier (R51, R53): Assigned or Standby, bound, intent set. -/
def State.bindCarrier (s : State) (k c : Nat) (role : Role) : State :=
  let t := s.modCarrier c (fun y =>
    { y with
      state := match role with | .primary => .assigned | .standby => .standby
      bound := some (k, role)
      intent := some (k, role) })
  let t := t.markCarrier c CarrierReason.bound
  t.modStation k (fun x =>
    match role with
    | .primary => { x with primary := some c }
    | .standby => { x with standby := some c })

/-- Empty a station's slot by UNBIND (R52): the carrier becomes Cleared, or stays Blocked and keeps its alternate. -/
def State.unbindCarrier (s : State) (k c : Nat) (role : Role) : State :=
  let t := s.modCarrier c (fun y =>
    { y with
      state := if y.state = .blocked then .blocked else .cleared
      bound := none
      intent := none })
  let t := t.markCarrier c CarrierReason.unbound
  t.modStation k (fun x =>
    match role with
    | .primary => { x with primary := none }
    | .standby => { x with standby := none, recoveryRun := none })

end Sys2Proof.Machine
end

