-- ==== Sys2Proof/Machine/Carrier.lean ====
section
/-! DEFINITION. The Carrier Table and Coordination Engine: the stages of a check, its end, the Check Queue, and carriers changed by other blocks (chapter 2). -/

namespace Sys2Proof.Machine

/-! ## The stages of a check (R33 to R36) -/

/-- A window's classes hold a class: 1 Audio, 2 Video, 3 both. -/
def classAllowed (classes : Nat) (c : CarrierClass) : Bool :=
  match c with
  | .audio => classes % 2 = 1
  | .video => classes / 2 % 2 = 1

/-- The window stage (R33): none when it passes. -/
def State.windowStage (s : State) (y : Carrier) : Option ConflictKind :=
  match y.window.bind s.window with
  | none => some .window
  | some w =>
    if w.state != .opened || !classAllowed w.classes y.cls then some .window
    else if w.lowEdge + y.cls.width / 2 ≤ y.frequency && y.frequency + y.cls.width / 2 ≤ w.highEdge then none
    else some .edge

/-- The distance of two frequencies. -/
def gap (a b : Nat) : Nat := (a - b) + (b - a)

/-- The spacing stage (R34): the carriers that fall short, up to the four lowest-numbered. -/
def spacingStage (guard : Nat) (y : Carrier) (committed : List (Nat × Carrier)) : List Nat :=
  ((committed.filter (fun p =>
    gap y.frequency p.2.frequency < (y.cls.width + p.2.cls.width) / 2 + guard)).map (·.1)).take 4

/-- A product lies within the IM guard of a frequency (R35). -/
def nearProduct (guard : Nat) (product : Int) (f : Nat) : Bool := (product - (f : Int)).natAbs ≤ guard

/-- The product m f1 - (m - 1) f2: third order for m = 2, fifth order for m = 3 (R35, R36). -/
def imProduct (m f1 f2 : Nat) : Int := (m : Int) * (f1 : Int) - ((m : Int) - 1) * (f2 : Int)

/-- The first ordered pair of distinct carriers of a list that a test picks, in ascending order of the first and then
the second. -/
def firstPair (cs : List (Nat × Nat)) (hit : Nat → Nat → Bool) : Option (Nat × Nat) :=
  cs.findSome? (fun a => (cs.find? (fun b => a.1 != b.1 && hit a.2 b.2)).map (fun b => (a.1, b.1)))

/-- The three tests of one order (R35, R36), on (number, frequency) of the committed Audio carriers. -/
def imTests (guard m fx : Nat) (cs : List (Nat × Nat)) : Option (Nat × Nat) :=
  match firstPair cs (fun fa fb => nearProduct guard (imProduct m fa fb) fx) with
  | some p => some p
  | none =>
    match firstPair cs (fun fa fc => nearProduct guard (imProduct m fx fa) fc) with
    | some p => some p
    | none => firstPair cs (fun fa fc => nearProduct guard (imProduct m fa fx) fc)

/-- The intermodulation stage (R35, R36): a Video candidate passes; the conflict list is ascending. -/
def State.imStage (s : State) (y : Carrier) (committed : List (Nat × Carrier)) : Option (List Nat) :=
  match y.cls with
  | .video => none
  | .audio =>
    let cs := (committed.filter (fun p => p.2.cls = .audio)).map (fun p => (p.1, p.2.frequency))
    let third := imTests s.settings.imGuard 2 y.frequency cs
    let found := match third with
      | some p => some p
      | none => if s.settings.imFifth then imTests s.settings.imGuard 3 y.frequency cs else none
    found.map (fun p => sortNat [p.1, p.2])

/-- What the spacing and intermodulation stages find when a check begins (R34 to R36). -/
def State.laterStages (s : State) (x : Nat) (y : Carrier) : Option (ConflictKind × List Nat) :=
  let committed := s.committedSet x
  match spacingStage s.settings.spacingGuard y committed with
  | [] => (s.imStage y committed).map (fun l => (.intermod, l))
  | c :: cs => some (.spacing, c :: cs)

/-! ## Results (R37, R38) -/

/-- A check ends in Conflict (R37). -/
def State.enterConflict (s : State) (x : Nat) (kind : ConflictKind) (list : List Nat) : State :=
  (s.modCarrier x (fun y => { y with state := .conflict, conflict := some (kind, list) })).markCarrier x
    CarrierReason.conflict

/-- The intent can be bound now (R38, R53). -/
def State.canBind (s : State) (y : Carrier) (k : Nat) (role : Role) : Bool :=
  match s.station k with
  | none => false
  | some x =>
    y.cls = x.kind.cls &&
      (match role with
       | .primary => x.primary.isNone && x.link = .parked
       | .standby => x.standby.isNone && x.link != .switching)

/-- A check ends Cleared (R37), and its intent is tried in the same event (R38). -/
def State.enterCleared (s : State) (x : Nat) : State :=
  let t := (s.modCarrier x (fun y => { y with state := .cleared })).markCarrier x CarrierReason.cleared
  match t.carrier x with
  | none => t
  | some y =>
    match y.intent with
    | none => t
    | some (k, role) =>
      if t.canBind y k role then (t.bindCarrier k x role).markStation k StationReason.carrierBound
      else t.markCarrier x CarrierReason.intentUnmet

/-- The end of a check (R37): the final window test, then the earlier stages, then Cleared. -/
def State.enterResult (s : State) (x : Nat) (y : Carrier) (found : Option (ConflictKind × List Nat)) : State :=
  match s.windowStage y with
  | some kind => s.enterConflict x kind []
  | none =>
    match found with
    | some (kind, list) => s.enterConflict x kind list
    | none => s.enterCleared x

/-! ## The engine (R32) -/

/-- The engine's next candidate (R32): the head of the Check Queue, or the lowest-numbered restore-pending carrier. A damaged
carrier that the search meets ends it: the engine stays idle, and the failure is that of State.checkBegun, or of the order
that set the engine looking (State.lookReads). -/
def State.nextCandidate (s : State) : Option (Nat × State) :=
  match s.checkQueue with
  | c :: rest => some (c, { s with checkQueue := rest })
  | [] =>
    match s.carriers.records.find? (fun p => p.2.restorePending || s.readFails ⟨.carrier, p.1⟩) with
    | some p =>
      if s.readFails ⟨.carrier, p.1⟩ then none
      else some (p.1, s.modCarrier p.1 (fun y => { y with restorePending := false }))
    | none => none

/-- Begin the check of a candidate: the window stage; when it fails the check ends at once and the later stages, which read
the other carriers, are not run (R33). A stage that finds a damaged record among those it reads has no result: the candidate
stays under the engine (R46, R180). -/
def State.beginCheck (s : State) (c : Nat) : State :=
  match s.carrier c with
  | none => s
  | some y =>
    if (s.firstBad (s.windowStageReads c)).isSome then { s with engine := some ⟨c, none⟩ }
    else
      match s.windowStage y with
      | some kind => s.enterConflict c kind []
      | none =>
        { s with engine := some ⟨c, if (s.firstBad (s.checkReads c)).isSome then none else s.laterStages c y⟩ }

/-- The idle engine takes candidates until it is busy or none waits; fuel bounds how many fail at once. -/
def engineTakes : Nat → State → State
  | 0, s => s
  | fuel + 1, s =>
    if s.engine.isSome then s
    else
      match s.nextCandidate with
      | none => s
      | some (c, t) => engineTakes fuel (t.beginCheck c)

/-- The engine looks for a candidate (R32), in In Service alone (R46); a candidate is one of the 16 queue places or the
128 carriers. -/
def State.engineLooks (s : State) : State :=
  if s.service = .inService && !s.tablesDown then engineTakes 145 s else s

/-- What the engine reads when it looks for a candidate (R32, R33): the candidate that it takes and the window which that one
names, or, where it finds none, every carrier, each tested for restore pending. A busy engine looks for none, and candidates
whose check ends at once are touched (State.cascadeReads). An order that sets the engine looking reads these before its
answer, and is interrupted by a damaged one among them (R22, R181; log 5). -/
def State.lookReads (s : State) (r : RecordId) : Bool :=
  s.engine.isNone &&
    match s.engineLooks.engine with
    | some k => s.engineLooks.windowStageReads k.carrier r
    | none => r.table = .carrier

/-- The check under the engine ends (R37); in Fault Handling it has been abandoned (R46). -/
def State.endOfCheck (s : State) : State :=
  if s.service = .inService && !s.tablesDown then
    match s.engine with
    | none => s
    | some k =>
      match s.carrier k.carrier with
      | none => s
      | some y => (State.enterResult { s with engine := none } k.carrier y k.found).engineLooks
  else s

/-- In Service again, the engine checks its candidate again after fault handling, or takes the next one (R46). -/
def State.engineResumes (s : State) : State :=
  if s.service = .inService then
    match s.engine with
    | none => s.engineLooks
    | some k => (State.beginCheck { s with engine := none } k.carrier).engineLooks
  else s

/-- A carrier leaves Checking: the queue, the restore pass or the engine (R22, R25). -/
def State.leaveChecking (s : State) (c : Nat) : State :=
  let t := s.modCarrier c (fun y => { y with restorePending := false })
  { t with
    checkQueue := t.checkQueue.filter (· != c)
    engine := match t.engine with
      | some k => if k.carrier = c then none else some k
      | none => none }

/-- The check place of a carrier: 0 under the engine, its position in the Check Queue, or none (field 10). -/
def State.checkPlace (s : State) (c : Nat) : Option Nat :=
  if s.engine.map Check.carrier = some c then some 0
  else (s.checkQueue.findIdx? (· = c)).map (· + 1)

/-! ## Carriers changed by other blocks -/

/-- Every carrier whose alternate names c has it set to none, with reason Alternate Gone (R29, R44). -/
def State.alternateGone (s : State) (c : Nat) : State :=
  s.forEach ((s.carriers.records.filter (fun p => p.1 != c && p.2.alternate = some c)).map (·.1)) (fun s k =>
    (s.modCarrier k (fun y => { y with alternate := none })).markCarrier k CarrierReason.alternateGone)

/-- One committed carrier of an expired window (R43): unbound, its station's slot emptied, Proposed. -/
def State.expireCarrier (s : State) (c : Nat) : State :=
  match s.carrier c with
  | none => s
  | some y =>
    let t := match y.bound with
      | some (k, role) => s.loseSlot k role StationReason.windowExpired
      | none => s
    (t.modCarrier c (fun y =>
      { y with state := .proposed, bound := none, alternate := none, conflict := none })).markCarrier c
        CarrierReason.windowExpired

/-- The Expiry notice to the Carrier Table (R43). -/
def State.expireCarriers (s : State) (w : Nat) : State :=
  s.forEach
    ((s.carriers.records.filter (fun p => p.2.state.committed && p.2.window = some w)).map (·.1))
    State.expireCarrier

/-- A station is gone (R44): its carriers are unbound, intents that name it become none, each with reason Station
Gone. byOrder: an intent cleared makes the Carrier table's store state Changed. -/
def State.stationGone (s : State) (k : Nat) (byOrder : Bool) : State :=
  let holds := fun (p : Nat × Carrier) => p.2.bound.map (·.1) = some k
  let intends := fun (p : Nat × Carrier) => p.2.intent.map (·.1) = some k
  let hit := s.carriers.records.filter (fun p => holds p || intends p)
  let t := s.forEach hit (fun s p =>
    (s.modCarrier p.1 (fun y =>
      { y with
        state := if holds p && y.state != .blocked then .cleared else y.state
        bound := if holds p then none else y.bound
        intent := if intends p then none else y.intent })).markCarrier p.1 CarrierReason.stationGone)
  if byOrder && hit.any intends then t.carrierChanged else t

end Sys2Proof.Machine
end

