-- ==== Sys2Proof/Machine/Windows.lean ====
section
/-! DEFINITION. The Window and Clock Unit: when a window should be open, evaluation, closing and grace expiry (chapter 1). -/

namespace Sys2Proof.Machine

/-- A flag of the day mask. -/
def Window.onDay (w : Window) (d : Nat) : Bool := w.dayMask.getLsbD d

/-- The clock is within a span of a Daily window (R4). -/
def Window.inDailySpan (w : Window) (m d : Nat) : Bool :=
  if w.openMinute < w.closeMinute then w.onDay d && w.openMinute ≤ m && m < w.closeMinute
  else (w.openMinute ≤ m && w.onDay d) || (m < w.closeMinute && w.onDay ((d + 6) % 7))

/-- The instant (date, minute) is at or after another. -/
def notBefore (date minute date' minute' : Nat) : Bool := date' < date || (date = date' && minute' ≤ minute)

/-- A window should be open (R4). -/
def Window.shouldBeOpen (w : Window) (c : Clock) : Bool :=
  w.enabled &&
    (match w.schedule with
     | .always => true
     | .daily => !c.unset && w.inDailySpan c.minute c.dayOfWeek
     | .once =>
       !c.unset && notBefore c.date c.minute w.openDate w.openMinute &&
         !notBefore c.date c.minute w.closeDate w.closeMinute)

/-- A window whose grace has expired: both Expiry notices, then Closed with reason Expired (R9, R11). -/
def State.expireWindow (s : State) (w : Nat) : State :=
  let t := (s.parkExpired w).expireCarriers w
  (t.modWindow w (fun x => { x with state := .closed, grace := none })).markWindow w WindowReason.expired

/-- The new state that an evaluation gives a window, with the mark it earns (R5, R11). byOrder: the order is aimed at
the window, and no reason is added. -/
def State.evaluateState (s : State) (byOrder : Bool) (w : Nat) : State :=
  match s.window w with
  | none => s
  | some x =>
    let mark := fun (t : State) r => if byOrder then t else t.markWindow w r
    match x.state, x.shouldBeOpen s.clock with
    | .closed, true => mark (s.modWindow w (fun x => { x with state := .opened })) WindowReason.opened
    | .opened, false =>
      mark (s.modWindow w (fun x => { x with state := .closing, grace := some (x.vacateGrace * 1000) }))
        WindowReason.closing
    | .closing, true => mark (s.modWindow w (fun x => { x with state := .opened, grace := none })) WindowReason.reopened
    | _, _ => s

/-- A window has just entered Closing (R6): the Closing notice, and at a vacate grace of 0 its expiry at once. -/
def State.windowCloses (s : State) (w : Nat) : State :=
  let t := s.closingNotice w
  match t.window w with
  | some x => if x.grace = some 0 then t.expireWindow w else t
  | none => t

/-- An evaluation of some windows, taken whole (R5): every new state first, then the notices. -/
def State.evaluate (s : State) (byOrder : Bool) (ws : List Nat) : State :=
  let entering := ws.filter (fun w =>
    match s.window w with | some x => x.state = .opened && !x.shouldBeOpen s.clock | none => false)
  (s.forEach ws (State.evaluateState · byOrder ·)).forEach entering State.windowCloses

/-- An evaluation of every window. -/
def State.evaluateAll (s : State) : State := s.evaluate false (upTo 16)

/-- The grace of a window runs out (R9). In Fault Handling it falls due and is taken on the return to In Service
(R17). -/
def State.graceRunsOut (s : State) (w : Nat) : State :=
  match s.window w with
  | none => s
  | some x =>
    if x.state = .closing then
      match s.service with
      | .inService => s.expireWindow w
      | .faultHandling => s.modWindow w (fun x => { x with grace := some 0 })
      | .starting | .halted => s
    else s

/-- On the return to In Service: every grace expiry that fell due, then an evaluation of every window (R17). R17 gives no order
of several due expiries: by ascending window number, and not as they fell due, is the model's choice (log 14). -/
def State.windowsResume (s : State) : State :=
  (s.forEach (upTo 16) (fun s w =>
    match s.window w with
    | some x => if x.state = .closing && x.grace = some 0 then s.expireWindow w else s
    | none => s)).evaluateAll

end Sys2Proof.Machine
end

