-- ==== Sys2Proof/Machine/Line.lean ====
section
/-! DEFINITION. The Line Controller: frames, turns, polls, report items, directives, and units found, lost and returned (chapter 8). -/

namespace Sys2Proof.Machine

/-! ## Transactions (R141 to R143) -/

/-- The line may begin a transaction: none is on it, the part is In Service or in Fault Handling, and no RELOAD PLAN
pauses it. -/
def State.lineReady (s : State) : Bool :=
  s.line.isNone && s.load = .none && (s.service = .inService || s.service = .faultHandling)

/-- The next transaction begins; the sequence rises by one (R141; log 10). -/
def State.transact (s : State) (ask : Ask) : State :=
  let q := (s.sequence + 1) % 256
  { s with sequence := q, line := some ⟨ask, q⟩ }

/-- The transaction on the line has ended. -/
def State.endTransaction (s : State) : State := { s with line := none }

/-- The state of a unit. -/
def State.unitState (s : State) (a : Nat) : UnitState :=
  match s.unitAt a with
  | some u => u.state
  | none => .absent

/-- The kind of a unit. -/
def State.unitKind (s : State) (a : Nat) : Option UnitKind := (s.unitAt a).bind LineUnit.kind

/-- The Absent address that the next Discover goes to (R143): the lowest above the one before, wrapping from 32 to 1. -/
def State.nextDiscover (s : State) : Option Nat :=
  let absent := (upTo 32).filter (fun a => s.unitState a = .absent)
  match absent.find? (fun a => s.lastDiscover < a) with
  | some a => some a
  | none => absent.head?

/-- A poll round as the Unit Table gives it when it begins (R143). -/
def State.newRound (s : State) : List Ask :=
  ((upTo 32).filter (fun a => s.unitState a != .absent)).map Ask.poll ++
    (match s.nextDiscover with | some a => [.discover a] | none => [])

/-- The transactions left in the round; an ended round is followed by the next. -/
def State.roundLeft (s : State) : List Ask :=
  match s.round with
  | [] => s.newRound
  | a :: rest => a :: rest

/-- An entry is ready while no transaction is on the line (R142): a Sent entry, whose last transmission was missed, or
a Queued entry of a unit without a Sent one. -/
def readyIn (queue : List Entry) (e : Entry) : Bool :=
  e.sent || !queue.any (fun x => x.sent && x.unit = e.unit)

/-- The ready entry nearest the head of the queue. -/
def State.readyEntry (s : State) : Option Entry := s.queue.find? (readyIn s.queue)

/-- It is the turn of the poll round: the last turn was a directive's, or no entry is ready. -/
def State.pollTurn (s : State) : Bool := s.turn = .poll || s.readyEntry.isNone

/-- The next poll of the round is sent (R143). -/
def State.sendPoll (s : State) : State :=
  if s.lineReady && s.pollTurn then
    match s.roundLeft with
    | .poll a :: rest => State.transact { s with round := rest, turn := .directive } (.poll a)
    | _ => s
  else s

/-- The Discover of the round is sent (R143). -/
def State.sendDiscover (s : State) : State :=
  if s.lineReady && s.pollTurn then
    match s.roundLeft with
    | .discover a :: rest =>
      State.transact { s with round := rest, turn := .directive, lastDiscover := a } (.discover a)
    | _ => s
  else s

/-- An entry is sent (R152): it is Sent, and its send attempts rise by one. They stay at 3, the most that R151 allows, when a
check failure has kept the end of the third sending from being taken and the entry goes out again: the model's choice (log
42). -/
def Entry.resent (e : Entry) : Entry := { e with sent := true, attempts := min Config.sendMax (e.attempts + 1) }

/-- A directive turn (R142, R152): the ready entry is sent. The turn reads the unit and the target, and no record that the
target names; an entry of the record under quarantine is sent as it stands in the queue. -/
def State.sendDirective (s : State) : State :=
  if s.lineReady && s.turn = .directive then
    match s.readyEntry with
    | none => s
    | some e =>
      s.reading Activity.directive (fun r => r = ⟨.unit, e.unit⟩ || r = ⟨e.kind.table, e.target⟩) (fun s =>
        State.transact
          { s with
            turn := .poll
            queue := s.queue.map (fun x => if x.has e.unit e.kind e.target then x.resent else x) }
          (.directive e.unit e.kind e.target e.content))
  else s

/-! ## Frames (8.1) -/

/-- The unit address of a transaction. -/
def Ask.address : Ask → Nat
  | .poll a => a
  | .discover a => a
  | .directive a _ _ _ => a

/-- The type byte of a transaction. -/
def Ask.typeByte : Ask → Nat
  | .poll _ => 1
  | .discover _ => 2
  | .directive _ _ _ _ => 3

/-- What a matching unit frame carries: the kind that its kind byte codes, none for a byte above 3 (log 13), and its
body. -/
structure UnitFrame where
  kind : Option UnitKind
  body : List Word
  deriving DecidableEq, Repr

/-- A unit frame that matches the transaction on the line (R141): its start byte, its address, type and sequence, its
length and its check. -/
def Transaction.matching (t : Transaction) (bs : List Byte) : Option UnitFrame :=
  match bs with
  | start :: address :: type :: sequence :: kind :: count :: rest =>
    if start = 0x2D#8 && address.toNat = t.ask.address && type.toNat = t.ask.typeByte &&
        sequence.toNat = t.sequence && rest.length = 2 * count.toNat + 1 && byteSum bs = 0#8 then
      some ⟨unitKindOf kind.toNat, wordsOfBytes (rest.take (2 * count.toNat))⟩
    else none
  | _ => none

/-- The code word of a directive. -/
def Content.code : Content → Nat
  | .tune t => if t.muted then 2 else 1
  | .lamp _ => 3
  | .routing _ => 4
  | .cueRoute _ => 5

/-- The body of a directive (8.1). -/
def directiveBody (target : Nat) (c : Content) : List Word :=
  wordOf c.code :: wordOf target ::
    (match c with
     | .tune t =>
       if t.muted then []
       else wideWords (t.frequency.getD 0) ++ [wordOf t.cls.code, wordOf t.power, wordOf t.token]
     | .lamp l => [wordOf l.level.code, wordOfBool l.flash, wordOfBool l.call]
     | .routing r =>
       [wordOf r.members.length, wordOf r.talkers.length] ++
         r.members.flatMap (fun m => [wordOf m.id.code, wordOf (rightsCode m.listen m.talk)]) ++
         r.talkers.map (fun t => wordOf t.code)
     | .cueRoute x => [sourceWord x])

/-- The controller frame of a transaction (8.1). -/
def Transaction.frame (t : Transaction) : List Byte :=
  let body := match t.ask with
    | .poll _ | .discover _ => []
    | .directive _ _ target c => directiveBody target c
  closeFrame
    ([0xD2#8, BitVec.ofNat 8 t.ask.address, BitVec.ofNat 8 t.ask.typeByte, BitVec.ofNat 8 t.sequence,
      BitVec.ofNat 8 body.length] ++ bytesOfWords body)

/-! ## RELOAD PLAN begins its load when the line is free (R177; log 20) -/

/-- The final tune deliveries that the old stations would get (R158): muted, to their control units. -/
def State.oldTunes (s : State) : List Final :=
  s.stations.records.filterMap (fun p =>
    p.2.controlUnit.map (fun u =>
      ⟨.tune, p.1, some u, .tune { p.2.wanted with muted := true }, p.2.delivered.map .tune, p.2.tuneBase⟩))

/-- The load of RELOAD PLAN begins: the plan tables and settings are emptied, the line pauses. -/
def State.startReload (s : State) (key : Word) : State := { s.emptyPlan with load := .reloading key s.oldTunes }

/-- After an event of the line: a RELOAD PLAN that waited for the transaction begins its load. The Part record, whose settings
it writes, and the stations, whose tune deliveries it keeps, are read first (log 5). 11.2 does not say which word a failure of
these reads has: that of a notice, 4, and not the order's 0x8819, is the model's choice (log 5). -/
def State.afterLine (s : State) : State :=
  match s.load with
  | .reloadWaiting key => if s.line.isNone then
      s.reading Activity.notice (fun r => r = ⟨.part, 0⟩ || r.table = .station) (·.startReload key)
    else s
  | .none | .memoryTest | .loading | .reloading _ _ => s

/-! ## Units lost (R146), found and returned (R144, R147) -/

/-- Set to Stale every delivery to a unit that is Queued, Sent or Waiting (R146). -/
def State.staleAll (s : State) (a : Nat) : State :=
  s.forEach deliveryKeys (fun s p =>
    match s.delivery p.1 p.2, s.deliveryCode p.1 p.2 with
    | some d, some c => if d.destination = some a && 1 ≤ c && c ≤ 3 then s.setBase p.1 p.2 .stale else s
    | _, _ => s)

/-- Discard the final deliveries to a unit (R153). -/
def State.dropFinalsTo (s : State) (a : Nat) : State :=
  { s with finals := s.finals.filter (fun f => s.finalDestination f != some a) }

/-- A unit is declared Lost (R146). -/
def State.unitLost (s : State) (a : Nat) : State :=
  let t := s.modUnit a (fun u => { u with state := .lost, missed := 3 })
  let t := (t.markUnit a UnitReason.lost).dropFinalsTo a
  let t := (t.staleAll a).removeEntries (fun e => e.unit = a)
  let t := t.emptySets (fun g => g.tallyUnit = some a)
  if t.settings.matrixUnit = some a then t.matrixLost else t

/-- A unit has become Present: every delivered state that depends on it is undelivered, every delivery to it is decided
afresh, and the queue's scan is made (R144, R147, R152). -/
def State.redeliver (s : State) (a : Nat) : State := ((s.resetUndelivered a).decideAll a).fillQueue

/-- A Discover is answered (R144). -/
def State.unitFound (s : State) (a : Nat) (k : Option UnitKind) : State :=
  if s.unitState a = .absent then
    let t := s.modUnit a (fun u => { u with state := .present, kind := k, missed := 0 })
    (t.markUnit a UnitReason.found).redeliver a
  else s

/-- A Poll of a Lost unit is answered (R147). -/
def State.unitReturned (s : State) (a : Nat) (k : Option UnitKind) : State :=
  let changed := s.unitKind a != k
  let t := s.modUnit a (fun u => { u with state := .present, kind := k, missed := 0 })
  let t := t.markUnit a UnitReason.returned
  (if changed then t.markUnit a UnitReason.kindChanged else t).redeliver a

/-- A Poll is missed (R145); that of a unit which has become Absent since counts nothing, the model's choice (log 39). -/
def State.missPoll (s : State) (a : Nat) : State :=
  match s.unitAt a with
  | none => s
  | some u =>
    match u.state with
    | .absent | .lost => s
    | .present =>
      if 3 ≤ u.missed + 1 then s.unitLost a else s.modUnit a (fun u => { u with missed := u.missed + 1 })

/-! ## Report items (R148, R149) -/

/-- The unit gets mark reason Bad Item. -/
def State.badItem (s : State) (a : Nat) : State := s.markUnit a UnitReason.badItem

/-- Do an item's effect: the item reads its unit, the records it names and their neighbours, the Part record, and what
its cascade touches. -/
def State.item (s : State) (a : Nat) (names : List RecordId) (effect : State → State) : State :=
  s.acting Activity.item (fun r => r = ⟨.part, 0⟩ || s.near (⟨.unit, a⟩ :: names) r) effect

/-- A QUALITY item: station, carrier, quality. -/
def State.takeQuality (s : State) (a k c q : Nat) : State :=
  if s.unitKind a = some .rx && (s.station k).isSome && (s.carrier c).isSome && q ≤ 100 then
    s.item a [⟨.station, k⟩, ⟨.carrier, c⟩] (State.qualityItem · k c q)
  else s.badItem a

/-- A CLEAN item: carrier, score. -/
def State.takeClean (s : State) (a c score : Nat) : State :=
  if s.unitKind a = some .rx && (s.carrier c).isSome && score ≤ 100 then
    s.item a [⟨.carrier, c⟩] (State.cleanItem · c score)
  else s.badItem a

/-- A TUNED item: station, token, outcome. -/
def State.takeTuned (s : State) (a k token outcome : Nat) : State :=
  if s.unitKind a = some .txc && (s.station k).isSome && token ≤ 255 && outcome ≤ 1 then
    s.item a [⟨.station, k⟩] (State.tunedItem · k a token (outcome = 0))
  else s.badItem a

/-- A source number of a gallery. -/
def gallerySource (n : Nat) : Bool := 1 ≤ n && n ≤ 32

/-- A TALLY item: gallery, live, counts, sources. Its gallery is read before its tally unit is compared with the sender
(R149, R180). -/
def State.takeTally (s : State) (a g live p q : Nat) (sources : List Nat) : State :=
  if s.unitKind a = some .tgi && (s.gallery g).isSome && live ≤ 1 && p ≤ 4 && q ≤ 4 && sources.all gallerySource then
    s.reading Activity.item (fun r => r = ⟨.gallery, g⟩) (fun s =>
      if (s.gallery g).bind Gallery.tallyUnit = some a then
        s.item a [⟨.gallery, g⟩] (State.tallyItem · g (live = 1) (sources.take p) (sources.drop p))
      else s.badItem a)
  else s.badItem a

/-- The level of a KEY item. -/
def cueLevelOf (n : Nat) : CueLevel := if n = 1 then .director else .floor

/-- The source of a KEY item exists: a panel port, or a station whose slot holds a station. -/
def State.keySource (s : State) (n : Nat) : Option Source :=
  match identityOf n with
  | some (.station k) => if (s.station k).isSome then some (.station k) else none
  | r => r

/-- A KEY item's source is a station. -/
def Source.isStation : Source → Bool
  | .station _ => true
  | .port _ | .operator _ => false

/-- A Talk key (R102, R103). -/
def State.takeTalk (s : State) (a : Nat) (src : Source) (target action : Nat) : State :=
  if (s.conference target).isSome then
    s.item a (⟨.conference, target⟩ :: src.names)
      (fun s => if action = 1 then s.talkPress target src else s.talkRelease target src)
  else s.badItem a

/-- A Cue key (R117 to R119). -/
def State.takeCue (s : State) (a : Nat) (src : Source) (target level action : Nat) : State :=
  if (s.station target).isSome then
    s.item a (⟨.station, target⟩ :: src.names) (State.cueKey · target src (cueLevelOf level) (action = 1))
  else s.badItem a

/-- A Call key (R92): its source is a panel port (log 22); a release is discarded. -/
def State.takeCall (s : State) (a : Nat) (src : Source) (target action : Nat) : State :=
  if (s.station target).isSome && !src.isStation then
    s.item a [⟨.station, target⟩] (fun s => if action = 1 then s.callPress target else s)
  else s.badItem a

/-- An Answer key (R92): its source is a station; a release is discarded. -/
def State.takeAnswer (s : State) (a : Nat) (src : Source) (action : Nat) : State :=
  match src with
  | .station k => s.item a [⟨.station, k⟩] (fun s => if action = 1 then s.answerPress k else s)
  | .port _ | .operator _ => s.badItem a

/-- A KEY item: source, kind, target, level, action. It comes from the unit that the Part settings name as the TKM
unit. -/
def State.takeKey (s : State) (a source kind target level action : Nat) : State :=
  match s.keySource source with
  | none => s.badItem a
  | some src =>
    if s.settings.matrixUnit = some a && level ≤ 1 && action ≤ 1 then
      match kind with
      | 0 => s.takeTalk a src target action
      | 1 => s.takeCue a src target level action
      | 2 => s.takeCall a src target action
      | 3 => s.takeAnswer a src action
      | _ => s.badItem a
    else s.badItem a

/-- One item as it stands at the head of a body: what it does, and the body behind it. none: an unknown code, or a
count that runs past the end of the body. -/
def parseItem (a : Nat) (body : List Word) : Option ((State → State) × List Word) :=
  match body.map BitVec.toNat with
  | 1 :: k :: c :: q :: _ => some ((State.takeQuality · a k c q), body.drop 4)
  | 2 :: c :: score :: _ => some ((State.takeClean · a c score), body.drop 3)
  | 3 :: k :: token :: outcome :: _ => some ((State.takeTuned · a k token outcome), body.drop 4)
  | 4 :: g :: live :: p :: q :: rest =>
    if p + q ≤ rest.length then some ((State.takeTally · a g live p q (rest.take (p + q))), body.drop (5 + p + q))
    else none
  | 5 :: source :: kind :: target :: level :: action :: _ =>
    some ((State.takeKey · a source kind target level action), body.drop 6)
  | _ => none

/-- The items of an answer, in order (R148): at most so many, each one event; what is left over is discarded with one
Bad Item (R149). A part that halts takes no further item; in Fault Handling an item is taken beside the record under
quarantine, and is a Bad Item when it names it. -/
def takeItems (a : Nat) : Nat → List Word → State → State
  | _, [], s => s
  | 0, _ :: _, s => s.badItem a
  | n + 1, w :: ws, s =>
    match parseItem a (w :: ws) with
    | none => s.badItem a
    | some (act, rest) =>
      let t := s.beside act
      if t.service = .halted then t else takeItems a n rest t

/-- What the end of a transaction with a unit reads first: the unit and the Part record. -/
def unitReads (a : Nat) (r : RecordId) : Bool := r = ⟨.part, 0⟩ || r = ⟨.unit, a⟩

/-- The end of a transaction with unit a, with its cascade. -/
def State.unitEvent (s : State) (a activity : Nat) (effect : State → State) : State :=
  (s.beside (·.acting activity (unitReads a) effect)).afterLine

/-- A Poll is answered (R145, R147): the unit is noted first, with its cascade; then each item is an event of its own, and
a unit that a damaged record keeps from returning has its items discarded. R145 and R147 speak of Present and Lost units:
that the answer of a unit which has become Absent since its Poll began changes nothing is the model's choice (log 39), and
a unit whose record is under quarantine is taken as Absent. An answer that codes no kind is of the recorded kind of a unit
that has none, and its items are taken: the model's choice (log 13). -/
def State.pollIsAnswered (s : State) (a : Nat) (f : UnitFrame) : State :=
  if s.quarantined = some ⟨.unit, a⟩ then s
  else
    match s.unitState a with
    | .absent => s
    | .present =>
      if s.unitKind a = f.kind then takeItems a 8 f.body (s.modUnit a (fun u => { u with missed := 0 }))
      else s.beside (·.touching Activity.item (fun s => (s.badItem a).missPoll a))
    | .lost =>
      let t := s.beside (·.touching Activity.item (State.unitReturned · a f.kind))
      if t.unitState a = .present then takeItems a 8 f.body t else t

/-! ## Acknowledgements (R152) -/

/-- A directive is acknowledged (R152, R153). -/
def State.directiveDone (s : State) (a : Nat) (kind : DeliveryKind) (target : Nat) (c : Content) : State :=
  match s.queue.find? (fun e => e.has a kind target) with
  | none => s
  | some e =>
    if e.detached then s.removeEntries (fun e => e.has a kind target)
    else if e.sent then
      ((s.setDelivered kind target c).setBase kind target .current).removeEntries (fun e => e.has a kind target)
    else s.setDelivered kind target c

/-- The acknowledgement of a directive is missed (R152). -/
def State.directiveMissed (s : State) (a : Nat) (kind : DeliveryKind) (target : Nat) : State :=
  match s.queue.find? (fun e => e.has a kind target) with
  | none => s
  | some e => if e.sent && Config.sendMax ≤ e.attempts then s.unitLost a else s

end Sys2Proof.Machine
end

