-- ==== Sys2Proof/Machine/Timers.lean ====
section
/-! DEFINITION. The commands of the time base and of the engine: SHOW_CLOCK_ADVANCE, GRACE_EXPIRY, END_OF_CHECK, TUNE_TIMEOUT, WATCH_RUNS_OUT, RECOVERY, CLEAN_AGE_PASSING_LINK_WATCH, CALL_TIMEOUT, CUE_TIMEOUT. -/

namespace Sys2Proof.Machine

/-- The part takes report items and timers: In Service and in Fault Handling (R181). -/
def State.running (s : State) : Bool := s.service = .inService || s.service = .faultHandling

/-- A timer of some records runs out: it reads them, the records one relation away, the Part record, and what its
cascade reads. In Starting and Halted timers stand. -/
def State.timer (s : State) (roots : List RecordId) (effect : State → State) : State :=
  if s.running then
    s.beside (fun s => s.acting Activity.timer (fun r => r = ⟨.part, 0⟩ || s.near roots r) effect)
  else s

/-- The names of the windows. -/
def State.windowNames (s : State) : List RecordId := s.windows.keys.map (⟨.window, ·⟩)

/-- A second of the time base (R1): a set clock advances in every service state (R2), which reads the Part record that
shows it, and at a minute change every window is evaluated, in In Service alone (R17). -/
def State.clockAdvances (s : State) : State :=
  if s.clock.unset then s
  else
    State.readingPart { s with clock := s.clock.advance } Activity.timer (fun t =>
      if t.clock.minuteChange && t.service = .inService && !t.tablesDown then
        t.acting Activity.timer (fun r => t.near t.windowNames r) State.evaluateAll
      else t)

/-- The end of the check under the engine (R37): what the check reads is read again, and what its result touches. -/
def State.checkEnds (s : State) : State :=
  match s.engine with
  | none => s
  | some k =>
    if s.service = .inService && !s.tablesDown then
      s.acting Activity.check (s.checkReads k.carrier) State.endOfCheck
    else s

/-- The timer of a Single call runs out (R91). -/
def State.callRunsOut (s : State) (k : Nat) : State :=
  match s.station k with
  | none => s
  | some x =>
    if x.callRemaining.isSome then ((s.endCall k).recomputeLamps k).markStation k StationReason.callEnded else s

/-- The timer of a cue entry runs out (R120). -/
def State.cueRunsOut (s : State) (k : Nat) (src : Source) : State :=
  match s.station k with
  | none => s
  | some x =>
    if holdsEntry x.stack src then (s.cueRelease k src).markStation k StationReason.cueTimeout else s

/-- SHOW_CLOCK_ADVANCE (R1). -/
def execShowClockAdvance (s : State) : Result := .next s.clockAdvances

/-- The grace of a window runs out (R9). In Fault Handling no expiry is taken and nothing is read: the expiry falls due,
and the grace of the window under quarantine has stopped (R17). -/
def State.graceEnds (s : State) (w : Nat) : State :=
  if s.service = .faultHandling then
    if s.quarantined = some ⟨.window, w⟩ then s else s.graceRunsOut w
  else s.timer [⟨.window, w⟩] (State.graceRunsOut · w)

/-- GRACE_EXPIRY (R9, R17). -/
def execGraceExpiry (w : Nat) (s : State) : Result := .next (s.graceEnds w)

/-- END_OF_CHECK (R37). -/
def execEndOfCheck (s : State) : Result := .next s.checkEnds

/-- TUNE_TIMEOUT (R59, R64). -/
def execTuneTimeout (k : Nat) (s : State) : Result := .next (s.timer [⟨.station, k⟩] (State.tuneTimeout · k))

/-- WATCH_RUNS_OUT (R62). -/
def execWatchRunsOut (k : Nat) (s : State) : Result := .next (s.timer [⟨.station, k⟩] (State.watchRunsOut · k))

/-- RECOVERY (R70). -/
def execRecovery (k : Nat) (s : State) : Result := .next (s.timer [⟨.station, k⟩] (State.recover · k))

/-- CLEAN_AGE_PASSING_LINK_WATCH (R70). -/
def execCleanAgePassingLinkWatch (c : Nat) (s : State) : Result :=
  .next (s.timer [⟨.carrier, c⟩] (State.cleanAgePasses · c))

/-- CALL_TIMEOUT (R91). -/
def execCallTimeout (k : Nat) (s : State) : Result := .next (s.timer [⟨.station, k⟩] (State.callRunsOut · k))

/-- CUE_TIMEOUT (R120): the source word names the entry. -/
def execCueTimeout (k : Nat) (source : Word) (s : State) : Result :=
  match sourceOf source.toNat with
  | none => .next s
  | some src => .next (s.timer [⟨.station, k⟩] (State.cueRunsOut · k src))

/-! ## The tick: one millisecond of the time base (log 2) -/

/-- Put commands at the end of the queue. -/
def State.enqueue (s : State) (cs : List Instr) : State := { s with pending := s.pending ++ cs }

/-- A millisecond of a Closing window. -/
def Window.tick (w : Window) : Window := { w with grace := w.grace.map (· - 1) }

/-- A millisecond of a carrier: its clean age rises and stays at 60,000 (R19). -/
def Carrier.tick (y : Carrier) : Carrier := { y with cleanAge := y.cleanAge.map (fun a => min (a + 1) Config.oldestAge) }

/-- A millisecond of a watch. -/
def Watch.tick : Watch → Watch
  | .off => .off
  | .running ms => .running (ms + 1)
  | .runOut => .runOut

/-- A millisecond of a station's timers and ages. -/
def Station.tick (x : Station) : Station :=
  { x with
    tuneTimer := x.tuneTimer.map (· + 1)
    watch := x.watch.tick
    qualityAge := x.qualityAge.map (fun a => min (a + 1) Config.oldestAge)
    recoveryRun := x.recoveryRun.map (· + 1)
    callRemaining := x.callRemaining.map (· - 1)
    stack := x.stack.map (fun e => { e with remaining := e.remaining - 1 }) }

/-- The commands that are due at a station. No rule says which of the timers of one millisecond is taken first (R59, R62, R70,
R91, R120): the tune, the watch, the recovery run, the call, and then the cue entries from the bottom, the model's choice
(log 2). A watch that runs out so empties the stack before its Cue Timeout can be marked. -/
def Station.due (x : Station) (settings : Settings) (k : Nat) : List Instr :=
  (if Config.tuneTimeout ≤ x.tuneTimer.getD 0 then [.tuneTimeout k] else []) ++
    (match x.watch with | .running ms => if settings.linkWatch ≤ ms then [.watchRunsOut k] else [] | .off | .runOut => []) ++
    (match x.recoveryRun with
     | some ms => if settings.recoveryTime * 1000 ≤ ms then [.recovery k] else []
     | none => []) ++
    (if x.callRemaining = some 0 then [.callTimeout k] else []) ++
    ((x.stack.filter (fun e => e.remaining = 0)).map (fun e => .cueTimeout k (wordOf e.source.code)))

/-- The command that is due at a carrier: its clean age passes Link Watch while a recovery run of its station goes
on. -/
def State.carrierDue (s : State) (c : Nat) (y : Carrier) : List Instr :=
  match y.blockedStandbyOf with
  | none => []
  | some k =>
    if ((s.station k).bind Station.recoveryRun).isSome && s.settings.linkWatch < y.cleanAge.getD 0 then
      [.cleanAgePassingLinkWatch c]
    else []

/-- The command that is due at a window: its grace has run out; in Fault Handling the expiry waits (R17). -/
def State.windowDue (s : State) (w : Nat) (x : Window) : List Instr :=
  if s.service = .inService && x.grace = some 0 then [.graceExpiry w] else []

/-- The timers of a record run: it is not under quarantine. -/
def State.timersRun (s : State) (table : TableId) (k : Nat) : Bool := s.quarantined != some ⟨table, k⟩

/-- A millisecond of the records' timers in In Service and Fault Handling; those of the record under quarantine stand. -/
def State.timersTicked (s : State) : State :=
  { s with
    windows := s.windows.map (fun k w => if s.timersRun .window k then w.tick else w)
    carriers := s.carriers.map (fun k y => if s.timersRun .carrier k then y.tick else y)
    stations := s.stations.map (fun k x => if s.timersRun .station k then x.tick else x) }

/-- The commands of the records' timers that are due: windows, then stations, then carriers, each by ascending key. -/
def State.timersDue (s : State) : List Instr :=
  s.windows.records.flatMap (fun p => s.windowDue p.1 p.2) ++
    s.stations.records.flatMap (fun p => if s.timersRun .station p.1 then p.2.due s.settings p.1 else []) ++
    s.carriers.records.flatMap (fun p => if s.timersRun .carrier p.1 then s.carrierDue p.1 p.2 else [])

/-- A millisecond of the timers of the records, in In Service and Fault Handling. -/
def State.tickTimers (s : State) : State :=
  if s.running then s.timersTicked.enqueue s.timersTicked.timersDue else s

/-- A millisecond of the Show Clock, in every service state (R2). -/
def State.tickClock (s : State) : State :=
  if s.clock.unset then s
  else
    let t := { s with clock := { s.clock with phase := s.clock.phase + 1 } }
    if 1000 ≤ t.clock.phase then t.enqueue [.showClockAdvance] else t

/-- A record ceases to agree with its check code; a running save has gone on before it (R180; log 4, 8). -/
def State.upsetRecord (s : State) (r : RecordId) : State :=
  if s.holdsRecord r && !s.badCodes.contains r then
    let t := s.saveGoesOn
    { t with badCodes := t.badCodes ++ [r] }
  else s

/-- The record memory at a millisecond: a free value says which record, if any, it leaves damaged (log 4). -/
def State.tickUpset (s : State) : State :=
  let t := match Config.upset s.upsets with
    | some r => s.upsetRecord r
    | none => s
  { t with upsets := s.upsets + 1 }

/-- What the step does on an empty queue: one millisecond of the part's time base. SHOW_CLOCK_ADVANCE is put into the
queue before the timers of the same millisecond, so a minute change that reopens a window is taken before its grace
expiry; R9 allows either order, and this one is the model's choice (log 2). -/
def State.tick (s : State) : State := s.tickClock.tickTimers.tickUpset

end Sys2Proof.Machine
end

