-- ==== Sys2Proof/Machine/LineEvents.lean ====
section
/-! DEFINITION. The commands of the Studio Line: POLL, DISCOVER, DIRECTIVE_TURN, and the answered and missed ends of their transactions; and the unit orders SET MATRIX UNIT, FORGET UNIT, LINE RESET. -/

namespace Sys2Proof.Machine

/-! ## Transactions -/

/-- POLL (R143). -/
def execPoll (s : State) : Result := .next s.sendPoll

/-- DISCOVER (R143). -/
def execDiscover (s : State) : Result := .next s.sendDiscover

/-- DIRECTIVE_TURN (R142, R152). -/
def execDirectiveTurn (s : State) : Result := .next s.sendDirective

/-- A Poll is on the line and this frame matches it. -/
def State.pollAnswer (s : State) (bs : List Byte) : State :=
  match s.line with
  | none => s
  | some t =>
    match t.ask, t.matching bs with
    | .poll a, some f =>
      (s.endTransaction.reading Activity.item (unitReads a) (State.pollIsAnswered · a f)).afterLine
    | _, _ => s

/-- A Poll is on the line and its time has run out. -/
def State.pollMiss (s : State) : State :=
  match s.line with
  | none => s
  | some t =>
    match t.ask with
    | .poll a => s.endTransaction.unitEvent a Activity.timer (State.missPoll · a)
    | .discover _ | .directive _ _ _ _ => s

/-- A Discover is on the line and this frame matches it; a body is ignored (R144). -/
def State.discoverAnswer (s : State) (bs : List Byte) : State :=
  match s.line with
  | none => s
  | some t =>
    match t.ask, t.matching bs with
    | .discover a, some f => s.endTransaction.unitEvent a Activity.directive (State.unitFound · a f.kind)
    | _, _ => s

/-- A Discover is on the line and its time has run out: it changes nothing (R144). -/
def State.discoverMiss (s : State) : State :=
  match s.line with
  | none => s
  | some t =>
    match t.ask with
    | .discover _ => s.endTransaction.afterLine
    | .poll _ | .directive _ _ _ _ => s

/-- A directive is on the line and this frame matches it: it is the directive's acknowledgement, whatever its kind byte
and its body (R141, R152; log 13). -/
def State.directiveAnswer (s : State) (bs : List Byte) : State :=
  match s.line with
  | none => s
  | some t =>
    match t.ask, t.matching bs with
    | .directive a kind target c, some _ =>
      s.endTransaction.unitEvent a Activity.directive (State.directiveDone · a kind target c)
    | _, _ => s

/-- A directive is on the line and its time has run out. -/
def State.directiveMiss (s : State) : State :=
  match s.line with
  | none => s
  | some t =>
    match t.ask with
    | .directive a kind target _ => s.endTransaction.unitEvent a Activity.timer (State.directiveMissed · a kind target)
    | .poll _ | .discover _ => s

/-- POLL_ANSWERED (R145, R147, R148). -/
def execPollAnswered (bs : List Byte) (s : State) : Result := .next (s.pollAnswer bs)

/-- POLL_MISSED (R145). -/
def execPollMissed (s : State) : Result := .next s.pollMiss

/-- DISCOVER_ANSWERED (R144). -/
def execDiscoverAnswered (bs : List Byte) (s : State) : Result := .next (s.discoverAnswer bs)

/-- DISCOVER_MISSED (R144). -/
def execDiscoverMissed (s : State) : Result := .next s.discoverMiss

/-- ACKNOWLEDGEMENT (R152). -/
def execAcknowledgement (bs : List Byte) (s : State) : Result := .next (s.directiveAnswer bs)

/-- ACKNOWLEDGEMENT_MISSED (R152). -/
def execAcknowledgementMissed (s : State) : Result := .next s.directiveMiss

/-! ## SET MATRIX UNIT (R154) -/

/-- The routing and cue route deliveries, in the scan's order. -/
def matrixKeys : List (DeliveryKind × Nat) :=
  (upTo 24).map (fun k => (.routing, k)) ++ (upTo 96).map (fun k => (.cueRoute, k))

/-- The entry delivers a routing or a cue route. -/
def Entry.forMatrix (e : Entry) : Bool := e.kind = .routing || e.kind = .cueRoute

/-- The delivery is a routing or a cue route. -/
def Final.forMatrix (f : Final) : Bool := f.kind = .routing || f.kind = .cueRoute

/-- The TKM unit changes (R154): the old unit's Queued entries go and its Sent ones are detached, the delivered states
are undelivered, every delivery is decided for the new unit, and the notice of the TKM unit's loss is given. -/
def State.changeMatrix (s : State) (u : Option Nat) : State :=
  let t := { s with
    settings := { s.settings with matrixUnit := u }
    stations := s.stations.map (fun _ x => { x with deliveredRoute := none, cueBase := .waiting })
    conferences := s.conferences.map (fun _ c => { c with deliveredRouting := none, routingBase := .waiting })
    finals := s.finals.map (fun (f : Final) => if f.forMatrix then { f with delivered := none, base := .waiting } else f) }
  let t := t.withdraw (fun e => e.forMatrix && !e.detached)
  let t := t.forEach matrixKeys (fun t p => t.decideDelivery p.1 p.2)
  t.partChanged.matrixLost

/-- SET MATRIX UNIT (Part action 22). -/
def State.setMatrixUnit (s : State) (o : Order) : State :=
  let u := fieldOption o.params 0
  s.takeOrder o (Activity.order .part 22) (o.params.length = 1) (s.orderReads o [⟨.part, 0⟩])
    [s.lacks o .plan 1,
      failIf (!optionIn 1 32 (o.params.getD 0 0#16)) .range 2,
      failIf (s.saving && u != s.settings.matrixUnit) .state 3]
    (fun t => (if u = t.settings.matrixUnit then t else t.changeMatrix u, doneReply o))

/-- SET_MATRIX_UNIT (R154). -/
def execSetMatrixUnit (o : Order) (s : State) : Result := .next (s.setMatrixUnit o)

/-! ## FORGET UNIT (R155) -/

/-- A unit is forgotten (R155): Absent, no kind, no missed polls; its Stale deliveries wait, its final deliveries
go. -/
def State.forget (s : State) (a : Nat) : State :=
  let t := s.modUnit a (fun u => { u with kind := none, state := .absent, missed := 0 })
  (t.dropFinalsTo a).forEach deliveryKeys (fun t p =>
    match t.delivery p.1 p.2 with
    | some d => if d.destination = some a && d.base = .stale then t.setBase p.1 p.2 .waiting else t
    | none => t)

/-- FORGET UNIT (Unit action 16). -/
def State.forgetUnit (s : State) (o : Order) : State :=
  let a := keyOf o
  s.takeOrder o (Activity.order .unit 16) (o.params.length = 0) (s.orderReads o [⟨.unit, a⟩])
    [s.lacks o .plan 1,
      failIf (!(1 ≤ a && a ≤ 32)) .key 1,
      failIf (s.unitState a != .lost) .state 1]
    (fun t => (t.forget a, doneReply o))

/-- FORGET_UNIT (R155). -/
def execForgetUnit (o : Order) (s : State) : Result := .next (s.forgetUnit o)

/-! ## LINE RESET (R156) -/

/-- A delivery base after LINE RESET: every entry is gone, so a delivery that is not Current waits. A delivery whose
entry stood for it has the base waiting. -/
def DeliveryBase.lineReset : DeliveryBase → DeliveryBase
  | .current => .current
  | .waiting | .stale => .waiting

/-- The line restarts (R156). -/
def State.resetLine (s : State) : State :=
  let t := { s with
    line := none
    units := List.replicate 32 LineUnit.reset
    queue := []
    stations := s.stations.map (fun _ x =>
      { x with tuneBase := x.tuneBase.lineReset, lampBase := x.lampBase.lineReset, cueBase := x.cueBase.lineReset })
    conferences := s.conferences.map (fun _ c => { c with routingBase := c.routingBase.lineReset })
    finals := s.finals.map (fun (f : Final) => { f with base := .waiting })
    round := []
    lastDiscover := 0
    turn := .poll }
  (t.emptySets (fun _ => true)).matrixLost

/-- LINE RESET (Unit action 17). -/
def State.lineReset (s : State) (o : Order) : State :=
  s.takeOrder o (Activity.order .unit 17) (o.params.length = 0)
    (fun r => r.table != .window && r.table != .carrier)
    [s.lacks o .plan 1]
    (fun t => (t.resetLine, doneReply o))

/-- LINE_RESET (R156). -/
def execLineReset (o : Order) (s : State) : Result := .next (s.lineReset o)

end Sys2Proof.Machine
end

