-- ==== Sys2Proof/Machine/Read.lean ====
section
/-! DEFINITION. READ on every table, READ PART, READ ATTENTION and NEXT MARKED (chapter 9). -/

namespace Sys2Proof.Machine

/-- A field number and its word. -/
abbrev FieldWord := Nat × Word

/-- Number some words from a field number on. -/
def numbered (start : Nat) (ws : List Word) : List FieldWord := ws.zipIdx.map (fun p => (start + p.2, p.1))

/-- The words of a frequency field that may be none. -/
def frequencyWords (f : Option Nat) : List Word :=
  match f with
  | some n => wideWords n
  | none => [noneWord, noneWord]

/-- Some numbers in so many words, unused words none. -/
def paddedWords (n : Nat) (xs : List Nat) : List Word := (xs.map wordOf ++ List.replicate n noneWord).take n

/-- Whole seconds left, rounded up. -/
def secondsLeft (ms : Nat) : Nat := (ms + 999) / 1000

/-- Fields 1 to 22 of a window; a grace that is left counts down to 1 (R7). -/
def windowFields (w : Window) : List FieldWord :=
  numbered 1 (windowWords w ++ [wordOf w.state.code,
    wordOfOption (if w.state = .closing then w.grace.map (fun g => max 1 (secondsLeft g)) else none),
    wordOfOption w.claim])

/-- Fields 1 to 20 of a carrier. -/
def State.carrierFields (s : State) (c : Nat) (y : Carrier) : List FieldWord :=
  numbered 1 (carrierWords y ++ [wordOf y.state.code, wordOfOption (y.bound.map (·.1)),
    wordOfOption (y.bound.map (·.2.code)), wordOfOption (s.checkPlace c),
    wordOfOption (y.conflict.map (·.1.code))] ++ paddedWords 4 ((y.conflict.map (·.2)).getD []) ++
    [wordOfOption y.alternate, wordOfOption y.cleanScore, wordOfOption y.cleanAge, wordOfBool y.restorePending,
      wordOfOption y.claim])

/-- The four words of a cue entry. -/
def cueEntryWords (e : Option CueEntry) : List Word :=
  match e with
  | none => [noneWord, noneWord, noneWord, noneWord]
  | some e => [wordOf e.source.code, wordOf e.level.code, wordOfBool e.saved, wordOf (secondsLeft e.remaining)]

/-- The three words of a lamp. -/
def lampWords (l : Option Lamp) : List Word :=
  match l with
  | none => [noneWord, noneWord, noneWord]
  | some l => [wordOf l.level.code, wordOfBool l.flash, wordOfBool l.call]

/-- The three words of a delivered lamp, 4 for Unknown. -/
def deliveredLampWords (l : Option Lamp) : List Word :=
  match l with
  | none => [4#16, noneWord, noneWord]
  | some l => lampWords (some l)

/-- The word of a delivered cue route, 0xFFFE for Unknown. -/
def routeWord (r : Option (Option Source)) : Word :=
  match r with
  | none => 0xFFFE#16
  | some x => sourceWord x

/-- Fields 12 to 32 of a station. -/
def State.linkFields (s : State) (k : Nat) (x : Station) : List Word :=
  [wordOfOption x.primary, wordOfOption x.standby, wordOf x.link.code, wordOfOption (x.switchKind.map SwitchKind.code),
    (match x.blockOutgoing with | some b => wordOfBool b | none => noneWord), wordOf x.token, wordOf x.attempts,
    wordOfOption x.quality, wordOfOption x.qualityAge, wordOfBool x.inhibit,
    wordOfOption (x.recoveryRun.map (· / 1000))] ++
    frequencyWords x.wanted.frequency ++ [wordOf x.wanted.power, wordOfBool x.wanted.muted,
    wordOf ((s.deliveryCode .tune k).getD 0)] ++ frequencyWords (x.delivered.bind Tune.frequency) ++
    [wordOfOption (x.delivered.map Tune.power),
      (match x.delivered with | some t => wordOfBool t.muted | none => noneWord), wordOfOption x.claim]

/-- Fields 33 to 43 of a station. Field 34 holds gallery n at bit n - 1: which bit is "flag n" is the model's reading (log
35). -/
def State.tallyFields (s : State) (k : Nat) (x : Station) : List Word :=
  [wordOf x.tally.code, flagWord 1 x.contributing] ++ lampWords x.lamp ++
    [wordOfOption (x.call.map CallKind.code), wordOfOption x.callRemaining, wordOfOption (s.deliveryCode .lamp k)] ++
    deliveredLampWords x.deliveredLamp

/-- Fields 44 to 56 of a station: a Camera's and a Mic's read none. -/
def State.cueFields (s : State) (k : Nat) (x : Station) : List Word :=
  if x.kind.hasCue then
    [wordOfBool x.accept, wordOf x.stack.length] ++ cueEntryWords x.stack[0]? ++ cueEntryWords x.stack[1]? ++
      [sourceWord x.cueRoute, wordOfOption (s.deliveryCode .cueRoute k), routeWord x.deliveredRoute]
  else List.replicate 13 noneWord

/-- Fields 1 to 56 of a station. -/
def State.stationFields (s : State) (k : Nat) (x : Station) : List FieldWord :=
  numbered 1 (stationWords x ++ s.linkFields k x ++ s.tallyFields k x ++ s.cueFields k x)

/-- Fields 1 to 8 and 16 to 57 of a gallery. -/
def galleryFields (g : Gallery) : List FieldWord :=
  numbered 1 ((galleryWords g).take 8) ++ numbered 16 ((galleryWords g).drop 8 ++ [wordOfBool g.live] ++
    paddedWords 4 g.program ++ paddedWords 4 g.preview ++ [wordOfOption g.claim])

/-- The claims of every claimable record. -/
def State.claims (s : State) : List Nat :=
  s.windows.records.filterMap (fun p => p.2.claim) ++ s.carriers.records.filterMap (fun p => p.2.claim) ++
    s.stations.records.filterMap (fun p => p.2.claim) ++ s.galleries.records.filterMap (fun p => p.2.claim) ++
    s.conferences.records.filterMap (fun p => p.2.claim)

/-- The number of records whose claim names an operator (R137). -/
def State.claimsHeld (s : State) (op : Nat) : Nat := (s.claims.filter (· = op)).length

/-- Fields 1 to 4 of an operator. -/
def State.operatorFields (s : State) (n : Nat) : List FieldWord :=
  numbered 1 ((s.operatorAt n).words ++ [wordOf (s.claimsHeld n), wordOfBool (s.freezeHolder = some n)])

/-- Fields 1 to 7 of a unit: fields 4 to 6 describe its Sent entry, field 7 counts its entries (8.2). -/
def State.unitFields (s : State) (a : Nat) (u : LineUnit) : List FieldWord :=
  let mine := s.queue.filter (fun e => e.unit = a)
  let sent := mine.find? Entry.sent
  numbered 1 [wordOfOption (u.kind.map UnitKind.code), wordOf u.state.code, wordOf u.missed,
    wordOfOption (sent.map (fun e => e.kind.code)), wordOfOption (sent.map Entry.target),
    wordOf ((sent.map Entry.attempts).getD 0), wordOf mine.length]

/-- The flags of the store states (Part field 4). -/
def StoreStates.word (x : StoreStates) : Word :=
  wordOf ((if x.window then 1 else 0) + (if x.carrier then 2 else 0) + (if x.station then 4 else 0) +
    (if x.gallery then 8 else 0) + (if x.conference then 16 else 0) + (if x.operator then 32 else 0) +
    (if x.part then 64 else 0))

/-- Part fields 3 to 35. -/
def State.partMiddle (s : State) : List Word :=
  [wordOfBool s.storeStates.summary, s.storeStates.word, wordOfBool s.saving, wordOf s.storeOutcome,
    wordOfOption s.freezeHolder, wordOfBool s.clock.unset, wordOf s.clock.year, wordOf s.clock.month, wordOf s.clock.day,
    wordOf s.clock.dayOfWeek] ++ wideWords s.clock.second ++ settingsWords s.settings ++
    [wordOf s.checkQueue.length, wordOfOption (s.engine.map Check.carrier), wordOf s.queue.length]

/-- The Part record is damaged. -/
def State.partBad (s : State) : Bool := s.badCodes.contains ⟨.part, 0⟩

/-- Part fields 1 to 38; the fields that the damaged record held read none (R180). The snapshot of a damaged Part record,
which has no key (9.6), reads key 0 in field 37: the model's choice (log 43). -/
def State.partFields (s : State) : List FieldWord :=
  numbered 1 ([wordOf s.service.code, wordOf s.startCode] ++
    (if s.partBad then List.replicate 33 noneWord else s.partMiddle) ++
    [wordOfOption (s.snapshot.map (fun x => x.record.table.selector)), wordOfOption (s.snapshot.map (fun x => x.record.key)),
      wordOfOption (s.snapshot.map Snapshot.activity)])

/-! ## READ (R165) -/

/-- The start field that a READ names, if it names one. -/
def startField (ws : List Word) : Option Nat := ws.head?.map BitVec.toNat

/-- The start field is not a field of the record. -/
def badStart (fields : List FieldWord) (ws : List Word) : Bool :=
  match startField ws with
  | none => false
  | some n => !fields.any (fun f => f.1 = n)

/-- The words from the start field onward, up to 40. -/
def wordsFrom (fields : List FieldWord) (ws : List Word) : List Word :=
  ((fields.filter (fun f => (startField ws).getD 0 ≤ f.1)).map (·.2)).take 40

/-- READ of a record, given its fields; none: the key names no record. -/
def State.readFields (s : State) (table : TableId) (o : Order) (fields : Option (List FieldWord)) : State :=
  s.takeOrder o (Activity.order table 4) (o.params.length ≤ 1) (fun r => r = ⟨table, keyOf o⟩)
    [failIf fields.isNone .key 1, failIf (badStart (fields.getD []) o.params) .range 1]
    (fun t => (t, doneWith o (wordsFrom (fields.getD []) o.params)))

/-! ## READ CONFERENCE (5.1) -/

/-- The words of a part of a conference. -/
def State.conferencePart (s : State) (c : Nat) (x : Conference) (part : Nat) : List Word :=
  match part with
  | 0 =>
    x.label ++ [wordOf x.members.length, wordOf x.talkers.length, wordOf x.waiting.length,
      wordOfOption (s.deliveryCode .routing c), wordOfOption x.claim]
  | 1 => x.members.flatMap (fun m => [wordOf m.id.code, m.attributes])
  | _ =>
    wordOf x.talkers.length :: x.talkers.map (fun t => wordOf t.code) ++
      (wordOf x.waiting.length :: x.waiting.map wordOf)

/-- READ CONFERENCE. -/
def State.readConference (s : State) (o : Order) : State :=
  let c := keyOf o
  let part := fieldNat o.params 0
  s.takeOrder o (Activity.order .conference 4) (o.params.length = 1) (fun r => r = ⟨.conference, c⟩)
    [failIf (s.conference c).isNone .key 1, failIf (2 < part) .range 2]
    (fun t =>
      (t, doneWith o (match t.conference c with | some x => t.conferencePart c x part | none => [])))

/-! ## READ PART (R170, R180) -/

/-- READ PART: taken in every service state. A failing code of the Part record halts the part, or is found in Halted, and
the order is answered all the same (R183). That its fields are then read after the halt, so that field 1 reads Halted, and
that an order refused for its start field has not read the record, are the model's choices (log 36). -/
def State.readPart (s : State) (o : Order) : State :=
  s.gate o (Activity.order .part 4) (o.params.length ≤ 1) none (fun _ => false)
    [failIf (badStart s.partFields o.params) .range 1]
    (fun t =>
      let u := if t.partBad then
          State.halt { t with port := .idle } ⟨.part, 0⟩ (Activity.order .part 4) else t
      u.answer (doneWith o (wordsFrom u.partFields o.params)))

/-- READ on a table. -/
def State.readTable (s : State) (table : TableId) (o : Order) : State :=
  let k := keyOf o
  match table with
  | .window => s.readFields table o ((s.window k).map windowFields)
  | .carrier => s.readFields table o ((s.carrier k).map (s.carrierFields k))
  | .station => s.readFields table o ((s.station k).map (s.stationFields k))
  | .gallery => s.readFields table o ((s.gallery k).map galleryFields)
  | .operator => s.readFields table o (if k < 8 then some (s.operatorFields k) else none)
  | .unit => s.readFields table o ((s.unitAt k).map (s.unitFields k))
  | .conference => s.readConference o
  | .part => s.readPart o

/-- READ (R165). -/
def execRead (table : TableId) (o : Order) (s : State) : Result := .next (s.readTable table o)

/-- READ_CONFERENCE (5.1). -/
def execReadConference (o : Order) (s : State) : Result := .next (s.readConference o)

/-- READ_PART (R170). -/
def execReadPart (o : Order) (s : State) : Result := .next (s.readPart o)

/-! ## READ ATTENTION (R169) -/

/-- The mask word of a READ ATTENTION sets a bit outside bits 0 to 5 and 8 to 11. -/
def maskBad (ws : List Word) : Bool :=
  match ws.head? with
  | none => false
  | some w => w ||| Config.fullMask != Config.fullMask

/-- READ ATTENTION (Part action 23). -/
def State.readAttention (s : State) (o : Order) : State :=
  s.takeOrder o (Activity.order .part 23) (o.params.length ≤ 1) (fun r => r = ⟨.part, 0⟩)
    [failIf (maskBad o.params) .range 2]
    (fun t =>
      let mask := o.params.head?.getD t.mask
      ({ t with mask := mask, latched := if o.clear then Latched.none else t.latched },
        doneWith o [t.attentionWord, mask]))

/-- READ_ATTENTION (R169). -/
def execReadAttention (o : Order) (s : State) : Result := .next (s.readAttention o)

/-! ## NEXT MARKED (R167) -/

/-- The lowest key of a table whose record or slot is marked, with the mark. -/
def Table.firstMarked {α : Type} (t : Table α) (mark : α → List Nat) : Option (Nat × List Nat) :=
  t.slots.findSome? (fun p =>
    let m := match p.2 with | .held r => mark r | .damaged m => m
    if m.isEmpty then none else some (p.1, m))

/-- Clear the mark of a record or a Damaged slot; the slot stays Damaged (R182). -/
def Table.clearMark {α : Type} (t : Table α) (k : Nat) (clear : α → α) : Table α :=
  match t.slot k with
  | some (.held r) => t.put k (clear r)
  | some (.damaged _) => t.damage k []
  | none => t

/-- The lowest marked key of a table, with the mark; the Operator and Part tables have no marks. -/
def State.firstMarked (s : State) (table : TableId) : Option (Nat × List Nat) :=
  match table with
  | .window => s.windows.firstMarked Window.mark
  | .carrier => s.carriers.firstMarked Carrier.mark
  | .station => s.stations.firstMarked Station.mark
  | .gallery => s.galleries.firstMarked Gallery.mark
  | .conference => s.conferences.firstMarked Conference.mark
  | .unit =>
    (upTo 32).findSome? (fun a =>
      match s.unitAt a with
      | some u => if u.mark.isEmpty then none else some (a, u.mark)
      | none => none)
  | .operator | .part => none

/-- Clear a mark. -/
def State.clearMark (s : State) (table : TableId) (k : Nat) : State :=
  match table with
  | .window => { s with windows := s.windows.clearMark k (fun x => { x with mark := [] }) }
  | .carrier => { s with carriers := s.carriers.clearMark k (fun x => { x with mark := [] }) }
  | .station => { s with stations := s.stations.clearMark k (fun x => { x with mark := [] }) }
  | .gallery => { s with galleries := s.galleries.clearMark k (fun x => { x with mark := [] }) }
  | .conference => { s with conferences := s.conferences.clearMark k (fun x => { x with mark := [] }) }
  | .unit => s.modUnit k (fun x => { x with mark := [] })
  | .operator | .part => s

/-- A verb that the table does not take: MALFORMED, detail 6 (R164). -/
def State.noVerb (s : State) (o : Order) : State :=
  s.gate o 0 true none (fun _ => false) [failIf true .malformed 6] id

/-- The table has marks (R164). -/
def hasMarks (table : TableId) : Bool :=
  match table with
  | .window | .carrier | .station | .gallery | .conference | .unit => true
  | .operator | .part => false

/-- What NEXT MARKED reads: the records of its table up to the one that it returns, whose marks it tests in turn (R167). -/
def State.markReads (s : State) (table : TableId) (r : RecordId) : Bool :=
  r.table = table && (match s.firstMarked table with | some p => r.key ≤ p.1 | none => true)

/-- NEXT MARKED (verb 7). -/
def State.nextMarked (s : State) (table : TableId) (o : Order) : State :=
  if hasMarks table then
    s.takeOrder o (Activity.order table 7) (o.params.length = 0)
      (s.markReads table) []
      (fun t =>
        match t.firstMarked table with
        | none => (t, ⟨.done, 0, 0#16, []⟩)
        | some (k, m) => (t.clearMark table k, ⟨.done, 0, wordOf k, m.map wordOf⟩))
  else s.noVerb o

/-- NEXT_MARKED (R167). -/
def execNextMarked (table : TableId) (o : Order) (s : State) : Result := .next (s.nextMarked table o)

end Sys2Proof.Machine
end

