-- ==== Sys2Proof/Machine/Operators.lean ====
section
/-! DEFINITION. Claims, the plan freeze and the operator orders (chapter 7). -/

namespace Sys2Proof.Machine

/-! ## Claims (R133 to R135) -/

/-- The claim of a record: none when the key names no record. -/
def State.claimAt (s : State) (table : TableId) (k : Nat) : Option (Option Nat) :=
  match table with
  | .window => (s.window k).map Window.claim
  | .carrier => (s.carrier k).map Carrier.claim
  | .station => (s.station k).map Station.claim
  | .gallery => (s.gallery k).map Gallery.claim
  | .conference => (s.conference k).map Conference.claim
  | .operator | .unit | .part => none

/-- Set the claim of a record. -/
def State.setClaim (s : State) (table : TableId) (k : Nat) (c : Option Nat) : State :=
  match table with
  | .window => s.modWindow k (fun x => { x with claim := c })
  | .carrier => s.modCarrier k (fun x => { x with claim := c })
  | .station => s.modStation k (fun x => { x with claim := c })
  | .gallery => s.modGallery k (fun x => { x with claim := c })
  | .conference => s.modConference k (fun x => { x with claim := c })
  | .operator | .unit | .part => s

/-- Add reason Claim Lost to a record. -/
def State.markClaimLost (s : State) (table : TableId) (k : Nat) : State :=
  match table with
  | .window => s.markWindow k WindowReason.claimLost
  | .carrier => s.markCarrier k CarrierReason.claimLost
  | .station => s.markStation k StationReason.claimLost
  | .gallery => s.markGallery k GalleryReason.claimLost
  | .conference => s.markConference k ConferenceReason.claimLost
  | .operator | .unit | .part => s

/-- The right that changes a table's records, with its detail (R131). -/
def changeRight (table : TableId) : Right × Nat :=
  match table with
  | .window => (.plan, 1)
  | .carrier => (.carrier, 2)
  | .station => (.station, 4)
  | .gallery => (.gallery, 5)
  | .conference => (.talkback, 6)
  | .operator | .unit | .part => (.rights, 7)

/-- A window 1 to 16 is not in the operator's mask (NOT PERMITTED, detail 3); a number that names no window is left to
the RANGE test (log 27). -/
def State.maskRefuses (s : State) (o : Order) (window : Option Nat) : Bool :=
  match window with
  | some w => 1 ≤ w && w ≤ 16 && !s.permitsWindow o.operator.val w
  | none => false

/-- The window mask test of a carrier that exists (R131). -/
def State.carrierMask (s : State) (o : Order) (c : Nat) : Check1 :=
  failIf (match s.carrier c with | some y => s.maskRefuses o y.window | none => false) .notPermitted 3

/-- The table has claims (7.5). -/
def hasClaims (table : TableId) : Bool :=
  match table with
  | .window | .carrier | .station | .gallery | .conference => true
  | .operator | .unit | .part => false

/-- Another operator's number in the claim of the record. -/
def otherHolder (o : Order) (claim : Option (Option Nat)) : Option Nat :=
  match claim.join with
  | some h => if h = o.operator.val then none else some h
  | none => none

/-- CLAIM (verb 5). -/
def State.claimRecord (s : State) (table : TableId) (o : Order) : State :=
  let k := keyOf o
  let other := otherHolder o (s.claimAt table k)
  if hasClaims table then
    s.takeOrder o (Activity.order table 5) (o.params.length = 0)
      (fun r => r = ⟨.operator, o.operator.val⟩ || r = ⟨table, k⟩)
      [s.lacks o (changeRight table).1 (changeRight table).2,
        (if table = .carrier then s.carrierMask o k else failIf false .notPermitted 3),
        failIf (s.claimAt table k).isNone .key 1,
        (other.isSome && !s.steals o, ⟨.held, 1, [wordOf (other.getD 0)]⟩)]
      (fun t =>
        let u := t.setClaim table k (some o.operator.val)
        match other with
        | some h => (u.markClaimLost table k, doneWith o [wordOf h])
        | none => (u, doneReply o))
  else s.noVerb o

/-- RELEASE (verb 6). -/
def State.releaseRecord (s : State) (table : TableId) (o : Order) : State :=
  let k := keyOf o
  let other := otherHolder o (s.claimAt table k)
  if hasClaims table then
    s.takeOrder o (Activity.order table 6) (o.params.length = 0)
      (fun r => r = ⟨.operator, o.operator.val⟩ || r = ⟨table, k⟩)
      [failIf (other.isSome && !s.forced o) .notPermitted 9,
        failIf (s.claimAt table k).isNone .key 1,
        failIf ((s.claimAt table k).join).isNone .state 30]
      (fun t =>
        let u := t.setClaim table k none
        (if other.isSome then u.markClaimLost table k else u, doneReply o))
  else s.noVerb o

/-- CLAIM (R133, R134). -/
def execClaim (table : TableId) (o : Order) (s : State) : Result := .next (s.claimRecord table o)

/-- RELEASE (R135). -/
def execRelease (table : TableId) (o : Order) (s : State) : Result := .next (s.releaseRecord table o)

/-! ## RELEASE ALL (R136) -/

/-- The claimable tables. -/
def claimTables : List TableId := [.window, .carrier, .station, .gallery, .conference]

/-- The records of a table whose claim names an operator. -/
def State.claimedBy (s : State) (op : Nat) (table : TableId) : List Nat :=
  (match table with
    | .window => s.windows.keys
    | .carrier => s.carriers.keys
    | .station => s.stations.keys
    | .gallery => s.galleries.keys
    | .conference => s.conferences.keys
    | .operator | .unit | .part => []).filter (fun k => s.claimAt table k = some (some op))

/-- Give up every claim of an operator; lost: each record gets Claim Lost. -/
def State.dropClaims (s : State) (op : Nat) (lost : Bool) : State :=
  s.forEach claimTables (fun s table =>
    s.forEach (s.claimedBy op table) (fun s k =>
      let u := s.setClaim table k none
      if lost then u.markClaimLost table k else u))

/-- RELEASE ALL (Operator action 16). It reads its operator, the keyed operator, and every record of the claimable tables,
whose claims it tests, and not the Part record: the model's choice (log 5). -/
def State.releaseAll (s : State) (o : Order) : State :=
  let op := keyOf o
  let own := op = o.operator.val
  s.takeOrder o (Activity.order .operator 16) (o.params.length = 0)
    (fun r => r = ⟨.operator, o.operator.val⟩ || r = ⟨.operator, op⟩ || hasClaims r.table)
    [failIf (op ≤ 7 && !own && !s.forced o) .notPermitted 9, failIf (!(op ≤ 7)) .key 1]
    (fun t => (t.dropClaims op (!own), doneWith o [wordOf (t.claimsHeld op)]))

/-- RELEASE_ALL (R136). -/
def execReleaseAll (o : Order) (s : State) : Result := .next (s.releaseAll o)

/-! ## The plan freeze (R138, R139) -/

/-- FREEZE PLAN (Part action 20): another operator's freeze refuses it, Force or not. -/
def State.freezePlan (s : State) (o : Order) : State :=
  let other := otherHolder o (some s.freezeHolder)
  s.takeOrder o (Activity.order .part 20) (o.params.length = 0) (s.orderReads o [])
    [s.lacks o .plan 1, (other.isSome, ⟨.held, 2, [wordOf (other.getD 0)]⟩)]
    (fun t => ({ t with freezeHolder := some o.operator.val }, doneReply o))

/-- THAW PLAN (Part action 21). -/
def State.thawPlan (s : State) (o : Order) : State :=
  let other := otherHolder o (some s.freezeHolder)
  s.takeOrder o (Activity.order .part 21) (o.params.length = 0) (s.orderReads o [])
    [s.lacks o .plan 1, failIf (other.isSome && !s.forced o) .notPermitted 9,
      failIf s.freezeHolder.isNone .state 2]
    (fun t =>
      ({ t with freezeHolder := none },
        match other with | some h => doneWith o [wordOf h] | none => doneReply o))

/-- FREEZE_PLAN (R138). -/
def execFreezePlan (o : Order) (s : State) : Result := .next (s.freezePlan o)

/-- THAW_PLAN (R139). -/
def execThawPlan (o : Order) (s : State) : Result := .next (s.thawPlan o)

/-! ## Operator records (R130) -/

/-- EDIT OPERATOR: pairs of fields 1 and 2. An EDIT that leaves every value as it was changes nothing (log 29). -/
def State.editOperator (s : State) (o : Order) : State :=
  let n := keyOf o
  let ps := pairsOf o.params
  let ws := applyPairs (fieldIndex 2) (s.operatorAt n).words ps
  s.takeOrder o (Activity.order .operator 2) (evenCount 2 16 o.params) (s.orderReads o [⟨.operator, n⟩])
    [s.lacks o .rights 7,
      failIf (!(n ≤ 7)) .key 1,
      s.freezeHold o,
      s.saveHold,
      failIf (badField (fieldIndex 2) ps) .range 1,
      failIf (255 < fieldNat ws 0) .range 2,
      failIf (n = 0) .state 1]
    (fun t =>
      (if operatorOfWords ws = t.operatorAt n then t
        else State.operatorChanged { t with operators := t.operators.set n (operatorOfWords ws) }, doneReply o))

/-- DEFINE OPERATOR: always refused. -/
def State.defineOperator (s : State) (o : Order) : State :=
  let n := keyOf o
  s.takeOrder o (Activity.order .operator 1) (evenCount 0 16 o.params) (s.orderReads o [⟨.operator, n⟩])
    [s.lacks o .rights 7, failIf (!(n ≤ 7)) .key 1, failIf true .key 2]
    (fun t => (t, doneReply o))

/-- RETIRE OPERATOR: always refused. -/
def State.retireOperator (s : State) (o : Order) : State :=
  let n := keyOf o
  s.takeOrder o (Activity.order .operator 3) (o.params.length = 0) (s.orderReads o [⟨.operator, n⟩])
    [s.lacks o .rights 7, failIf (!(n ≤ 7)) .key 1, failIf true .state 2]
    (fun t => (t, doneReply o))

/-- EDIT_OPERATOR (R130). -/
def execEditOperator (o : Order) (s : State) : Result := .next (s.editOperator o)

/-- DEFINE_OPERATOR (R130). -/
def execDefineOperator (o : Order) (s : State) : Result := .next (s.defineOperator o)

/-- RETIRE_OPERATOR (R130). -/
def execRetireOperator (o : Order) (s : State) : Result := .next (s.retireOperator o)

end Sys2Proof.Machine
end

