-- ==== Sys2Proof/Machine/WindowOrders.lean ====
section
/-! DEFINITION. The orders on windows, and SET CLOCK (chapter 1). -/

namespace Sys2Proof.Machine

/-- The key lies in the Window Table's range. -/
def windowKey (k : Nat) : Bool := 1 ≤ k && k ≤ 16

/-- The range tests of a window's words (R12). -/
def windowRange (ps : List (Nat × Word)) (ws : List Word) : List Check1 :=
  [failIf (badField (fieldIndex 19) ps) .range 1,
    failIf (windowRangeBad ws) .range 2,
    failIf (labelBad ws) .range 3,
    failIf (edgesBad ws) .range 4]

/-- The grace of a window's words is not a multiple of 5 (DONE-ADJUSTED, detail 1). -/
def graceRounded (ws : List Word) : Bool := legalGrace (fieldNat ws 18) != fieldNat ws 18

/-- DEFINE WINDOW (R13). -/
def State.defineWindow (s : State) (o : Order) : State :=
  let k := keyOf o
  let ps := pairsOf o.params
  let ws := applyPairs (fieldIndex 19) windowDefaults ps
  s.takeOrder o (Activity.order .window 1) (evenCount 0 16 o.params) (s.orderReads o [⟨.window, k⟩])
    ([s.lacks o .plan 1,
      failIf (!windowKey k) .key 1,
      failIf (s.window k).isSome .key 2,
      s.freezeHold o,
      s.saveHold] ++ windowRange ps ws)
    (fun t =>
      ((State.windowChanged { t with windows := t.windows.put k (Window.blank.withWords ws) }).evaluate true [k],
        adjustedReply o (graceRounded ws) 1))

/-- The committed carriers that name a window. -/
def State.committedIn (s : State) (w : Nat) : List Carrier :=
  (s.carriers.records.map (·.2)).filter (fun y => y.state.committed && y.window = some w)

/-- EDIT WINDOW (R14, R15). It tests every committed carrier, so it reads the carriers. -/
def State.editWindow (s : State) (o : Order) : State :=
  let k := keyOf o
  let ps := pairsOf o.params
  let old := (s.window k).getD Window.blank
  let ws := applyPairs (fieldIndex 19) (windowWords old) ps
  let new := old.withWords ws
  s.takeOrder o (Activity.order .window 2) (evenCount 2 16 o.params)
    (fun r => s.orderReads o [⟨.window, k⟩] r || r.table = .carrier)
    ([s.lacks o .plan 1,
      failIf (s.window k).isNone .key 1,
      claimHold o old.claim,
      s.freezeHold o,
      s.saveHold] ++ windowRange ps ws ++
      [failIf ((new.lowEdge != old.lowEdge || new.highEdge != old.highEdge) && !(s.committedIn k).isEmpty) .state 1,
        failIf ((s.committedIn k).any (fun y => classAllowed old.classes y.cls && !classAllowed new.classes y.cls))
          .state 2])
    (fun t =>
      ((State.windowChanged { t with windows := t.windows.put k new }).evaluate true [k],
        adjustedReply o (graceRounded ws) 1))

/-- A carrier record names a window. -/
def State.windowNamed (s : State) (w : Nat) : Bool := s.carriers.records.any (fun p => p.2.window = some w)

/-- RETIRE WINDOW (R16, R182). It tests every carrier, so it reads them. -/
def State.retireWindow (s : State) (o : Order) : State :=
  let k := keyOf o
  let claim := (s.window k).bind Window.claim
  s.takeOrder o (Activity.order .window 3) (o.params.length = 0) (fun r => s.orderReads o [⟨.window, k⟩] r || r.table = .carrier)
    [s.lacks o .plan 1,
      failIf (!windowKey k || (s.windows.slot k).isNone) .key 1,
      claimHold o claim,
      s.freezeHold o,
      s.saveHold,
      failIf ((s.window k).isSome && s.windowNamed k) .state 3]
    (fun t => (State.windowChanged { t with windows := t.windows.erase k }, doneReply o))

/-- DEFINE_WINDOW (R13). -/
def execDefineWindow (o : Order) (s : State) : Result := .next (s.defineWindow o)

/-- EDIT_WINDOW (R14). -/
def execEditWindow (o : Order) (s : State) : Result := .next (s.editWindow o)

/-- RETIRE_WINDOW (R16). -/
def execRetireWindow (o : Order) (s : State) : Result := .next (s.retireWindow o)

/-! ## SET CLOCK (R3) -/

/-- The words of a SET CLOCK are outside their ranges. -/
def clockBad (ws : List Word) : Bool :=
  let y := fieldNat ws 0
  let m := fieldNat ws 1
  let d := fieldNat ws 2
  !((2000 ≤ y && y ≤ 2099) && (1 ≤ m && m ≤ 12) && (1 ≤ d && d ≤ monthLength y m) && fieldNat ws 3 ≤ 23 &&
    fieldNat ws 4 ≤ 59 && fieldNat ws 5 ≤ 59)

/-- The clock that a SET CLOCK loads. -/
def clockOfWords (ws : List Word) : Clock where
  unset := false
  year := fieldNat ws 0
  month := fieldNat ws 1
  day := fieldNat ws 2
  second := fieldNat ws 3 * 3600 + fieldNat ws 4 * 60 + fieldNat ws 5
  phase := 0

/-- SET CLOCK (Part action 16): the order evaluates every window, so it reads them. -/
def State.setClock (s : State) (o : Order) : State :=
  s.takeOrder o (Activity.order .part 16) (o.params.length = 6) (s.orderReads o s.windowNames)
    [s.lacks o .plan 1, s.freezeHold o, failIf (clockBad o.params) .range 2]
    (fun t => (State.evaluateAll { t with clock := clockOfWords o.params }, doneReply o))

/-- SET_CLOCK (R3). -/
def execSetClock (o : Order) (s : State) : Result := .next (s.setClock o)

end Sys2Proof.Machine
end

