-- ==== Sys2Proof/Machine/CarrierOrders.lean ====
section
/-! DEFINITION. The orders on carriers, and SET COORDINATION (chapter 2). -/

namespace Sys2Proof.Machine

/-- The key lies in the Carrier Table's range. -/
def carrierKey (k : Nat) : Bool := 1 ≤ k && k ≤ 128

/-- The Carrier right, then the mask on the window the carrier names and on some other window (R20). -/
def State.carrierRights (s : State) (o : Order) (c : Nat) (result : Option Nat) : List Check1 :=
  [s.lacks o .carrier 2,
    ((s.carrierMask o c).1 || s.maskRefuses o result, (s.carrierMask o c).2)]

/-- The freeze and store-busy holds. -/
def State.holds (s : State) (o : Order) : List Check1 := [s.freezeHold o, s.saveHold]

/-- The tests of a carrier's resulting record (R20): RANGE 1 and 2, STATE 1, then the order's own test, STATE 3 and
4. -/
def State.carrierRecordTests (s : State) (ps : List (Nat × Word)) (ws : List Word) (y : Carrier)
    (own : List Check1) : List Check1 :=
  let target := y.intent.bind (fun p => s.station p.1)
  [failIf (badField (fieldIndex 6) ps) .range 1,
    failIf (carrierRangeBad ws) .range 2,
    failIf (y.window.bind s.window).isNone .state 1] ++ own ++
    [failIf (y.intent.isSome && target.isNone) .state 3,
      failIf (match target with | some x => x.kind.cls != y.cls | none => false) .state 4]

/-- DEFINE CARRIER (R21). It reads the window and the intent's station that its words name. -/
def State.defineCarrier (s : State) (o : Order) : State :=
  let k := keyOf o
  let ps := pairsOf o.params
  let ws := applyPairs (fieldIndex 6) carrierDefaults ps
  let y := Carrier.blank.withWords ws
  s.takeOrder o (Activity.order .carrier 1) (evenCount 0 16 o.params)
    (fun r => s.orderReads o [⟨.carrier, k⟩] r || y.placed.contains r)
    (s.carrierRights o k y.window ++
      [failIf (!carrierKey k) .key 1, failIf (s.carrier k).isSome .key 2] ++ s.holds o ++
      s.carrierRecordTests ps ws y [])
    (fun t => (State.carrierChanged { t with carriers := t.carriers.put k y }, doneReply o))

/-- The carrier fills a slot or is kept out of use: its placement is fixed (R22). -/
def CarrierState.placed : CarrierState → Bool
  | .assigned | .standby | .blocked => true
  | .proposed | .checking | .conflict | .cleared => false

/-- A placement change (R22): the carrier leaves Checking, the queue, the engine or the committed set and becomes
Proposed; a change of frequency or class clears the clean score. -/
def State.placementChange (s : State) (c : Nat) (fresh : Bool) : State :=
  (s.leaveChecking c).modCarrier c (fun y =>
    { y with
      state := .proposed
      conflict := none
      cleanScore := if fresh then none else y.cleanScore
      cleanAge := if fresh then none else y.cleanAge })

/-- EDIT CARRIER (R22, R23). Without a carrier at the key there is no resulting record, and no mask test (R20; log
27). It reads the window and the intent's station of the resulting record too, and, at a placement change that takes the
candidate from the engine, what the engine reads as it takes the next one before the answer (R22). -/
def State.editCarrier (s : State) (o : Order) : State :=
  let k := keyOf o
  let ps := pairsOf o.params
  let old := (s.carrier k).getD Carrier.blank
  let ws := applyPairs (fieldIndex 6) (carrierWords old) ps
  let new := old.withWords ws
  let fresh := new.frequency != old.frequency || new.cls != old.cls
  let placement := fresh || new.window != old.window
  let edited (t : State) : State :=
    let u := State.carrierChanged { t with carriers := t.carriers.put k new }
    if placement then u.placementChange k fresh else u
  s.takeOrderWith o (Activity.order .carrier 2) (evenCount 2 16 o.params)
    (fun r => s.orderReads o [⟨.carrier, k⟩] r || new.placed.contains r)
    (s.carrierRights o k ((s.carrier k).bind (fun _ => new.window)) ++
      [failIf (s.carrier k).isNone .key 1, claimHold o old.claim] ++ s.holds o ++
      s.carrierRecordTests ps ws new [failIf (placement && old.state.placed) .state 2])
    (fun t r => placement && t.engine.isSome && (edited t).lookReads r)
    (fun t => (if placement then (edited t).engineLooks else edited t, doneReply o))

/-- RETIRE CARRIER (R29, R182). -/
def State.retireCarrier (s : State) (o : Order) : State :=
  let k := keyOf o
  let old := s.carrier k
  s.takeOrder o (Activity.order .carrier 3) (o.params.length = 0) (s.orderReads o [⟨.carrier, k⟩])
    (s.carrierRights o k none ++
      [failIf (!carrierKey k || (s.carriers.slot k).isNone) .key 1, claimHold o (old.bind Carrier.claim)] ++ s.holds o ++
      [failIf (old.bind Carrier.bound).isSome .state 12,
        failIf (old.map Carrier.state = some .checking) .state 13])
    (fun t => ((State.alternateGone { t with carriers := t.carriers.erase k } k).carrierChanged, doneReply o))

/-- The tests that CHECK, CANCEL CHECK, BLOCK and UNBLOCK share (R20). -/
def State.carrierActionTests (s : State) (o : Order) (own : List Check1) : List Check1 :=
  let k := keyOf o
  s.carrierRights o k none ++
    [failIf (s.carrier k).isNone .key 1, claimHold o ((s.carrier k).bind Carrier.claim)] ++ s.holds o ++ own

/-- An action on a carrier: no parameter words. -/
def State.carrierAction (s : State) (o : Order) (verb : Nat) (own : List Check1) (effect : State → State) : State :=
  s.takeOrder o (Activity.order .carrier verb) (o.params.length = 0) (s.orderReads o [⟨.carrier, keyOf o⟩])
    (s.carrierActionTests o own) (fun t => (effect t, doneReply o))

/-- An action on a carrier after which an idle engine takes its next candidate, before the answer is ready (R24, R25, R32). -/
def State.checkAction (s : State) (o : Order) (verb : Nat) (own : List Check1) (effect : State → State) : State :=
  s.takeOrderWith o (Activity.order .carrier verb) (o.params.length = 0) (s.orderReads o [⟨.carrier, keyOf o⟩])
    (s.carrierActionTests o own) (fun t => (effect t).lookReads) (fun t => ((effect t).engineLooks, doneReply o))

/-- The state of a carrier; Proposed where there is none. -/
def State.carrierState (s : State) (c : Nat) : CarrierState := ((s.carrier c).map Carrier.state).getD .proposed

/-- A carrier joins the Check Queue (R24). -/
def State.joinQueue (s : State) (c : Nat) : State :=
  let t := s.modCarrier c (fun y => { y with state := .checking, conflict := none })
  { t with checkQueue := t.checkQueue ++ [c] }

/-- CHECK CARRIER (action 16). -/
def State.checkCarrier (s : State) (o : Order) : State :=
  let k := keyOf o
  s.checkAction o 16
    [failIf (s.carrierState k = .checking) .state 5,
      failIf (s.carrierState k).committed .state 6,
      failIf (Config.checkQueueSize ≤ s.checkQueue.length) .full 1]
    (State.joinQueue · k)

/-- A check is cancelled (R25). -/
def State.cancel (s : State) (c : Nat) : State :=
  (s.leaveChecking c).modCarrier c (fun y => { y with state := .proposed, conflict := none })

/-- CANCEL CHECK (action 17). -/
def State.cancelCheck (s : State) (o : Order) : State :=
  let k := keyOf o
  s.checkAction o 17 [failIf (s.carrierState k != .checking) .state 7] (State.cancel · k)

/-- The station that a carrier is bound to. -/
def State.boundStation (s : State) (c : Nat) : Option (Nat × Station) :=
  match ((s.carrier c).bind Carrier.bound).map (·.1) with
  | some k => (s.station k).map (fun x => (k, x))
  | none => none

/-- A carrier is blocked (R26, R27): Cleared and Standby become Blocked at once; an Assigned carrier starts a switch. -/
def State.block (s : State) (c : Nat) : State :=
  match s.carrierState c, s.boundStation c with
  | .assigned, some (k, _) => s.startSwitch k .operator true
  | .standby, some (k, _) => (s.modCarrier c (fun y => { y with state := .blocked, alternate := none })).beginRecovery k c
  | _, _ => s.modCarrier c (fun y => { y with state := .blocked, alternate := none })

/-- The state may be blocked (R26): Cleared, Standby or Assigned. -/
def CarrierState.blockable : CarrierState → Bool
  | .cleared | .standby | .assigned => true
  | .proposed | .checking | .conflict | .blocked => false

/-- BLOCK CARRIER (action 18). -/
def State.blockCarrier (s : State) (o : Order) : State :=
  let k := keyOf o
  let st := s.carrierState k
  let holder := (s.boundStation k).map (·.2)
  let live := st = .assigned && holder.map Station.tally = some .live
  s.carrierAction o 18
    [s.airHold o live,
      failIf (!st.blockable) .state 8,
      failIf (st = .standby && holder.map Station.link = some .switching) .state 9,
      failIf (st = .assigned &&
        !(match holder with | some x => x.link.upOrWeak && s.usableStandby x | none => false)) .state 10]
    (State.block · k)

/-- A carrier leaves Blocked (R28). -/
def State.unblock (s : State) (c : Nat) : State :=
  let t := s.modCarrier c (fun y =>
    { y with state := if y.bound.isSome then .standby else .cleared, alternate := none })
  match s.boundStation c with
  | some (k, _) => t.stopRecovery k
  | none => t

/-- UNBLOCK CARRIER (action 19). -/
def State.unblockCarrier (s : State) (o : Order) : State :=
  let k := keyOf o
  s.carrierAction o 19 [failIf (s.carrierState k != .blocked) .state 11] (State.unblock · k)

/-- DEFINE_CARRIER (R21). -/
def execDefineCarrier (o : Order) (s : State) : Result := .next (s.defineCarrier o)

/-- EDIT_CARRIER (R22, R23). -/
def execEditCarrier (o : Order) (s : State) : Result := .next (s.editCarrier o)

/-- RETIRE_CARRIER (R29). -/
def execRetireCarrier (o : Order) (s : State) : Result := .next (s.retireCarrier o)

/-- CHECK_CARRIER (R24). -/
def execCheckCarrier (o : Order) (s : State) : Result := .next (s.checkCarrier o)

/-- CANCEL_CHECK (R25). -/
def execCancelCheck (o : Order) (s : State) : Result := .next (s.cancelCheck o)

/-- BLOCK_CARRIER (R26, R27). -/
def execBlockCarrier (o : Order) (s : State) : Result := .next (s.blockCarrier o)

/-- UNBLOCK_CARRIER (R28). -/
def execUnblockCarrier (o : Order) (s : State) : Result := .next (s.unblockCarrier o)

/-! ## SET COORDINATION (R30) -/

/-- The coordination settings of three words. -/
def Settings.withCoordination (x : Settings) (ws : List Word) : Settings :=
  { x with spacingGuard := fieldNat ws 0, imGuard := fieldNat ws 1, imFifth := fieldNat ws 2 = 1 }

/-- Some carrier is committed or Checking. -/
def State.coordinationInUse (s : State) : Bool :=
  s.carriers.records.any (fun p => p.2.state.committed || p.2.state = .checking)

/-- Put settings in force; a changed value makes the Part settings' store state Changed. -/
def State.putSettings (s : State) (x : Settings) : State :=
  if x = s.settings then s else State.partChanged { s with settings := x }

/-- SET COORDINATION (Part action 17). -/
def State.setCoordination (s : State) (o : Order) : State :=
  let new := s.settings.withCoordination o.params
  s.takeOrder o (Activity.order .part 17) (o.params.length = 3)
    (fun r => s.orderReads o [] r || r.table = .carrier)
    ([s.lacks o .plan 1] ++ s.holds o ++
      [failIf (coordinationBad o.params) .range 2,
        failIf (new != s.settings && s.coordinationInUse) .state 1])
    (fun t => (t.putSettings new, doneReply o))

/-- SET_COORDINATION (R30). -/
def execSetCoordination (o : Order) (s : State) : Result := .next (s.setCoordination o)

end Sys2Proof.Machine
end

