-- ==== Sys2Proof/Machine/StationOrders.lean ====
section
/-! DEFINITION. The orders on stations: records, pairs, slots, links, calls; SET LINK (chapters 3 and 4). -/

namespace Sys2Proof.Machine

/-- The key lies in the Station Table's range. -/
def stationKey (k : Nat) : Bool := 1 ≤ k && k ≤ 96

/-- The activity of a station order. -/
def stationActivity (verb : Nat) : Nat := Activity.order .station verb

/-! ## Pairs (R48) -/

/-- The pair does not suit a station of this kind (STATE, detail 3). -/
def State.pairUnsuited (s : State) (k : Nat) (kind : StationKind) (pair : Option Nat) : Bool :=
  match pair with
  | none => false
  | some b =>
    b = k ||
      (match kind, (s.station b).map Station.kind with
       | .camera, some .beltpack => false
       | .beltpack, some .camera => false
       | _, _ => true)

/-- A partner's pair is set by an order on another station: reason Pair Changed. -/
def State.repair (s : State) (k : Nat) (pair : Option Nat) : State :=
  (s.modStation k (fun x => { x with pair := pair })).markStation k StationReason.pairChanged

/-- The pair of station k changes from old to new: the old partners are freed, the new one names k, and the Tally Unit
is told (R48, R93). R48, R93 and R110 give no order in which the changed stations have their lamps recomputed and their pair
notices given; station k, its old partner, the new partner's old partner, the new partner is the model's choice (log 14). -/
def State.setPair (s : State) (k : Nat) (old new : Option Nat) : State :=
  if old = new then s
  else
    let bOld := new.bind s.partnerOf
    let t := match old with | some p => s.repair p none | none => s
    let q := match bOld with | some q => if q = k then none else some q | none => none
    let t := match q with | some q => t.repair q none | none => t
    let t := t.modStation k (fun x => { x with pair := new })
    let t := match new with | some b => t.repair b (some k) | none => t
    t.pairsChanged
      ([(k, old, new)] ++ (match old with | some p => [(p, some k, none)] | none => []) ++
        (match q with | some q => [(q, new, none)] | none => []) ++
        (match new with | some b => [(b, bOld, some k)] | none => []))

/-! ## DEFINE STATION (R49) -/

/-- The words of a DEFINE: without a power the default of the resulting kind applies. -/
def defineStationWords (ps : List (Nat × Word)) : List Word :=
  let ws := applyPairs (fieldIndex 11) stationDefaults ps
  if namesField 10 ps then ws else ws.set 9 (wordOf (stationKindOf (fieldNat ws 6)).defaultPower)

/-- The power of some words is not legal for their kind (DONE-ADJUSTED, detail 1). -/
def powerAdjusted (ws : List Word) : Bool :=
  legalPower (stationKindOf (fieldNat ws 6)) (fieldNat ws 9) != fieldNat ws 9

/-- The deliveries of a new station (R49, R128, R153): a final delivery of its key is taken back, entries for another
unit go, and a MUTE and then a cue route of none are decided (the order is the model's choice, log 14). A Camera or a Mic has no cue route to take a final one back;
that this one then goes on to its acknowledgement is the model's choice (log 40). -/
def State.newStationDeliveries (s : State) (k : Nat) (x : Station) : State :=
  let t := (s.dropFinal .tune k).withdraw (fun e =>
    e.kind = .tune && e.target = k && !e.detached && some e.unit != x.controlUnit)
  let t := t.decideDelivery .tune k
  if x.kind.hasCue then (t.dropFinal .cueRoute k).decideDelivery .cueRoute k else t

/-- The range tests of a station's words (R47). -/
def stationRange (index : Nat → Option Nat) (ps : List (Nat × Word)) (ws : List Word) : List Check1 :=
  [failIf (badField index ps) .range 1, failIf (stationRangeBad ws) .range 2, failIf (labelBad ws) .range 3]

/-- DEFINE STATION. -/
def State.defineStation (s : State) (o : Order) : State :=
  let k := keyOf o
  let ps := pairsOf o.params
  let ws := defineStationWords ps
  let x := Station.ofWords ws
  s.takeOrder o (stationActivity 1) (evenCount 0 16 o.params)
    (s.orderReads o (⟨.station, k⟩ :: nameOf .station x.pair))
    ([s.lacks o .station 4, failIf (!stationKey k) .key 1, failIf (s.station k).isSome .key 2] ++ s.holds o ++
      stationRange (fieldIndex 11) ps ws ++ [failIf (s.pairUnsuited k x.kind x.pair) .state 3])
    (fun t =>
      let u := State.stationChanged { t with stations := t.stations.put k { x with pair := none } }
      ((u.newStationDeliveries k x).setPair k none x.pair, adjustedReply o (powerAdjusted ws) 1))

/-! ## EDIT STATION (R50) -/

/-- The fields that EDIT STATION writes: 1 to 6 and 8 to 11. -/
def editStationIndex (f : Nat) : Option Nat := if f = 7 then none else fieldIndex 11 f

/-- The control unit changes while Parked (R50, R153): the entries for the old unit go, the delivered tune is none, and
a MUTE is decided for the new unit. The place that the old unit's entry frees in a full queue is filled by a scan that the
new unit's MUTE joins as Waiting, at its station's place; R153 gives no order, and it is the model's choice (log 14). -/
def State.changeControlUnit (s : State) (k : Nat) (new : Option Nat) : State :=
  let t := s.modStation k (fun x => { x with controlUnit := new, delivered := none, tuneBase := .waiting })
  (t.withdraw (fun e =>
    (e.kind = .tune || e.kind = .lamp) && e.target = k && !e.detached && some e.unit != new)).decideDelivery .tune k

/-- The power changes (R50, R60): the wanted power in Parked, a retune otherwise. -/
def State.changePower (s : State) (k : Nat) (x : Station) (power : Nat) : State :=
  match x.link with
  | .parked =>
    (s.modStation k (fun x => { x with power := power, wanted := { x.wanted with power := power } })).hand .tune k
  | .tuning | .up | .weak | .lost | .switching => (s.modStation k (fun x => { x with power := power })).startTune k

/-- EDIT STATION. -/
def State.editStation (s : State) (o : Order) : State :=
  let k := keyOf o
  let ps := pairsOf o.params
  let old := (s.station k).getD (Station.ofWords stationDefaults)
  let ws := applyPairs editStationIndex (stationWords old) ps
  let new := Station.ofWords ws
  let unitChanges := new.controlUnit != old.controlUnit
  let powerChanges := new.power != old.power
  s.takeOrder o (stationActivity 2) (evenCount 2 16 o.params)
    (s.orderReads o (⟨.station, k⟩ :: nameOf .station new.pair))
    ([s.lacks o .station 4, failIf (s.station k).isNone .key 1, claimHold o old.claim] ++ s.holds o ++
      [s.airHold o (old.tally = .live && (unitChanges || powerChanges))] ++ stationRange editStationIndex ps ws ++
      [failIf (unitChanges && old.link != .parked) .state 1,
        failIf (powerChanges && old.link = .switching) .state 2,
        failIf (s.pairUnsuited k old.kind new.pair) .state 3])
    (fun t =>
      let u := t.modStation k (fun x => { x with label := new.label, callMode := new.callMode })
      let u := if unitChanges then u.changeControlUnit k new.controlUnit else u
      let u := if powerChanges then u.changePower k old new.power else u
      let u := u.setPair k old.pair new.pair
      (if stationWords new = stationWords old then u else u.stationChanged, adjustedReply o (powerAdjusted ws) 1))

/-! ## RETIRE STATION (R74) -/

/-- The final deliveries of a station that leaves its table (R153): a MUTE through its last control unit, a cue route of
none. -/
def stationFinals (k : Nat) (kind : StationKind) (unit : Option Nat) (tune : Final → Final) (route : Final → Final) :
    List Final :=
  (match unit with
    | some u => [tune ⟨.tune, k, some u, .tune (silentTune kind kind.defaultPower), none, .waiting⟩]
    | none => []) ++
    (if kind.hasCue then [route ⟨.cueRoute, k, none, .cueRoute none, none, .waiting⟩] else [])

/-- Take over some final deliveries. -/
def State.takeOverAll (s : State) (fs : List Final) (fresh : Bool) : State :=
  s.forEach fs (fun s f => s.takeOver f fresh)

/-- The partner of a station that has left its table: its pair becomes none, with the notices of R93, and it is
recomputed where it is a Follow member or waits (R74, R110). -/
def State.partnersLeft (s : State) (k : Nat) : State :=
  let partners := (s.stations.records.filter (fun p => p.2.pair = some k)).map (·.1)
  let t := s.forEach partners (fun t p => (t.repair p none).pairsChanged [(p, some k, none)])
  t.forEach partners (fun t p => t.recomputeEverywhere none p (fun _ _ => false))

/-- The relations of a station that has left its table: carriers and intents, conferences, source maps, its partner's
pair, and the cues it was sourcing (R44, R74, R86, R110, R111, R125). byOrder: the store states change as at a
retirement by order. -/
def State.stationRelations (s : State) (k : Nat) (byOrder : Bool) : State :=
  ((((s.stationGone k byOrder).stationLeavesAll k byOrder).unmapStation k byOrder).partnersLeft k).releaseSourced k

/-- A station is retired by order (R74): its finals go on as its deliveries stood. -/
def State.retire (s : State) (k : Nat) : State :=
  match s.station k with
  | none => { s with stations := s.stations.erase k }
  | some x =>
    let finals := stationFinals k x.kind x.controlUnit
      (fun f => { f with
        wanted := .tune { x.wanted with muted := true }, delivered := x.delivered.map .tune, base := x.tuneBase })
      (fun f => { f with delivered := x.deliveredRoute.map .cueRoute, base := x.cueBase })
    (State.takeOverAll { s with stations := s.stations.erase k } finals false).stationRelations k true

/-- RETIRE STATION. -/
def State.retireStation (s : State) (o : Order) : State :=
  let k := keyOf o
  let old := s.station k
  s.takeOrder o (stationActivity 3) (o.params.length = 0) (s.orderReads o [⟨.station, k⟩])
    ([s.lacks o .station 4,
      failIf (!stationKey k || (s.stations.slot k).isNone) .key 1,
      claimHold o (old.bind Station.claim)] ++ s.holds o ++
      [s.airHold o (old.map Station.tally = some .live),
        failIf (match old with | some x => x.link != .parked | none => false) .state 1])
    (fun t => ((t.retire k).stationChanged, doneReply o))

/-! ## BIND and UNBIND STATION (R51, R52) -/

/-- The window that a carrier names is Open. -/
def State.carrierWindowOpen (s : State) (y : Carrier) : Bool :=
  match y.window.bind s.window with
  | some w => w.state = .opened
  | none => false

/-- The slot of a role. -/
def Station.slotOf (x : Station) (role : Role) : Option Nat :=
  match role with
  | .primary => x.primary
  | .standby => x.standby

/-- The claims of the station, then of the carrier concerned (R132). -/
def State.pairClaims (s : State) (o : Order) (c : Option Nat) : List Check1 :=
  [claimHold o ((s.station (keyOf o)).bind Station.claim), claimHold o ((c.bind s.carrier).bind Carrier.claim)]

/-- The link tests of a binding or unbinding (STATE, details 1 and 2). -/
def slotLinkTests (x : Option Station) (role : Role) : List Check1 :=
  [failIf (role = .primary && x.map Station.link != some .parked) .state 1,
    failIf (role = .standby && x.map Station.link = some .switching) .state 2]

/-- A test on a station and a carrier that both exist. -/
def bindTest (x : Option Station) (y : Option Carrier) (bad : Station → Carrier → Bool) (detail : Nat) : Check1 :=
  failIf (match x, y with | some x, some y => bad x y | _, _ => false) .state detail

/-- BIND STATION (action 16): carrier, role. -/
def State.bindStation (s : State) (o : Order) : State :=
  let k := keyOf o
  let c := fieldNat o.params 0
  let role := roleOf (fieldNat o.params 1)
  let x := s.station k
  let y := s.carrier c
  s.takeOrder o (stationActivity 16) (o.params.length = 2) (s.orderReads o [⟨.station, k⟩, ⟨.carrier, c⟩])
    ([s.lacks o .station 4, failIf x.isNone .key 1, failIf y.isNone .key 3] ++ s.pairClaims o (some c) ++ s.holds o ++
      [failIf (1 < fieldNat o.params 1) .range 2] ++ slotLinkTests x role ++
      [bindTest x y (fun _ y => y.state != .cleared) 4,
        bindTest x y (fun x y => y.cls != x.kind.cls) 5,
        bindTest x y (fun x _ => (x.slotOf role).isSome) 6,
        bindTest x y (fun _ y => !s.carrierWindowOpen y) 9])
    (fun t =>
      let u := t.bindCarrier k c role
      (if y.bind Carrier.intent = some (k, role) then u else u.carrierChanged, doneReply o))

/-- UNBIND STATION (action 17): role. A word that is no role concerns no carrier. -/
def State.unbindStation (s : State) (o : Order) : State :=
  let k := keyOf o
  let role := roleOf (fieldNat o.params 0)
  let x := s.station k
  let c := if 1 < fieldNat o.params 0 then none else x.bind (Station.slotOf · role)
  s.takeOrder o (stationActivity 17) (o.params.length = 1) (s.orderReads o [⟨.station, k⟩])
    ([s.lacks o .station 4, failIf x.isNone .key 1] ++ s.pairClaims o c ++ s.holds o ++
      [s.airHold o (fieldNat o.params 0 = 0 && x.map Station.tally = some .live),
        failIf (1 < fieldNat o.params 0) .range 2] ++ slotLinkTests x role ++ [failIf c.isNone .state 7])
    (fun t =>
      match c with
      | none => (t, doneReply o)
      | some c =>
        let u := t.unbindCarrier k c role
        (if ((t.carrier c).bind Carrier.intent).isSome then u.carrierChanged else u, doneReply o))

/-! ## GO LIVE, PARK, SWAP (R58, R63, R69) -/

/-- An action on a station: no parameter words, the station's claim, the freeze and the store-busy hold. -/
def State.stationAction (s : State) (o : Order) (verb : Nat) (own : List Check1) (effect : State → State) : State :=
  let k := keyOf o
  s.takeOrder o (stationActivity verb) (o.params.length = 0) (s.orderReads o [⟨.station, k⟩])
    ([s.lacks o .station 4, failIf (s.station k).isNone .key 1, claimHold o ((s.station k).bind Station.claim)] ++
      s.holds o ++ own)
    (fun t => (effect t, doneReply o))

/-- A test on a station that exists. -/
def stationTest (x : Option Station) (bad : Station → Bool) (detail : Nat) : Check1 :=
  failIf (match x with | some x => bad x | none => false) .state detail

/-- The derived tally of a station is Live. -/
def State.isLive (s : State) (k : Nat) : Bool := (s.station k).map Station.tally = some .live

/-- The primary's window is Open. -/
def State.primaryWindowOpen (s : State) (x : Station) : Bool :=
  match x.primary.bind s.carrier with
  | some y => s.carrierWindowOpen y
  | none => false

/-- GO LIVE (action 18). -/
def State.goLive (s : State) (o : Order) : State :=
  let k := keyOf o
  let x := s.station k
  s.stationAction o 18
    [stationTest x (fun x => x.link != .parked) 1,
      stationTest x (fun x => x.primary.isNone) 8,
      stationTest x (fun x => !s.primaryWindowOpen x) 9,
      stationTest x (fun x => x.controlUnit.isNone) 10]
    (State.startTune · k)

/-- PARK (action 19). -/
def State.park (s : State) (o : Order) : State :=
  let k := keyOf o
  s.stationAction o 19 [s.airHold o (s.isLive k), stationTest (s.station k) (fun x => x.link = .parked) 11]
    (State.parkStation · k)

/-- SWAP (action 20). -/
def State.swap (s : State) (o : Order) : State :=
  let k := keyOf o
  s.stationAction o 20
    [s.airHold o (s.isLive k), stationTest (s.station k) (fun x => !x.link.upOrWeak) 12,
      stationTest (s.station k) (fun x => !s.usableStandby x) 13]
    (fun t => (t.modStation k (fun x => { x with inhibit := false })).startSwitch k .operator false)

/-! ## CALL STATION and CLEAR CALL (R89, R90) -/

/-- A call order: no parameter words, no hold. -/
def State.callOrder (s : State) (o : Order) (verb : Nat) (own : List Check1) (effect : State → State) : State :=
  let k := keyOf o
  s.takeOrder o (stationActivity verb) (o.params.length = 0) (s.orderReads o [⟨.station, k⟩])
    ([s.lacks o .gallery 5, failIf (s.station k).isNone .key 1,
      stationTest (s.station k) (fun x => !x.kind.hasLamp) 14] ++ own)
    (fun t => (effect t, doneReply o))

/-- CALL STATION (action 21). -/
def State.callStation (s : State) (o : Order) : State := s.callOrder o 21 [] (State.startCall · (keyOf o))

/-- The calls of a station and its partner are cleared (R90). -/
def State.clearCalls (s : State) (k : Nat) : State :=
  let t := s.endCall k
  let t := match s.partnerOf k with | some p => t.endCallMarked p StationReason.callEnded | none => t
  t.recomputeLamps k

/-- A call is held on a station or on its partner. -/
def State.anyCall (s : State) (k : Nat) : Bool :=
  s.callHeld k || (match s.partnerOf k with | some p => s.callHeld p | none => false)

/-- CLEAR CALL (action 22). -/
def State.clearCall (s : State) (o : Order) : State :=
  s.callOrder o 22 [failIf (!s.anyCall (keyOf o)) .state 15] (State.clearCalls · (keyOf o))

/-! ## SET LINK (R55) -/

/-- The link settings of five words. -/
def Settings.withLink (x : Settings) (ws : List Word) : Settings :=
  { x with
    linkWatch := legalWatch (fieldNat ws 0)
    fallbackFloor := fieldNat ws 1
    fallbackMargin := fieldNat ws 2
    returnMargin := fieldNat ws 3
    recoveryTime := fieldNat ws 4 }

/-- Watches and recovery runs that already reach the settings in force end at once. -/
def State.applyLink (s : State) : State :=
  s.forEach s.stations.keys (fun s k =>
    match s.station k with
    | none => s
    | some x =>
      let t := match x.watch with
        | .running ms => if s.settings.linkWatch ≤ ms then s.watchRunsOut k else s
        | .off | .runOut => s
      match x.recoveryRun with
      | some ms => if s.settings.recoveryTime * 1000 ≤ ms then t.recover k else t
      | none => t)

/-- SET LINK (Part action 18): the running watches and recovery runs of every station are read. The detail 1 of its
DONE-ADJUSTED answer is the model's: no rule gives a number (log 34). -/
def State.setLinkSettings (s : State) (o : Order) : State :=
  s.takeOrder o (Activity.order .part 18) (o.params.length = 5)
    (s.orderReads o (s.stations.keys.map (⟨.station, ·⟩)))
    ([s.lacks o .plan 1] ++ s.holds o ++ [failIf (linkBad o.params) .range 2])
    (fun t =>
      ((t.putSettings (t.settings.withLink o.params)).applyLink,
        adjustedReply o (legalWatch (fieldNat o.params 0) != fieldNat o.params 0) 1))

/-- DEFINE_STATION (R49). -/
def execDefineStation (o : Order) (s : State) : Result := .next (s.defineStation o)

/-- EDIT_STATION (R50). -/
def execEditStation (o : Order) (s : State) : Result := .next (s.editStation o)

/-- RETIRE_STATION (R74). -/
def execRetireStation (o : Order) (s : State) : Result := .next (s.retireStation o)

/-- BIND_STATION (R51). -/
def execBindStation (o : Order) (s : State) : Result := .next (s.bindStation o)

/-- UNBIND_STATION (R52). -/
def execUnbindStation (o : Order) (s : State) : Result := .next (s.unbindStation o)

/-- GO_LIVE (R58). -/
def execGoLive (o : Order) (s : State) : Result := .next (s.goLive o)

/-- PARK (R63). -/
def execPark (o : Order) (s : State) : Result := .next (s.park o)

/-- SWAP (R69). -/
def execSwap (o : Order) (s : State) : Result := .next (s.swap o)

/-- SET_LINK (R55). -/
def execSetLink (o : Order) (s : State) : Result := .next (s.setLinkSettings o)

/-- CALL_STATION (R90). -/
def execCallStation (o : Order) (s : State) : Result := .next (s.callStation o)

/-- CLEAR_CALL (R90). -/
def execClearCall (o : Order) (s : State) : Result := .next (s.clearCall o)

end Sys2Proof.Machine
end

