-- ==== Sys2Proof/Machine/GalleryOrders.lean ====
section
/-! DEFINITION. The orders on galleries, conferences and cue stacks; SET CUE (chapters 4, 5 and 6). -/

namespace Sys2Proof.Machine

/-! ## Galleries (R81 to R84) -/

/-- The key lies in the Gallery Table's range. -/
def galleryKey (k : Nat) : Bool := 1 ≤ k && k ≤ 8

/-- The tests of a gallery's resulting record (R81). -/
def State.galleryRecordTests (s : State) (ps : List (Nat × Word)) (ws : List Word) (g : Gallery) : List Check1 :=
  [failIf (badField galleryIndex ps) .range 1,
    failIf (galleryRangeBad ws) .range 2,
    failIf (labelBad ws) .range 3,
    failIf (g.sources.any (fun e => match e with | some k => (s.station k).isNone | none => false)) .state 1,
    failIf (match g.follow with | some c => (s.conference c).isNone | none => false) .state 2]

/-- DEFINE GALLERY (R82). It reads the stations that its words map. -/
def State.defineGallery (s : State) (o : Order) : State :=
  let k := keyOf o
  let ps := pairsOf o.params
  let ws := applyPairs galleryIndex galleryDefaults ps
  let g := Gallery.blank.withWords ws
  s.takeOrder o (Activity.order .gallery 1) (evenCount 0 16 o.params)
    (fun r => s.orderReads o (⟨.gallery, k⟩ :: nameOf .conference g.follow) r || g.mapped.contains r)
    ([s.lacks o .gallery 5, failIf (!galleryKey k) .key 1, failIf (s.gallery k).isSome .key 2] ++ s.holds o ++
      s.galleryRecordTests ps ws g)
    (fun t =>
      ((State.galleryChanged { t with galleries := t.galleries.put k g }).followNotice k none g.follow, doneReply o))

/-- The stations that a changed source map entry names before or after. -/
def remapped (old new : List (Option Nat)) : List Nat :=
  (old.zip new).flatMap (fun p => if p.1 = p.2 then [] else p.1.toList ++ p.2.toList)

/-- The fields of an EDIT GALLERY take effect (R83): a new tally unit empties the sets, the follow notice comes first,
and one derivation covers every change. -/
def State.applyGallery (s : State) (k : Nat) (old new : Gallery) : State :=
  let fresh := new.tallyUnit != old.tallyUnit
  let g := if fresh then { new with live := false, program := [], preview := [] } else new
  let t := ({ s with galleries := s.galleries.put k g } : State).followNotice k old.follow new.follow
  t.derive ((if fresh then old.reached else []) ++ remapped old.sources new.sources)

/-- EDIT GALLERY (R83). It reads the stations of the resulting map too, which are derived afresh. -/
def State.editGallery (s : State) (o : Order) : State :=
  let k := keyOf o
  let ps := pairsOf o.params
  let old := (s.gallery k).getD Gallery.blank
  let ws := applyPairs galleryIndex (galleryWords old) ps
  let new := old.withWords ws
  s.takeOrder o (Activity.order .gallery 2) (evenCount 2 16 o.params)
    (fun r => s.orderReads o (⟨.gallery, k⟩ :: nameOf .conference new.follow) r || new.mapped.contains r)
    ([s.lacks o .gallery 5, failIf (s.gallery k).isNone .key 1, claimHold o old.claim] ++ s.holds o ++
      s.galleryRecordTests ps ws new)
    (fun t =>
      (if galleryWords new = galleryWords old then t else (t.applyGallery k old new).galleryChanged, doneReply o))

/-- A gallery leaves its table (R84): the follow notice, then the derivation of the stations it reached. -/
def State.removeGallery (s : State) (k : Nat) : State :=
  match s.gallery k with
  | none => { s with galleries := s.galleries.erase k }
  | some g =>
    let t := s.followNotice k g.follow none
    State.derive { t with galleries := t.galleries.erase k } g.reached

/-- RETIRE GALLERY (R84). -/
def State.retireGallery (s : State) (o : Order) : State :=
  let k := keyOf o
  s.takeOrder o (Activity.order .gallery 3) (o.params.length = 0) (s.orderReads o [⟨.gallery, k⟩])
    ([s.lacks o .gallery 5,
      failIf (!galleryKey k || (s.galleries.slot k).isNone) .key 1,
      claimHold o ((s.gallery k).bind Gallery.claim)] ++ s.holds o)
    (fun t => ((t.removeGallery k).galleryChanged, doneReply o))

/-- DEFINE_GALLERY (R82). -/
def execDefineGallery (o : Order) (s : State) : Result := .next (s.defineGallery o)

/-- EDIT_GALLERY (R83). -/
def execEditGallery (o : Order) (s : State) : Result := .next (s.editGallery o)

/-- RETIRE_GALLERY (R84). -/
def execRetireGallery (o : Order) (s : State) : Result := .next (s.retireGallery o)

/-! ## Conferences (R97 to R101) -/

/-- The key lies in the Conference Table's range. -/
def conferenceKey (k : Nat) : Bool := 1 ≤ k && k ≤ 24

/-- The activity of a conference order. -/
def conferenceActivity (verb : Nat) : Nat := Activity.order .conference verb

/-- The range tests of a conference's label. -/
def labelRange (ps : List (Nat × Word)) (ws : List Word) : List Check1 :=
  [failIf (badField (fieldIndex 6) ps) .range 1, failIf (labelBad ws) .range 3]

/-- DEFINE CONFERENCE (R98): a final delivery of its key is taken back, and its empty routing is decided. -/
def State.defineConference (s : State) (o : Order) : State :=
  let k := keyOf o
  let ps := pairsOf o.params
  let ws := applyPairs (fieldIndex 6) emptyLabel ps
  s.takeOrder o (conferenceActivity 1) (evenCount 0 12 o.params) (s.orderReads o [⟨.conference, k⟩])
    ([s.lacks o .talkback 6, failIf (!conferenceKey k) .key 1, failIf (s.conference k).isSome .key 2] ++ s.holds o ++
      labelRange ps ws)
    (fun t =>
      let u := State.conferenceChanged
        { t with conferences := t.conferences.put k { Conference.blank with label := ws } }
      ((u.dropFinal .routing k).decideDelivery .routing k, doneReply o))

/-- EDIT CONFERENCE (R98). -/
def State.editConference (s : State) (o : Order) : State :=
  let k := keyOf o
  let ps := pairsOf o.params
  let old := (s.conference k).getD Conference.blank
  let ws := applyPairs (fieldIndex 6) old.label ps
  s.takeOrder o (conferenceActivity 2) (evenCount 2 12 o.params) (s.orderReads o [⟨.conference, k⟩])
    ([s.lacks o .talkback 6, failIf (s.conference k).isNone .key 1, claimHold o old.claim] ++ s.holds o ++
      labelRange ps ws)
    (fun t =>
      (if ws = old.label then t else (t.modConference k (fun x => { x with label := ws })).conferenceChanged,
        doneReply o))

/-- A conference leaves its table by order (R99): the follow fields that name it are cleared, its lists drop, and the
empty routing goes on as a final delivery. -/
def State.removeConference (s : State) (k : Nat) : State :=
  let t := s.unfollow k true
  let t := (t.modConference k (fun x => { x with members := [], talkers := [], waiting := [] })).recomputeRouting k
  let u : State := { t with conferences := t.conferences.erase k }
  match t.conference k with
  | none => u
  | some x =>
    u.takeOver ⟨.routing, k, none, .routing ⟨[], []⟩, x.deliveredRouting.map .routing, x.routingBase⟩ false

/-- RETIRE CONFERENCE (R99). -/
def State.retireConference (s : State) (o : Order) : State :=
  let k := keyOf o
  s.takeOrder o (conferenceActivity 3) (o.params.length = 0) (s.orderReads o [⟨.conference, k⟩])
    ([s.lacks o .talkback 6,
      failIf (!conferenceKey k || (s.conferences.slot k).isNone) .key 1,
      claimHold o ((s.conference k).bind Conference.claim)] ++ s.holds o)
    (fun t => ((t.removeConference k).conferenceChanged, doneReply o))

/-- A member of a conference by its identity. -/
def Conference.memberOf (x : Conference) (id : Source) : Option Member := x.members.find? (fun m => m.id = id)

/-- The kind of the station that an identity names. -/
def State.kindOf (s : State) (id : Source) : Option StationKind :=
  match id with
  | .station k => (s.station k).map Station.kind
  | .port _ | .operator _ => none

/-- Make an identity a Fixed member (R100): it keeps its place or is appended; a talker that loses Talk leaves the
talker list. -/
def Conference.fix (x : Conference) (m : Member) : Conference :=
  { x with
    members :=
      if (x.memberOf m.id).isSome then x.members.map (fun n => if n.id = m.id then m else n) else x.members ++ [m]
    talkers := if m.talk then x.talkers else x.talkers.filter (· != m.id) }

/-- An identity names a station slot that is empty or Damaged. -/
def State.identityGone (s : State) (id : Source) : Bool :=
  match id with
  | .station k => (s.station k).isNone
  | .port _ | .operator _ => false

/-- A kind that is no member: Camera or Mic. -/
def unsuitedMember (kind : Option StationKind) : Bool := kind = some .camera || kind = some .mic

/-- ADD MEMBER (action 16): identity, rights, priority. -/
def State.addMember (s : State) (o : Order) : State :=
  let k := keyOf o
  let x := (s.conference k).getD Conference.blank
  let rights := fieldNat o.params 1
  let priority := fieldNat o.params 2
  let id := (identityOf (fieldNat o.params 0)).getD (.station 0)
  let inEar := s.kindOf id = some .inEar
  s.takeOrder o (conferenceActivity 16) (o.params.length = 3) (s.orderReads o (⟨.conference, k⟩ :: id.names))
    ([s.lacks o .talkback 6, failIf (s.conference k).isNone .key 1, claimHold o x.claim] ++ s.holds o ++
      [failIf ((identityOf (fieldNat o.params 0)).isNone || rights = 0 || 3 < rights || 3 < priority) .range 2,
        failIf (s.identityGone id) .state 1,
        failIf (unsuitedMember (s.kindOf id)) .state 2,
        failIf ((x.memberOf id).isNone && Config.memberMax ≤ x.members.length) .full 1])
    (fun t =>
      let m : Member :=
        { id := id
          listen := inEar || rights % 2 = 1
          talk := !inEar && 2 ≤ rights
          priority := priority
          join := .fixed
          reasons := []
          absent := t.absentNow id }
      (((t.modConference k (fun x => x.fix m)).recomputeRouting k).conferenceChanged,
        adjustedReply o (inEar && 2 ≤ rights) 1))

/-- The reasons that a Fixed member would hold as a Follow member (R101). -/
def State.followReasons (s : State) (id : Source) (c : Nat) : List Nat :=
  match id with
  | .station p => s.dueReasons none p c
  | .port _ | .operator _ => []

/-- The Fixed membership of an identity ends (R101): a beltpack with due reasons becomes a Follow member in its place;
another member leaves and the wait list is served. -/
def State.endFixed (s : State) (c : Nat) (id : Source) : State :=
  let due := s.followReasons id c
  let t :=
    if due.isEmpty then (s.modConference c (fun x => x.dropMember id)).serveWaitList none true c
    else
      s.modConference c (fun x =>
        { x with
          members := x.members.map (fun m =>
            if m.id = id then { m with listen := true, talk := true, priority := 0, join := .follow, reasons := due }
            else m) })
  t.recomputeRouting c

/-- REMOVE MEMBER (action 17): identity. The reasons that a Beltpack would hold are looked for in every gallery (R101). -/
def State.removeMember (s : State) (o : Order) : State :=
  let k := keyOf o
  let x := (s.conference k).getD Conference.blank
  let id := (identityOf (fieldNat o.params 0)).getD (.station 0)
  s.takeOrder o (conferenceActivity 17) (o.params.length = 1)
    (fun r => s.orderReads o [⟨.conference, k⟩] r || (r.table = .gallery && s.kindOf id = some .beltpack))
    ([s.lacks o .talkback 6, failIf (s.conference k).isNone .key 1, claimHold o x.claim] ++ s.holds o ++
      [failIf (identityOf (fieldNat o.params 0)).isNone .range 2,
        failIf (x.memberOf id).isNone .state 3,
        failIf ((x.memberOf id).map Member.join = some .follow) .state 4])
    (fun t => ((t.endFixed k id).conferenceChanged, doneReply o))

/-- DEFINE_CONFERENCE (R98). -/
def execDefineConference (o : Order) (s : State) : Result := .next (s.defineConference o)

/-- EDIT_CONFERENCE (R98). -/
def execEditConference (o : Order) (s : State) : Result := .next (s.editConference o)

/-- RETIRE_CONFERENCE (R99). -/
def execRetireConference (o : Order) (s : State) : Result := .next (s.retireConference o)

/-- ADD_MEMBER (R100). -/
def execAddMember (o : Order) (s : State) : Result := .next (s.addMember o)

/-- REMOVE_MEMBER (R101). -/
def execRemoveMember (o : Order) (s : State) : Result := .next (s.removeMember o)

/-! ## Cue orders (R121, R122) -/

/-- A cue order: no hold. -/
def State.cueOrder (s : State) (o : Order) (verb count : Nat) (rangeBad : Bool) (own : List Check1)
    (effect : State → State × Reply) : State :=
  let x := s.station (keyOf o)
  s.takeOrder o (stationActivity verb) (o.params.length = count) (s.orderReads o [⟨.station, keyOf o⟩])
    ([s.lacks o .talkback 6, failIf x.isNone .key 1, failIf rangeBad .range 2,
      stationTest x (fun x => !x.kind.hasCue) 16] ++ own)
    effect

/-- The accept that a station returns to is set (R122): its accept, or its bottom entry's saved accept. -/
def Station.setAccept (x : Station) (accept : Bool) : Station :=
  match x.stack with
  | [] => { x with accept := accept }
  | e :: rest => { x with stack := { e with saved := accept } :: rest }

/-- SET CUE ACCEPT (action 23): 0 no, 1 yes. -/
def State.setCueAccept (s : State) (o : Order) : State :=
  let v := fieldNat o.params 0
  s.cueOrder o 23 1 (1 < v) []
    (fun t => (t.modStation (keyOf o) (fun x => x.setAccept (v = 1)), doneReply o))

/-- CUE (action 24): level, action. The source is the operator. -/
def State.cue (s : State) (o : Order) : State :=
  let k := keyOf o
  let src := Source.operator o.operator.val
  let asked := cueLevelOf (fieldNat o.params 0)
  let level := s.legalLevel src asked
  let press := fieldNat o.params 1 = 1
  let result := (s.station k).map (fun x => pressResult x src level)
  let held := match s.station k with | some x => holdsEntry x.stack src | none => false
  s.cueOrder o 24 2 (1 < fieldNat o.params 0 || 1 < fieldNat o.params 1)
    [failIf (press && result = some .linkDown) .state 17,
      failIf (press && result = some .declined) .state 18,
      failIf (press && (result = some .busy || result = some .repeated)) .state 19,
      failIf (!press && !held) .state 20]
    (fun t =>
      if press then (t.cuePush k src level, adjustedReply o (level != asked) 2) else (t.cueRelease k src, doneReply o))

/-- CLEAR CUES (action 25). -/
def State.clearCues (s : State) (o : Order) : State :=
  let k := keyOf o
  s.cueOrder o 25 0 false [stationTest (s.station k) (fun x => x.stack.isEmpty) 20]
    (fun t => (t.releaseAllCues k, doneReply o))

/-- SET_CUE_ACCEPT (R122). -/
def execSetCueAccept (o : Order) (s : State) : Result := .next (s.setCueAccept o)

/-- CUE (R121, R122). -/
def execCue (o : Order) (s : State) : Result := .next (s.cue o)

/-- CLEAR_CUES (R122). -/
def execClearCues (o : Order) (s : State) : Result := .next (s.clearCues o)

/-! ## SET CUE (R126) -/

/-- The cue settings of one to nine words. -/
def Settings.withCue (x : Settings) (ws : List Word) : Settings :=
  { x with cueLimit := fieldNat ws 0, directorPorts := sortNat ((ws.drop 1).map BitVec.toNat) }

/-- The words of a SET CUE are outside their ranges. -/
def cueSettingsBad (ws : List Word) : Bool :=
  !((1 ≤ fieldNat ws 0 && fieldNat ws 0 ≤ 120) && (ws.drop 1).all (fun w => 1 ≤ w.toNat && w.toNat ≤ 48))

/-- SET CUE (Part action 19). -/
def State.setCueSettings (s : State) (o : Order) : State :=
  s.takeOrder o (Activity.order .part 19) (1 ≤ o.params.length && o.params.length ≤ 9) (s.orderReads o [])
    ([s.lacks o .plan 1] ++ s.holds o ++ [failIf (cueSettingsBad o.params) .range 2])
    (fun t => (t.putSettings (t.settings.withCue o.params), doneReply o))

/-- SET_CUE (R126). -/
def execSetCue (o : Order) (s : State) : Result := .next (s.setCueSettings o)

end Sys2Proof.Machine
end

