-- ==== Sys2Proof/Machine/Startup.lean ====
section
/-! DEFINITION. The Store Controller: power-on, reset, the memory test, loads, saves, RELOAD PLAN, RESTART and word access to the store (chapter 10). -/

namespace Sys2Proof.Machine

/-! ## Power-on and RESET# (R173) -/

/-- What a start-up leaves: every value of reset, the Plan Store as an abandoned save leaves it (R176), the waiting
commands, and the model's own counters. -/
def State.startUp (s : State) : State :=
  let t := s.abandonSave
  { State.reset with pending := t.pending, store := t.store, upsets := t.upsets, draws := t.draws }

/-- POWER_ON (R173). -/
def execPowerOn (s : State) : Result := .next s.startUp

/-- The release of RESET#: a start-up that keeps the Fault Snapshot (R183); the start code keeps its value until the load
ends (R180). -/
def State.resetPin (s : State) : State := { s.startUp with snapshot := s.snapshot, startCode := s.startCode }

/-- RESET (R173, R183). -/
def execReset (s : State) : Result := .next s.resetPin

/-- The memory test ends (R173). -/
def State.endMemoryTest (s : State) (passed : Bool) : State :=
  match s.load with
  | .memoryTest =>
    if passed then { s with load := .loading } else { s with load := .none, service := .halted, startCode := 6 }
  | .none | .loading | .reloadWaiting _ | .reloading _ _ => s

/-- MEMORY_TEST (R173). -/
def execMemoryTest (passed : Bool) (s : State) : Result := .next (s.endMemoryTest passed)

/-! ## The owners' work after a load (R172) -/

/-- A loaded station's pair stands when it names a loaded station of the right kind that names it in return (R76). -/
def State.pairStands (s : State) (k : Nat) (x : Station) : Bool :=
  match x.pair with
  | none => true
  | some p => !s.pairUnsuited k x.kind (some p) && s.partnerOf p = some k

/-- Keep the first entry of each identity. -/
def firstEntries : List Source → List Member → List Member
  | _, [] => []
  | seen, m :: ms => if seen.contains m.id then firstEntries seen ms else m :: firstEntries (m.id :: seen) ms

/-- The members that a loaded conference keeps (R114): no missing station, Camera or Mic, no repeats, at most 16; an
InEar listens only. -/
def State.loadedMembers (s : State) (ms : List Member) : List Member :=
  let fit := ms.filter (fun m => !s.identityGone m.id && !unsuitedMember (s.kindOf m.id))
  ((firstEntries [] fit).take Config.memberMax).map (fun m =>
    let inEar := s.kindOf m.id = some .inEar
    { m with listen := inEar || m.listen, talk := !inEar && m.talk, absent := s.absentNow m.id })

/-- A loaded carrier's intent stands when it names a loaded station that the carrier suits (R41). -/
def State.intentStands (s : State) (y : Carrier) : Bool :=
  match y.intent with
  | none => true
  | some (k, _) => match s.station k with | some x => x.kind.cls = y.cls | none => false

/-- References that the load did not produce are cleared, and the members legalised (R41, R76, R95, R114). -/
def State.clearReferences (s : State) : State :=
  { s with
    stations := s.stations.map (fun k x => if s.pairStands k x then x else { x with pair := none })
    carriers := s.carriers.map (fun _ y => if s.intentStands y then y else { y with intent := none })
    galleries := s.galleries.map (fun _ g =>
      { g with
        sources := g.sources.map (fun e => e.bind (fun k => (s.station k).map (fun _ => k)))
        follow := g.follow.bind (fun c => (s.conference c).map (fun _ => c)) })
    conferences := s.conferences.map (fun _ c => { c with members := s.loadedMembers c.members }) }

/-- The owners act on the loaded tables (R172): references, the evaluation of every window without a mark (R17), the
routings, and every carrier Checking with restore pending (R41). Stations are placed Parked with a MUTE wanted. -/
def State.ownersWork (s : State) : State :=
  let t := s.clearReferences.evaluate true (upTo 16)
  { t with
    conferences := t.conferences.map (fun _ c => { c with routing := c.routed })
    carriers := t.carriers.map (fun _ y => { y with state := .checking, restorePending := true }) }

/-- The image is read, and the start code, the store states, the store outcome and the Store flag are set (R172). Every
record that this writes has a fresh check code (R180); the Unit records stand. -/
def State.loadPlan (s : State) (acknowledged : Option Nat) : State :=
  let r := s.emptyPlan.readImage acknowledged
  let t := if r.code = 0 then r.state else s.emptyPlan
  State.latchStore
    { t with
      startCode := r.code
      storeStates := if r.code = 0 then StoreStates.stored else StoreStates.changed
      storeOutcome := if r.code = 0 then 1 else 2
      badCodes := t.badCodes.filter (fun r => r.table = .unit) }

/-- Decide every delivery that a record owns (R150, R158). -/
def State.decideOwned (s : State) : State :=
  s.forEach deliveryKeys (fun s p => if s.owned p.1 p.2 then s.decideDelivery p.1 p.2 else s)

/-- The queue and the final deliveries after RELOAD PLAN (R158; log 20). old: the tune deliveries of the old stations.
R158 gives no order in which the deliveries without an entry are decided: the old stations' final tunes and then the loaded
records' deliveries in the order of R152's scan is the model's choice (log 14). A CUE ROUTE entry of a key that the load
gives to a Camera or a Mic goes, the model's choice too (log 20). A LAMP entry of a station that the load produces again goes
as at a lamp that is no longer deliverable, a Queued one removed and a Sent one detached: R158 has the reloaded wanted state
replace the entry in place, but that station is Parked and its lamp is not decided (R88, R150), so this is the model's choice
(log 20). An entry to another unit than the reloaded record's goes in the same way (R153, R154).
Of earlier final deliveries whose target is not loaded, R158 speaks of entries alone: that one with an entry ends with it,
and that a Waiting or Stale one without an entry is kept, is the model's choice (log 20). -/
def State.reconcile (s : State) (old : List Final) : State :=
  let gone := old.filter (fun f => !s.owned .tune f.target)
  let kept := fun (e : Entry) =>
    s.owned e.kind e.target ||
      gone.any (fun f => e.kind = .tune && f.target = e.target && f.destination = some e.unit)
  let t : State := { s with
    finals := s.finals.filter (fun f =>
      !s.owned f.kind f.target && !s.queue.any (fun e => e.kind = f.kind && e.target = f.target))
    queue := s.queue.filter kept }
  let t := t.takeOverAll gone true
  let t := t.withdraw (fun e =>
    !e.detached && (t.delivery e.kind e.target).bind Delivery.destination != some e.unit)
  t.decideOwned.fillQueue

/-- The load of a start-up ends (R172, R173): the part enters In Service, the engine takes its first candidate. -/
def State.enterService (s : State) : State :=
  (State.decideOwned { s.ownersWork with service := .inService, load := .none }).engineLooks

/-- The load of RELOAD PLAN ends (R177): transactions resume, and the answer DONE is made ready. -/
def State.endReload (s : State) (key : Word) (old : List Final) : State :=
  (State.engineLooks (State.reconcile { s.ownersWork with load := .none } old)).answer ⟨.done, 0, key, []⟩

/-- A load is made, and then the owners' work on what it left. The load reads the Part record before it writes the settings
and the store states there (log 4), and a failure of that read comes before the load's end; a check failure in the owners'
work comes after it. Either halts the part (R180). That the owners' work reads every record, the Unit records among them, is
the model's reading of R172 (log 5). That a failure of either read has the activity of a notice, 4, in the load of RELOAD PLAN
too, is the model's choice (log 5). -/
def State.loadThen (s : State) (acknowledged : Option Nat) (work : State → State) : State :=
  s.readingPart Activity.notice (fun s => (s.loadPlan acknowledged).reading Activity.notice (fun _ => true) work)

/-- The plan load ends: the load of a start-up, or that of RELOAD PLAN. -/
def State.endLoad (s : State) (acknowledged : Option Nat) : State :=
  match s.load with
  | .loading => s.loadThen acknowledged State.enterService
  | .reloading key old => s.loadThen acknowledged (State.endReload · key old)
  | .none | .memoryTest | .reloadWaiting _ => s

/-- LOAD (R172). -/
def execLoad (acknowledged : Option Nat) (s : State) : Result := .next (s.endLoad acknowledged)

/-! ## Saves (R175, R176) -/

/-- The activity of an order on the Part record. -/
def partActivity (verb : Nat) : Nat := Activity.order .part verb

/-- The first write of a save fails (R176): the store keeps its image, the store states stay. -/
def State.firstWriteFails (s : State) : State := State.latchStore { s with storeOutcome := 4 }

/-- SAVE PLAN (Part action 24). acknowledged: the store acknowledges the first write. -/
def State.savePlan (s : State) (o : Order) (acknowledged : Bool) : State :=
  s.takeOrder o (partActivity 24) (o.params.length = 0) (s.orderReads o [])
    [s.lacks o .store 8, s.freezeHold o, failIf s.saving .state 3]
    (fun t =>
      if acknowledged then ({ t with saving := true, store := t.store.write 0 0#16 }, doneReply o)
      else (t.firstWriteFails, ⟨.state, 5, o.key, []⟩))

/-- SAVE_PLAN (R175). -/
def execSavePlan (o : Order) (acknowledged : Bool) (s : State) : Result := .next (s.savePlan o acknowledged)

/-- The whole image is written (R175). -/
def State.finishSave (s : State) : State :=
  State.latchStore
    { s.saveOver with
      store := s.store.writeAll s.saveWrites
      storeStates := StoreStates.stored
      storeOutcome := 3 }

/-- The last word of a save is written. The save reads every record that it has still to write; at the first damaged one
it stops, having written those before it (R176, R180). -/
def State.endSave (s : State) : State :=
  if s.saving then
    match s.saveLeft.find? (fun p => s.readFails p.1) with
    | some p => (s.saveReaches s.saveLeft.length).checkFailure p.1 Activity.save
    | none => s.readingPart Activity.save State.finishSave
  else s

/-- SAVE_END (R175). -/
def execSaveEnd (s : State) : Result := .next s.endSave

/-- A write after the first is not acknowledged (R176): the store has taken some writes, and not the last. -/
def State.failSave (s : State) (written : Nat) : State :=
  if s.saving then
    s.readingPart Activity.save (fun s =>
      State.saveLost { s with store := s.store.writeAll (s.writesMade written) })
  else s

/-- SAVE_FAILED (R176). -/
def execSaveFailed (written : Nat) (s : State) : Result := .next (s.failSave written)

/-! ## RELOAD PLAN (R177) and RESTART (R178) -/

/-- Some station's link is not Parked. -/
def State.stationsLive (s : State) : Bool := s.stations.records.any (fun p => p.2.link != .parked)

/-- What an activity that tests every station reads. -/
def State.stationReads (s : State) (o : Order) (r : RecordId) : Bool := s.orderReads o [] r || r.table = .station

/-- RELOAD PLAN (Part action 25): the load begins when the line is free. -/
def State.reloadPlan (s : State) (o : Order) : State :=
  s.gate o (partActivity 25) (o.params.length = 0) s.serviceDetail (s.stationReads o)
    ([s.lacks o .store 8] ++ s.holds o ++ [failIf (s.stationsLive && !s.forced o) .state 4])
    (fun t => if t.line.isNone then t.startReload o.key else { t with load := .reloadWaiting o.key })

/-- RELOAD_PLAN (R177). -/
def execReloadPlan (o : Order) (s : State) : Result := .next (s.reloadPlan o)

/-- The service states that refuse RESTART (R163, R178). -/
def State.restartDetail (s : State) : Option Nat :=
  match s.service with
  | .starting => some 1
  | .faultHandling => some 2
  | .inService | .halted => none

/-- A start-up without power-on (R178): no memory test; the Show Clock and the Fault Snapshot are kept; the Clock flag
is set again when the clock is Unset (R168). -/
def State.restarted (s : State) : State :=
  { s.startUp with
    load := .loading
    startCode := s.startCode
    snapshot := s.snapshot
    clock := s.clock
    latched := { Latched.none with clock := s.clock.unset }
    storeStates := s.storeStates
    storeOutcome := s.storeOutcome
    miso := s.miso }

/-- What RESTART reads: with word 0 every station is tested, with word 1 none (R178). -/
def State.restartReads (s : State) (o : Order) (r : RecordId) : Bool :=
  if fieldNat o.params 0 = 0 then s.stationReads o r else s.orderReads o [] r

/-- RESTART (Part action 26): one word, 0 or 1. In Halted it reads without a failure (State.firstBad): Force is tested on the
rights of a damaged Operator record as they stand, the model's choice (log 41). -/
def State.restartOrder (s : State) (o : Order) : State :=
  s.gate o (partActivity 26) (o.params.length = 1) s.restartDetail (s.restartReads o)
    [failIf (!s.forced o) .notPermitted 9,
      failIf (1 < fieldNat o.params 0) .range 2,
      failIf (fieldNat o.params 0 = 0 && s.stationsLive) .state 4]
    (fun t => t.restarted.answer (doneReply o))

/-- RESTART (R178). -/
def execRestart (o : Order) (s : State) : Result := .next (s.restartOrder o)

/-! ## Word access to the store (R179) -/

/-- The address of a store order is past the last word. -/
def addressBad (ws : List Word) : Bool := Config.storeSize ≤ fieldNat ws 0

/-- STORE READ (Part action 27): address. -/
def State.storeRead (s : State) (o : Order) (acknowledged : Bool) : State :=
  s.takeOrder o (partActivity 27) (o.params.length = 1) (s.orderReads o [])
    [s.lacks o .store 8, s.saveHold, failIf (addressBad o.params) .range 2, failIf (!acknowledged) .state 5]
    (fun t => (t, doneWith o [t.store.read (fieldNat o.params 0)]))

/-- STORE WRITE (Part action 28): address, value. -/
def State.storeWrite (s : State) (o : Order) (acknowledged : Bool) : State :=
  s.takeOrder o (partActivity 28) (o.params.length = 2) (s.orderReads o [])
    [s.lacks o .store 8, s.freezeHold o, s.saveHold, failIf (addressBad o.params) .range 2]
    (fun t =>
      let u := State.latchStore { t with storeStates := StoreStates.changed, storeOutcome := 5 }
      if acknowledged then
        ({ u with store := u.store.write (fieldNat o.params 0) (o.params.getD 1 0#16) }, doneReply o)
      else (u, ⟨.state, 5, o.key, []⟩))

/-- STORE_READ (R179). -/
def execStoreRead (o : Order) (acknowledged : Bool) (s : State) : Result := .next (s.storeRead o acknowledged)

/-- STORE_WRITE (R179). -/
def execStoreWrite (o : Order) (acknowledged : Bool) (s : State) : Result := .next (s.storeWrite o acknowledged)

end Sys2Proof.Machine
end

