-- ==== Sys2Proof/Machine/Quarantine.lean ====
section
/-! DEFINITION. Fault handling: the quarantine of a damaged record (R181, R183). -/

namespace Sys2Proof.Machine

/-- The stations that hold a carrier, each with the role. -/
def State.slotHolders (s : State) (c : Nat) : List (Nat × Role) :=
  s.stations.records.flatMap (fun p =>
    (if p.2.primary = some c then [(p.1, Role.primary)] else []) ++
      (if p.2.standby = some c then [(p.1, Role.standby)] else []))

/-- The station that holds a damaged carrier loses the slot (R54). -/
def State.slotsLost (s : State) (c : Nat) : State :=
  s.forEach (s.slotHolders c) (fun s p => s.loseSlot p.1 p.2 StationReason.carrierDamaged)

/-- The final deliveries of a damaged station (R153, R181): a MUTE and a cue route of none, with the undelivered value;
the kind and the control unit are those of the Fault Monitor's copy. The station asks for its lamp no longer. -/
def State.damagedFinals (s : State) (k : Nat) : State :=
  match s.station k with
  | none => s
  | some x =>
    let t : State := { s with stations := s.stations.damage k [] }
    let t := t.takeOverAll (stationFinals k x.kind x.controlUnit id id) true
    t.withdraw (fun e => e.kind = .lamp && e.target = k && !e.detached)

/-- The stations of which a gallery is a contributing gallery. -/
def State.contributors (s : State) (g : Nat) : List Nat :=
  (s.stations.records.filter (fun p => p.2.contributing.contains g)).map (·.1)

/-- The lists of a conference show that a gallery follows into it: a Follow member has the gallery among its reasons, or
a waiting beltpack is due there by the gallery alone. -/
def State.showsFollow (s : State) (g c : Nat) : Bool :=
  match s.conference c with
  | none => false
  | some x =>
    x.members.any (fun m => m.join = .follow && m.reasons.contains g) ||
      x.waiting.any (fun p => (s.dueReasons (some (g, none)) p c).isEmpty)

/-- The stations that a conference's lists show to follow a gallery: Follow members with it among their reasons, and
waiting beltpacks due by it alone. -/
def State.followersIn (s : State) (g c : Nat) : List Nat :=
  match s.conference c with
  | none => []
  | some x =>
    (x.members.filter (fun m => m.join = .follow && m.reasons.contains g)).filterMap
          (fun m => match m.id with | .station p => some p | .port _ | .operator _ => none) ++
      x.waiting.filter (fun p => (s.dueReasons (some (g, none)) p c).isEmpty)

/-- The follow notice of a damaged gallery (R109, R181): the beltpacks of its contributing cameras are recomputed in the
conference that it followed into, and so is every station that a list shows to follow it, the gallery being read as
following into none. The quarantine does not read the gallery, so that conference is found from the lists that show it
(log 38). -/
def State.followersLeave (s : State) (g : Nat) : State :=
  let followed := (upTo 24).filter (s.showsFollow g)
  let t := s.forEach (s.contributors g) (fun t k =>
    match t.beltpackOf k with
    | some p => t.recomputeEverywhere (some (g, none)) p (fun _ c => followed.contains c)
    | none => t)
  t.forEach (upTo 24) (fun t c =>
    t.forEach (t.followersIn g c) (fun t p => t.recomputeFollow (some (g, none)) p c))

/-- A damaged gallery reaches no station: the derivation of its contributors. -/
def State.galleryGone (s : State) (g : Nat) : State :=
  State.derive { s with galleries := s.galleries.erase g } (s.contributors g)

/-- A damaged conference drops its lists, and an empty routing is wanted under its number, undelivered (R115, R153). -/
def State.conferenceGone (s : State) (c : Nat) : State :=
  State.takeOver { s with conferences := s.conferences.erase c } ⟨.routing, c, none, .routing ⟨[], []⟩, none, .waiting⟩
    true

/-- A damaged Operator record: no right and an empty mask, or everything for operator 0 (R140). -/
def State.operatorGone (s : State) (n : Nat) : State :=
  { s with operators := s.operators.set n (if n = 0 then Operator.full else Operator.empty) }

/-- The stages of the quarantine of a record, in order: the tables that the owner searches for its relations, and what it
does (R181; log 31). -/
def quarantineStages (r : RecordId) : List (List TableId × (State → State)) :=
  match r.table with
  | .window => [([.station, .carrier], (State.parkExpired · r.key)), ([.carrier], (State.expireCarriers · r.key))]
  | .carrier =>
    [([], (State.leaveChecking · r.key)), ([.station], (State.slotsLost · r.key)),
      ([.carrier], (State.alternateGone · r.key))]
  | .station =>
    [([], (State.damagedFinals · r.key)), ([.carrier], (State.stationGone · r.key false)),
      ([.conference], (State.stationLeavesAll · r.key false)), ([.gallery], (State.unmapStation · r.key false)),
      ([.station], (State.partnersLeft · r.key)), ([.station], (State.releaseSourced · r.key))]
  | .gallery =>
    [([.station, .gallery, .conference], (State.followersLeave · r.key)),
      ([.station, .gallery], (State.galleryGone · r.key))]
  | .conference => [([.gallery], (State.unfollow · r.key false)), ([], (State.conferenceGone · r.key))]
  | .operator => [([], (State.operatorGone · r.key))]
  | .unit =>
    [([.station, .gallery, .conference], (State.unitLost · r.key)), ([.station, .conference], (State.forget · r.key))]
  | .part => []

/-- Last, the slot takes state Damaged and mark reason Damaged; a Unit record restarts Absent with the reason, an
Operator record stays a record (R181). The mark is Damaged alone: that no reason held before stays in it is the model's
reading of "retired" (R166) and, for a Unit record, of "restarts" (log 32). -/
def State.slotDamaged (s : State) (r : RecordId) : State :=
  match r.table with
  | .window => { s with windows := s.windows.damage r.key [WindowReason.damaged] }
  | .carrier => { s with carriers := s.carriers.damage r.key [CarrierReason.damaged] }
  | .station => { s with stations := s.stations.damage r.key [StationReason.damaged] }
  | .gallery => { s with galleries := s.galleries.damage r.key [GalleryReason.damaged] }
  | .conference => { s with conferences := s.conferences.damage r.key [ConferenceReason.damaged] }
  | .unit => s.modUnit r.key (fun _ => { LineUnit.reset with mark := [UnitReason.damaged] })
  | .operator | .part => s

/-- The part returns to In Service (R181): due grace expiries and the evaluation of every window, then the engine; each
reads what it touches. -/
def State.returnToService (s : State) (r : RecordId) : State :=
  let t : State := { s with service := .inService, badCodes := s.badCodes.filter (· != r) }
  let t := t.acting Activity.timer (fun q => q = ⟨.part, 0⟩ || t.near t.windowNames q) State.windowsResume
  t.engineResumes.checkBegun

/-- What a stage of the quarantine reads: the Part record, the tables that its owner searches, and what its cascade reads.
The cascade is that of the other records: the slot under quarantine counts as Damaged before the stage as after it. -/
def State.stageReads (s : State) (stage : List TableId × (State → State)) (r : RecordId) : Bool :=
  let seen (t : State) : State := match s.quarantined with | some q => t.veil q | none => t
  r = ⟨.part, 0⟩ || stage.1.contains r.table || (seen s).cascadeReads (seen (stage.2 s)) r

/-- Do the stages of a quarantine. Each owner reads the Part record, the tables that it searches and what its cascade
reads before it changes any; a second damaged record among these halts the part before that stage (R183; log 9). -/
def quarantineRuns : List (List TableId × (State → State)) → (State → State) → State → State
  | [], last, s => last s
  | p :: rest, last, s =>
    s.reading Activity.notice (s.stageReads p) (fun s => quarantineRuns rest last (p.2 s))

/-- Fault handling ends (R181), or meets a second damaged record and halts the part where it stands (R183). A running save
has gone on before it (R176). -/
def State.endQuarantine (s : State) : State :=
  match s.service, s.snapshot with
  | .faultHandling, some snap =>
    quarantineRuns (quarantineStages snap.record) (fun t => (t.slotDamaged snap.record).returnToService snap.record)
      s.saveGoesOn
  | _, _ => s

/-- QUARANTINE (R181). -/
def execQuarantine (s : State) : Result := .next s.endQuarantine

end Sys2Proof.Machine
end

