-- ==== Sys2Proof/Machine/Port.lean ====
section
/-! DEFINITION. The Control Port's transactions: ORDER_FRAME, OVERRUN, ANSWER_READ (9.1, R159 to R162). -/

namespace Sys2Proof.Machine

/-- The read command byte (R159). -/
def readCommand : Byte := 0x3A#8

/-! ## Answers (R161) -/

/-- The bytes of an answer frame (9.1). -/
def Answer.frame (a : Answer) : List Byte :=
  closeFrame
    ([0x5C#8, BitVec.ofNat 8 a.status.code, BitVec.ofNat 8 a.detail, highByte a.key, lowByte a.key,
      BitVec.ofNat 8 a.words.length] ++ bytesOfWords a.words)

/-- The frame that a read transaction clocks out; none pending, no byte. -/
def State.pendingFrame (s : State) : List Byte :=
  match s.port with
  | .pending a => a.frame
  | .idle | .processing _ => []

/-- The bytes on MISO in a read transaction of n bytes: 0x00 for the command byte, the frame, and 0x00 after it. -/
def readBytes (frame : List Byte) (n : Nat) : List Byte := (0#8 :: frame ++ List.replicate n 0#8).take n

/-- A read transaction of n whole bytes: it collects the answer when it reaches the checksum byte. -/
def State.readAnswer (s : State) (n : Nat) : State :=
  if n = 0 then s
  else
    let t := { s with miso := readBytes s.pendingFrame n }
    match s.port with
    | .pending a => if a.frame.length < n then { t with port := .idle } else t
    | .idle | .processing _ => t

/-- ANSWER_READ (R161). -/
def execAnswerRead (n : Nat) (s : State) : Result := .next (s.readAnswer n)

/-! ## Discarded frames (R160) -/

/-- The port is idle. -/
def State.portIdle (s : State) : Bool :=
  match s.port with
  | .idle => true
  | .processing _ | .pending _ => false

/-- A write transaction that a busy port discards. -/
def State.discard (s : State) (bs : List Byte) : State := (s.clockZeros bs.length).latchOverrun

/-- A write transaction has at least one whole byte, and the first is not the read command (R159). -/
def isWrite (bs : List Byte) : Bool :=
  match bs with
  | [] => false
  | b :: _ => b != readCommand

/-- OVERRUN (R160): with an idle port the frame would be offered as an order, which is ORDER_FRAME's. -/
def execOverrun (bs : List Byte) (s : State) : Result :=
  .next (if isWrite bs && !s.portIdle then s.discard bs else s)

/-! ## Order frames (R162, R164) -/

/-- What an order of a table and verb does; none: a verb the table does not take (R164). acknowledged is the store's
acknowledgement of the transfer that a store order makes. -/
def orderEffect (acknowledged : Bool) (table verb : Nat) : Option (State → Order → State) :=
  match table, verb with
  | 1, 1 => some State.defineWindow
  | 1, 2 => some State.editWindow
  | 1, 3 => some State.retireWindow
  | 1, 4 => some (State.readTable · .window)
  | 1, 5 => some (State.claimRecord · .window)
  | 1, 6 => some (State.releaseRecord · .window)
  | 1, 7 => some (State.nextMarked · .window)
  | 2, 1 => some State.defineCarrier
  | 2, 2 => some State.editCarrier
  | 2, 3 => some State.retireCarrier
  | 2, 4 => some (State.readTable · .carrier)
  | 2, 5 => some (State.claimRecord · .carrier)
  | 2, 6 => some (State.releaseRecord · .carrier)
  | 2, 7 => some (State.nextMarked · .carrier)
  | 2, 16 => some State.checkCarrier
  | 2, 17 => some State.cancelCheck
  | 2, 18 => some State.blockCarrier
  | 2, 19 => some State.unblockCarrier
  | 3, 1 => some State.defineStation
  | 3, 2 => some State.editStation
  | 3, 3 => some State.retireStation
  | 3, 4 => some (State.readTable · .station)
  | 3, 5 => some (State.claimRecord · .station)
  | 3, 6 => some (State.releaseRecord · .station)
  | 3, 7 => some (State.nextMarked · .station)
  | 3, 16 => some State.bindStation
  | 3, 17 => some State.unbindStation
  | 3, 18 => some State.goLive
  | 3, 19 => some State.park
  | 3, 20 => some State.swap
  | 3, 21 => some State.callStation
  | 3, 22 => some State.clearCall
  | 3, 23 => some State.setCueAccept
  | 3, 24 => some State.cue
  | 3, 25 => some State.clearCues
  | 4, 1 => some State.defineGallery
  | 4, 2 => some State.editGallery
  | 4, 3 => some State.retireGallery
  | 4, 4 => some (State.readTable · .gallery)
  | 4, 5 => some (State.claimRecord · .gallery)
  | 4, 6 => some (State.releaseRecord · .gallery)
  | 4, 7 => some (State.nextMarked · .gallery)
  | 5, 1 => some State.defineConference
  | 5, 2 => some State.editConference
  | 5, 3 => some State.retireConference
  | 5, 4 => some State.readConference
  | 5, 5 => some (State.claimRecord · .conference)
  | 5, 6 => some (State.releaseRecord · .conference)
  | 5, 7 => some (State.nextMarked · .conference)
  | 5, 16 => some State.addMember
  | 5, 17 => some State.removeMember
  | 6, 1 => some State.defineOperator
  | 6, 2 => some State.editOperator
  | 6, 3 => some State.retireOperator
  | 6, 4 => some (State.readTable · .operator)
  | 6, 16 => some State.releaseAll
  | 7, 4 => some (State.readTable · .unit)
  | 7, 7 => some (State.nextMarked · .unit)
  | 7, 16 => some State.forgetUnit
  | 7, 17 => some State.lineReset
  | 8, 4 => some State.readPart
  | 8, 16 => some State.setClock
  | 8, 17 => some State.setCoordination
  | 8, 18 => some State.setLinkSettings
  | 8, 19 => some State.setCueSettings
  | 8, 20 => some State.freezePlan
  | 8, 21 => some State.thawPlan
  | 8, 22 => some State.setMatrixUnit
  | 8, 23 => some State.readAttention
  | 8, 24 => some (State.savePlan · · acknowledged)
  | 8, 25 => some State.reloadPlan
  | 8, 26 => some State.restartOrder
  | 8, 27 => some (State.storeRead · · acknowledged)
  | 8, 28 => some (State.storeWrite · · acknowledged)
  | _, _ => none

/-- A byte of a frame as a number. -/
def byteAt (bs : List Byte) (i : Nat) : Nat := (bs.getD i 0#8).toNat

/-- The key that an answer to a frame echoes (R162): bytes 4 and 5 when it holds at least 6 bytes, else 0. -/
def frameKey (bs : List Byte) : Word := if 6 ≤ bs.length then wordOf (byteAt bs 4 * 256 + byteAt bs 5) else 0#16

/-- The order of a frame that passes the form tests. -/
def orderOfFrame (bs : List Byte) : Order where
  operator := Fin.ofNat 8 (byteAt bs 1)
  key := frameKey bs
  force := byteAt bs 6 % 2 = 1
  steal := byteAt bs 6 / 2 % 2 = 1
  clear := byteAt bs 6 / 4 % 2 = 1
  params := wordsOfBytes ((bs.drop 8).take (2 * byteAt bs 7))

/-- The form tests before the verb (R162): the detail of the first that fails. -/
def formFails (bs : List Byte) : Option Nat :=
  if byteAt bs 0 != 0xC5 then some 1
  else if bs.length < 9 || 16 < byteAt bs 7 || bs.length != 9 + 2 * byteAt bs 7 then some 2
  else if byteSum bs != 0#8 then some 3
  else if 7 < byteAt bs 1 then some 4
  else if byteAt bs 2 = 0 || 8 < byteAt bs 2 then some 5
  else none

/-- The answer MALFORMED to a frame. -/
def State.malformed (s : State) (bs : List Byte) (detail : Nat) : State :=
  (s.clockZeros bs.length).answer ⟨.malformed, detail, frameKey bs, []⟩

/-- A write transaction offered to an idle port (R160, R162). -/
def State.offer (s : State) (bs : List Byte) (acknowledged : Bool) : State :=
  match formFails bs with
  | some d => s.malformed bs d
  | none =>
    match orderEffect acknowledged (byteAt bs 2) (byteAt bs 3) with
    | none => s.malformed bs 6
    | some effect => effect s (orderOfFrame bs)

/-- The bytes of a transaction: none is ignored, the read command makes a read (log 18), a write is offered to an idle
port and discarded by a busy one (R159, R160). -/
def State.transaction (s : State) (bs : List Byte) (acknowledged : Bool) : State :=
  match bs with
  | [] => s
  | b :: _ =>
    if b = readCommand then s.readAnswer bs.length
    else if s.portIdle then s.offer bs acknowledged
    else s.discard bs

/-- ORDER_FRAME (R162). -/
def execOrderFrame (bs : List Byte) (acknowledged : Bool) (s : State) : Result :=
  .next (s.transaction bs acknowledged)

end Sys2Proof.Machine
end

