-- ==== Sys2Proof/Machine/Dispatch.lean ====
section
/-! DEFINITION. The effect of every command on everything but the queue: one direct call per constructor of Instr. -/

namespace Sys2Proof.Machine

def exec (i : Instr) (s : State) : Host.Outcome State Fault Refusal :=
  match i with
  | .powerOn => Sys2Proof.Machine.execPowerOn s
  | .reset => Sys2Proof.Machine.execReset s
  | .memoryTest passed => Sys2Proof.Machine.execMemoryTest passed s
  | .load ack => Sys2Proof.Machine.execLoad ack s
  | .showClockAdvance => Sys2Proof.Machine.execShowClockAdvance s
  | .graceExpiry w => Sys2Proof.Machine.execGraceExpiry w s
  | .endOfCheck => Sys2Proof.Machine.execEndOfCheck s
  | .tuneTimeout k => Sys2Proof.Machine.execTuneTimeout k s
  | .watchRunsOut k => Sys2Proof.Machine.execWatchRunsOut k s
  | .recovery k => Sys2Proof.Machine.execRecovery k s
  | .cleanAgePassingLinkWatch c => Sys2Proof.Machine.execCleanAgePassingLinkWatch c s
  | .callTimeout k => Sys2Proof.Machine.execCallTimeout k s
  | .cueTimeout k source => Sys2Proof.Machine.execCueTimeout k source s
  | .poll => Sys2Proof.Machine.execPoll s
  | .discover => Sys2Proof.Machine.execDiscover s
  | .directiveTurn => Sys2Proof.Machine.execDirectiveTurn s
  | .pollAnswered bs => Sys2Proof.Machine.execPollAnswered bs s
  | .pollMissed => Sys2Proof.Machine.execPollMissed s
  | .discoverAnswered bs => Sys2Proof.Machine.execDiscoverAnswered bs s
  | .discoverMissed => Sys2Proof.Machine.execDiscoverMissed s
  | .acknowledgement bs => Sys2Proof.Machine.execAcknowledgement bs s
  | .acknowledgementMissed => Sys2Proof.Machine.execAcknowledgementMissed s
  | .orderFrame bs ack => Sys2Proof.Machine.execOrderFrame bs ack s
  | .overrun bs => Sys2Proof.Machine.execOverrun bs s
  | .answerRead n => Sys2Proof.Machine.execAnswerRead n s
  | .read table o => Sys2Proof.Machine.execRead table o s
  | .readConference o => Sys2Proof.Machine.execReadConference o s
  | .readPart o => Sys2Proof.Machine.execReadPart o s
  | .claim table o => Sys2Proof.Machine.execClaim table o s
  | .release table o => Sys2Proof.Machine.execRelease table o s
  | .nextMarked table o => Sys2Proof.Machine.execNextMarked table o s
  | .defineWindow o => Sys2Proof.Machine.execDefineWindow o s
  | .editWindow o => Sys2Proof.Machine.execEditWindow o s
  | .retireWindow o => Sys2Proof.Machine.execRetireWindow o s
  | .defineCarrier o => Sys2Proof.Machine.execDefineCarrier o s
  | .editCarrier o => Sys2Proof.Machine.execEditCarrier o s
  | .retireCarrier o => Sys2Proof.Machine.execRetireCarrier o s
  | .checkCarrier o => Sys2Proof.Machine.execCheckCarrier o s
  | .cancelCheck o => Sys2Proof.Machine.execCancelCheck o s
  | .blockCarrier o => Sys2Proof.Machine.execBlockCarrier o s
  | .unblockCarrier o => Sys2Proof.Machine.execUnblockCarrier o s
  | .setCoordination o => Sys2Proof.Machine.execSetCoordination o s
  | .defineStation o => Sys2Proof.Machine.execDefineStation o s
  | .editStation o => Sys2Proof.Machine.execEditStation o s
  | .retireStation o => Sys2Proof.Machine.execRetireStation o s
  | .bindStation o => Sys2Proof.Machine.execBindStation o s
  | .unbindStation o => Sys2Proof.Machine.execUnbindStation o s
  | .goLive o => Sys2Proof.Machine.execGoLive o s
  | .park o => Sys2Proof.Machine.execPark o s
  | .swap o => Sys2Proof.Machine.execSwap o s
  | .setLink o => Sys2Proof.Machine.execSetLink o s
  | .callStation o => Sys2Proof.Machine.execCallStation o s
  | .clearCall o => Sys2Proof.Machine.execClearCall o s
  | .defineGallery o => Sys2Proof.Machine.execDefineGallery o s
  | .editGallery o => Sys2Proof.Machine.execEditGallery o s
  | .retireGallery o => Sys2Proof.Machine.execRetireGallery o s
  | .defineConference o => Sys2Proof.Machine.execDefineConference o s
  | .editConference o => Sys2Proof.Machine.execEditConference o s
  | .retireConference o => Sys2Proof.Machine.execRetireConference o s
  | .addMember o => Sys2Proof.Machine.execAddMember o s
  | .removeMember o => Sys2Proof.Machine.execRemoveMember o s
  | .setCueAccept o => Sys2Proof.Machine.execSetCueAccept o s
  | .cue o => Sys2Proof.Machine.execCue o s
  | .clearCues o => Sys2Proof.Machine.execClearCues o s
  | .setCue o => Sys2Proof.Machine.execSetCue o s
  | .editOperator o => Sys2Proof.Machine.execEditOperator o s
  | .defineOperator o => Sys2Proof.Machine.execDefineOperator o s
  | .retireOperator o => Sys2Proof.Machine.execRetireOperator o s
  | .releaseAll o => Sys2Proof.Machine.execReleaseAll o s
  | .freezePlan o => Sys2Proof.Machine.execFreezePlan o s
  | .thawPlan o => Sys2Proof.Machine.execThawPlan o s
  | .setClock o => Sys2Proof.Machine.execSetClock o s
  | .setMatrixUnit o => Sys2Proof.Machine.execSetMatrixUnit o s
  | .forgetUnit o => Sys2Proof.Machine.execForgetUnit o s
  | .lineReset o => Sys2Proof.Machine.execLineReset o s
  | .readAttention o => Sys2Proof.Machine.execReadAttention o s
  | .savePlan o ack => Sys2Proof.Machine.execSavePlan o ack s
  | .saveEnd => Sys2Proof.Machine.execSaveEnd s
  | .saveFailed n => Sys2Proof.Machine.execSaveFailed n s
  | .reloadPlan o => Sys2Proof.Machine.execReloadPlan o s
  | .restart o => Sys2Proof.Machine.execRestart o s
  | .storeRead o ack => Sys2Proof.Machine.execStoreRead o ack s
  | .storeWrite o ack => Sys2Proof.Machine.execStoreWrite o ack s
  | .quarantine => Sys2Proof.Machine.execQuarantine s

end Sys2Proof.Machine
end

