-- ==== Sys2Proof/WellFormed.lean ====
section
/-! DEFINITION. Which commands a sender can form: the operands' ranges of the spec. -/

namespace Sys2Proof

/-- An order frame holds at most 16 parameter words (9.1). -/
def Order.wf (o : Order) : Bool := o.params.length ≤ 16

/-- A unit frame holds 6 bytes of header and check and at most 104 body words (8.1). -/
def unitFrameWf (bs : List Byte) : Bool := bs.length ≤ 215

/-- The bytes of a write transaction: at least one, and the first is not the read command 0x3A (R159). -/
def writeWf (bs : List Byte) : Bool := !bs.isEmpty && bs.head? != some 0x3A#8

/-- A station key 1 to 96. -/
def stationKeyWf (k : Nat) : Bool := 1 ≤ k && k ≤ 96

/-- A source word of the cue coding (R116). -/
def sourceWordWf (w : Word) : Bool :=
  (1 ≤ w.toNat && w.toNat ≤ 96) || (257 ≤ w.toNat && w.toNat ≤ 304) || (512 ≤ w.toNat && w.toNat ≤ 519)

/-- The tables that have claims (7.5). -/
def TableId.claimable : TableId → Bool
  | .window | .carrier | .station | .gallery | .conference => true
  | .operator | .unit | .part => false

/-- The tables that have marks (R164). -/
def TableId.marked : TableId → Bool
  | .window | .carrier | .station | .gallery | .conference | .unit => true
  | .operator | .part => false

/-- The tables whose READ is the row READ; READ CONFERENCE and READ PART have rows of their own. -/
def TableId.plainRead : TableId → Bool
  | .window | .carrier | .station | .gallery | .operator | .unit => true
  | .conference | .part => false

/-- A command that a sender of the spec can form. -/
def Instr.wf : Instr → Bool
  | .powerOn | .reset | .memoryTest _ | .showClockAdvance | .endOfCheck | .poll | .discover | .directiveTurn
  | .pollMissed | .discoverMissed | .acknowledgementMissed | .saveEnd | .quarantine => true
  | .load a => a.all (· < Config.storeSize)
  | .graceExpiry w => 1 ≤ w && w ≤ 16
  | .tuneTimeout k | .watchRunsOut k | .recovery k | .callTimeout k => stationKeyWf k
  | .cleanAgePassingLinkWatch c => 1 ≤ c && c ≤ 128
  | .cueTimeout k w => stationKeyWf k && sourceWordWf w
  | .pollAnswered f | .discoverAnswered f | .acknowledgement f => unitFrameWf f
  | .orderFrame bs _ | .overrun bs => writeWf bs
  | .answerRead n => 1 ≤ n
  | .saveFailed n => 1 ≤ n
  | .read t o => t.plainRead && o.wf
  | .claim t o | .release t o => t.claimable && o.wf
  | .nextMarked t o => t.marked && o.wf
  | .savePlan o _ | .storeRead o _ | .storeWrite o _ => o.wf
  | .readConference o | .readPart o | .defineWindow o | .editWindow o | .retireWindow o | .defineCarrier o
  | .editCarrier o | .retireCarrier o | .checkCarrier o | .cancelCheck o | .blockCarrier o | .unblockCarrier o
  | .setCoordination o | .defineStation o | .editStation o | .retireStation o | .bindStation o | .unbindStation o
  | .goLive o | .park o | .swap o | .setLink o | .callStation o | .clearCall o | .defineGallery o | .editGallery o
  | .retireGallery o | .defineConference o | .editConference o | .retireConference o | .addMember o
  | .removeMember o | .setCueAccept o | .cue o | .clearCues o | .setCue o | .editOperator o | .defineOperator o
  | .retireOperator o | .releaseAll o | .freezePlan o | .thawPlan o | .setClock o | .setMatrixUnit o | .forgetUnit o
  | .lineReset o | .readAttention o | .reloadPlan o | .restart o => o.wf

end Sys2Proof
end

