-- ==== Sys2Proof/Safety.lean ====
section
/-! DEFINITION. What must stay true at every step (the invariants), and the words in which the statements speak of orders: the frame of an order, when the port takes one, and when no hold stands in its way. -/

namespace Sys2Proof.Machine

/-! ## Invariants -/

/-- Every record table lists its slots by strictly rising key. -/
abbrev State.tablesInOrder (s : State) : Prop :=
  s.windows.wf ∧ s.carriers.wf ∧ s.stations.wf ∧ s.galleries.wf ∧ s.conferences.wf

/-- The key of an entry of the Directive Queue: its unit, delivery kind and target (R151). -/
def Entry.key (e : Entry) : Nat × DeliveryKind × Nat := (e.unit, e.kind, e.target)

/-- The queues hold what the part has room for: 16 checks (R31), 64 directives, no two of one key and each sent 0 to 3 times
(R151). -/
def State.queuesFit (s : State) : Prop :=
  s.checkQueue.length ≤ Config.checkQueueSize ∧ s.queue.length ≤ Config.directiveQueueSize ∧
    (s.queue.map Entry.key).Nodup ∧ ∀ e ∈ s.queue, e.attempts ≤ 3

/-- The Operator and the Unit Table keep their 8 and 32 records; operator 0 holds every right and a full window mask
(R129). -/
def State.fixedRecords (s : State) : Prop :=
  s.operators.length = 8 ∧ s.operatorAt 0 = Operator.full ∧ s.units.length = 32

/-- What every step keeps: the Plan Store's canonical form, the tables' order, the capacities and keys of the queues, the
fixed records, and a sequence number of one byte (R141). -/
def State.Inv (s : State) : Prop :=
  s.store.wf ∧ s.tablesInOrder ∧ s.queuesFit ∧ s.fixedRecords ∧ s.sequence < 256

/-- The lists of a conference fit: 16 members, 4 talkers, 8 waiting stations (R96). -/
def Conference.fits (x : Conference) : Prop :=
  x.members.length ≤ Config.memberMax ∧ x.talkers.length ≤ Config.talkerMax ∧ x.waiting.length ≤ Config.waitMax

/-- Every conference's lists fit. -/
def State.conferencesFit (s : State) : Prop := ∀ k x, s.conference k = some x → x.fits

/-- Every cue stack holds at most two entries (R116). -/
def State.stacksFit (s : State) : Prop := ∀ k x, s.station k = some x → x.stack.length ≤ 2

/-- Pairs are mutual, between a Camera and a Beltpack (R48). -/
def State.pairsMutual (s : State) : Prop :=
  ∀ k x b, s.station k = some x → x.pair = some b → ∃ y, s.station b = some y ∧ y.pair = some k ∧
    ((x.kind = .camera ∧ y.kind = .beltpack) ∨ (x.kind = .beltpack ∧ y.kind = .camera))

/-- Slots and bound fields name each other, and a carrier's state is that of its slot (R18); a carrier under quarantine
counts as retired (R181). -/
def State.slotsMatch (s : State) : Prop :=
  (∀ k x role c, s.station k = some x → x.slotOf role = some c → s.quarantined ≠ some ⟨.carrier, c⟩ →
    ∃ y, s.carrier c = some y ∧ y.bound = some (k, role)) ∧
  (∀ c y, s.carrier c = some y → s.quarantined ≠ some ⟨.carrier, c⟩ →
    (∀ k role, y.bound = some (k, role) → ∃ x, s.station k = some x ∧ x.slotOf role = some c) ∧
      (∀ k, y.bound = some (k, .primary) → y.state = .assigned) ∧
      (∀ k, y.bound = some (k, .standby) → y.state = .standby ∨ y.state = .blocked) ∧
      (y.state = .assigned ∨ y.state = .standby → y.bound ≠ none))

/-- No carrier is twice in the Check Queue; the carriers that wait, that are under the engine or that are restore pending
are the Checking ones, each in one of these places (R18, R31, R41). -/
def State.checksMatch (s : State) : Prop :=
  s.checkQueue.Nodup ∧
  (∀ c ∈ s.checkQueue, ∃ y, s.carrier c = some y ∧ y.state = .checking ∧ y.restorePending = false ∧
    s.engine.map Check.carrier ≠ some c) ∧
  (∀ k, s.engine = some k → ∃ y, s.carrier k.carrier = some y ∧ y.state = .checking ∧ y.restorePending = false) ∧
  (∀ c y, s.carrier c = some y →
    (y.restorePending = true → y.state = .checking) ∧
      (y.state = .checking → c ∈ s.checkQueue ∨ s.engine.map Check.carrier = some c ∨ y.restorePending = true))

/-- A member's absent flag follows the link of its station (R105), and the talkers are members with Talk that are not
absent (R96); a conference under quarantine counts as retired. -/
def State.talkersPresent (s : State) : Prop :=
  ∀ c x, 1 ≤ c → c ≤ 24 → s.conference c = some x → s.quarantined ≠ some ⟨.conference, c⟩ →
    (∀ m ∈ x.members, m.absent = s.absentNow m.id) ∧
      (∀ id ∈ x.talkers, ∃ m ∈ x.members, m.id = id ∧ m.talk = true ∧ m.absent = false)

/-- The lamp of a station (R87): the level is a Camera's own tally and the tally of a Beltpack's Camera, Flash is a cue
and Call a call on the station or on the one that its pair names; a Mic and an InEar have none. -/
def State.lampWanted (s : State) (x : Station) : Option Lamp :=
  let partner := x.pair.bind s.station
  let onEither := fun (p : Station → Bool) => p x || (partner.map p).getD false
  let flags : Tally → Lamp := fun level => ⟨level, onEither (fun y => y.stack != []), onEither (fun y => y.call.isSome)⟩
  match x.kind with
  | .mic | .inEar => none
  | .camera => some (flags x.tally)
  | .beltpack => some (flags ((partner.map Station.tally).getD .off))

/-- Every wanted lamp is what R87 gives; the record under quarantine and its partner apart. -/
def State.lampsMatch (s : State) : Prop :=
  ∀ k x, s.station k = some x → s.quarantined ≠ some ⟨.station, k⟩ →
    (∀ p, x.pair = some p → s.quarantined ≠ some ⟨.station, p⟩) → x.lamp = s.lampWanted x

/-- The laws between records, which hold in every service state but Halted (R183). -/
def State.recordLaws (s : State) : Prop :=
  s.service ≠ .halted → s.pairsMutual ∧ s.slotsMatch ∧ s.checksMatch ∧ s.talkersPresent ∧ s.lampsMatch

/-- Two carriers are at least half the sum of their widths plus the spacing guard apart (R18). -/
def State.spaced (s : State) (y z : Carrier) : Prop :=
  (y.cls.width + z.cls.width) / 2 + s.settings.spacingGuard ≤
    (y.frequency - z.frequency) + (z.frequency - y.frequency)

/-- No product of two carriers, of the orders in force, lies within the IM guard of a third (R18, R35, R36). -/
def State.productsClear (s : State) (x y z : Carrier) : Prop :=
  ∀ m : Int, m = 2 ∨ (m = 3 ∧ s.settings.imFifth = true) →
    s.settings.imGuard < (m * x.frequency - (m - 1) * y.frequency - z.frequency).natAbs

/-- The carriers that a test picks keep the spacing, and the Audio carriers among them the products (R18). -/
def State.apart (s : State) (among : Nat → Carrier → Prop) : Prop :=
  (∀ a b y z, a ≠ b → s.carrier a = some y → s.carrier b = some z → among a y → among b z → s.spaced y z) ∧
  (∀ a b c x y z, a ≠ b → a ≠ c → b ≠ c → s.carrier a = some x → s.carrier b = some y → s.carrier c = some z →
    among a x → among b y → among c z → x.cls = .audio → y.cls = .audio → z.cls = .audio → s.productsClear x y z)

/-- The laws of the committed set (R18), in every service state but Halted: spacing, products, and a window that is Open or
Closing, allows the class and holds the band. A candidate whose later stages found nothing keeps the first two with the
committed carriers, while the part is In Service (R34 to R36, R46). -/
def State.committedLaws (s : State) : Prop :=
  s.service ≠ .halted →
    s.apart (fun _ y => y.state.committed = true) ∧
    (∀ c y, s.carrier c = some y → y.state.committed = true → ∃ k w, y.window = some k ∧ s.window k = some w ∧
      w.state ≠ .closed ∧ classAllowed w.classes y.cls = true ∧ w.lowEdge + y.cls.width / 2 ≤ y.frequency ∧
      y.frequency + y.cls.width / 2 ≤ w.highEdge) ∧
    (∀ k, s.service = .inService → s.engine = some ⟨k, none⟩ →
      s.apart (fun c y => y.state.committed = true ∨ c = k))

/-! ## Records -/

/-- The fields of a station that the notices about lamps, cues, presence and deliveries leave alone; the others are
blanked. -/
@[reducible] def Station.core (x : Station) : Station :=
  { x with
    mark := []
    tuneBase := .current
    delivered := none
    lamp := none
    lampBase := .current
    deliveredLamp := none
    accept := true
    stack := []
    cueRoute := none
    cueBase := .current
    deliveredRoute := none }

/-- PARK's changes of the station's core (R63). -/
def Station.parked (x : Station) : Station :=
  { x with
    wanted := { x.wanted with muted := true }
    attempts := 0
    tuneTimer := none
    watch := .off
    switchKind := none
    blockOutgoing := none
    quality := none
    qualityAge := none
    inhibit := false
    link := .parked }

/-- A carrier but for its mark. -/
@[reducible] def Carrier.unmarked (y : Carrier) : Carrier := { y with mark := [] }

/-- Every station but one keeps its core. -/
def State.othersKeep (s t : State) (k : Nat) : Prop :=
  ∀ j, j ≠ k → (t.station j).map Station.core = (s.station j).map Station.core

/-- Every carrier keeps everything but its mark. -/
def State.carriersKeep (s t : State) : Prop :=
  ∀ c, (t.carrier c).map Carrier.unmarked = (s.carrier c).map Carrier.unmarked

/-! ## Orders -/

/-- The order of an order command whose table takes its verb (R164). -/
def orderIn : Instr → Option Order
  | .read t o => if t.plainRead then some o else none
  | .claim t o | .release t o => if t.claimable then some o else none
  | .nextMarked t o => if t.marked then some o else none
  | .readConference o | .readPart o | .defineWindow o | .editWindow o | .retireWindow o | .defineCarrier o
  | .editCarrier o | .retireCarrier o | .checkCarrier o | .cancelCheck o | .blockCarrier o | .unblockCarrier o
  | .setCoordination o | .defineStation o | .editStation o | .retireStation o | .bindStation o | .unbindStation o
  | .goLive o | .park o | .swap o | .setLink o | .callStation o | .clearCall o | .defineGallery o | .editGallery o
  | .retireGallery o | .defineConference o | .editConference o | .retireConference o | .addMember o
  | .removeMember o | .setCueAccept o | .cue o | .clearCues o | .setCue o | .editOperator o | .defineOperator o
  | .retireOperator o | .releaseAll o | .freezePlan o | .thawPlan o | .setClock o | .setMatrixUnit o | .forgetUnit o
  | .lineReset o | .readAttention o | .reloadPlan o | .restart o | .savePlan o _ | .storeRead o _ | .storeWrite o _ =>
    some o
  | .powerOn | .reset | .memoryTest _ | .load _ | .showClockAdvance | .graceExpiry _ | .endOfCheck | .tuneTimeout _
  | .watchRunsOut _ | .recovery _ | .cleanAgePassingLinkWatch _ | .callTimeout _ | .cueTimeout _ _ | .poll | .discover
  | .directiveTurn | .pollAnswered _ | .pollMissed | .discoverAnswered _ | .discoverMissed | .acknowledgement _
  | .acknowledgementMissed | .orderFrame _ _ | .overrun _ | .answerRead _ | .saveEnd | .saveFailed _ | .quarantine =>
    none

/-- The table and the verb of an order command's frame (1.5, R164, the order index of 9.3). -/
def orderVerb : Instr → TableId × Nat
  | .read t _ => (t, 4)
  | .claim t _ => (t, 5)
  | .release t _ => (t, 6)
  | .nextMarked t _ => (t, 7)
  | .readConference _ => (.conference, 4)
  | .readPart _ => (.part, 4)
  | .defineWindow _ => (.window, 1)
  | .editWindow _ => (.window, 2)
  | .retireWindow _ => (.window, 3)
  | .defineCarrier _ => (.carrier, 1)
  | .editCarrier _ => (.carrier, 2)
  | .retireCarrier _ => (.carrier, 3)
  | .checkCarrier _ => (.carrier, 16)
  | .cancelCheck _ => (.carrier, 17)
  | .blockCarrier _ => (.carrier, 18)
  | .unblockCarrier _ => (.carrier, 19)
  | .defineStation _ => (.station, 1)
  | .editStation _ => (.station, 2)
  | .retireStation _ => (.station, 3)
  | .bindStation _ => (.station, 16)
  | .unbindStation _ => (.station, 17)
  | .goLive _ => (.station, 18)
  | .park _ => (.station, 19)
  | .swap _ => (.station, 20)
  | .callStation _ => (.station, 21)
  | .clearCall _ => (.station, 22)
  | .setCueAccept _ => (.station, 23)
  | .cue _ => (.station, 24)
  | .clearCues _ => (.station, 25)
  | .defineGallery _ => (.gallery, 1)
  | .editGallery _ => (.gallery, 2)
  | .retireGallery _ => (.gallery, 3)
  | .defineConference _ => (.conference, 1)
  | .editConference _ => (.conference, 2)
  | .retireConference _ => (.conference, 3)
  | .addMember _ => (.conference, 16)
  | .removeMember _ => (.conference, 17)
  | .defineOperator _ => (.operator, 1)
  | .editOperator _ => (.operator, 2)
  | .retireOperator _ => (.operator, 3)
  | .releaseAll _ => (.operator, 16)
  | .forgetUnit _ => (.unit, 16)
  | .lineReset _ => (.unit, 17)
  | .setClock _ => (.part, 16)
  | .setCoordination _ => (.part, 17)
  | .setLink _ => (.part, 18)
  | .setCue _ => (.part, 19)
  | .freezePlan _ => (.part, 20)
  | .thawPlan _ => (.part, 21)
  | .setMatrixUnit _ => (.part, 22)
  | .readAttention _ => (.part, 23)
  | .savePlan _ _ => (.part, 24)
  | .reloadPlan _ => (.part, 25)
  | .restart _ => (.part, 26)
  | .storeRead _ _ => (.part, 27)
  | .storeWrite _ _ => (.part, 28)
  | .powerOn | .reset | .memoryTest _ | .load _ | .showClockAdvance | .graceExpiry _ | .endOfCheck | .tuneTimeout _
  | .watchRunsOut _ | .recovery _ | .cleanAgePassingLinkWatch _ | .callTimeout _ | .cueTimeout _ _ | .poll | .discover
  | .directiveTurn | .pollAnswered _ | .pollMissed | .discoverAnswered _ | .discoverMissed | .acknowledgement _
  | .acknowledgementMissed | .orderFrame _ _ | .overrun _ | .answerRead _ | .saveEnd | .saveFailed _ | .quarantine =>
    (.part, 0)

/-- The verbs that the table of a selector takes (R164, the order index of 9.3). -/
def verbsOf (table : Nat) : List Nat :=
  match table with
  | 1 | 4 => [1, 2, 3, 4, 5, 6, 7]
  | 2 => [1, 2, 3, 4, 5, 6, 7, 16, 17, 18, 19]
  | 3 => [1, 2, 3, 4, 5, 6, 7, 16, 17, 18, 19, 20, 21, 22, 23, 24, 25]
  | 5 => [1, 2, 3, 4, 5, 6, 7, 16, 17]
  | 6 => [1, 2, 3, 4, 16]
  | 7 => [4, 7, 16, 17]
  | 8 => [4, 16, 17, 18, 19, 20, 21, 22, 23, 24, 25, 26, 27, 28]
  | _ => []

/-- The least and the greatest number of parameter words of the actions that take any, by table selector and verb (each
order's chapter). -/
def actionCounts : List ((Nat × Nat) × Nat × Nat) :=
  [((3, 16), 2, 2), ((3, 17), 1, 1), ((3, 23), 1, 1), ((3, 24), 2, 2), ((5, 16), 3, 3), ((5, 17), 1, 1), ((8, 16), 6, 6),
    ((8, 17), 3, 3), ((8, 18), 5, 5), ((8, 19), 1, 9), ((8, 22), 1, 1), ((8, 23), 0, 1), ((8, 26), 1, 1), ((8, 27), 1, 1),
    ((8, 28), 2, 2)]

/-- Whether an order of a table, by its selector, and verb takes this number of parameter words (R162): the common verbs,
then the actions; an order that is not named takes none. -/
def countTakes (table verb n : Nat) : Bool :=
  if verb = 1 then n ≤ (if table = 5 then 12 else 16) && n % 2 = 0
  else if verb = 2 then 2 ≤ n && n ≤ (if table = 5 then 12 else 16) && n % 2 = 0
  else if verb = 4 then (if table = 5 then n = 1 else n ≤ 1)
  else
    match actionCounts.lookup (table, verb) with
    | some (lo, hi) => lo ≤ n && n ≤ hi
    | none => n = 0

/-- The store's acknowledgement that a store order is given; true where the order makes no transfer. -/
def storeAnswers : Instr → Bool
  | .savePlan _ a | .storeRead _ a | .storeWrite _ a => a
  | _ => true

/-- The flags byte of an order frame (9.1): bit 0 Force, bit 1 Steal, bit 2 Clear. -/
def orderFlags (o : Order) : Nat := (if o.force then 1 else 0) + (if o.steal then 2 else 0) + (if o.clear then 4 else 0)

/-- The frame of an order (9.1). -/
def frameOfOrder (o : Order) (table : TableId) (verb : Nat) : List Byte :=
  closeFrame
    ([0xC5#8, BitVec.ofNat 8 o.operator.val, BitVec.ofNat 8 table.selector, BitVec.ofNat 8 verb, highByte o.key,
      lowByte o.key, BitVec.ofNat 8 (orderFlags o), BitVec.ofNat 8 o.params.length] ++ bytesOfWords o.params)

/-- A write transaction of an order has been carried out and this answer is pending (R159, R161). That its key field is
the order's key word is the model's reading (log 37), on which every statement of an answer rests. -/
def State.answered (s : State) (o : Order) (status : Status) (detail : Nat) (words : List Word) : State :=
  { s with
    miso := List.replicate (9 + 2 * o.params.length) 0#8
    port := .pending ⟨status, detail, o.key, words⟩ }

/-- The part takes orders: it is In Service and the port is idle. No record is damaged, so no read fails (R180). -/
abbrev State.takes (s : State) : Prop := s.service = .inService ∧ s.port = .idle ∧ s.badCodes = []

/-- The order's operator holds a right (R129). -/
abbrev State.holdsRight (s : State) (o : Order) (r : Right) : Prop := s.hasRight o.operator.val r = true

/-- No other operator holds the claim (R132). -/
abbrev claimFree (o : Order) (claim : Option Nat) : Prop := claim = none ∨ claim = some o.operator.val

/-- No other operator holds the freeze, or Force is effective (R132). -/
abbrev State.freezeFree (s : State) (o : Order) : Prop :=
  s.freezeHolder = none ∨ s.freezeHolder = some o.operator.val ∨ s.forced o = true

/-- Neither the freeze nor a running save stands in the way of a change (R132). -/
abbrev State.planFree (s : State) (o : Order) : Prop := s.freezeFree o ∧ s.saving = false

/-- The order is taken, its operator holds the right, and neither the freeze nor a save stands in the way. -/
abbrev State.admits (s : State) (o : Order) (r : Right) : Prop := s.takes ∧ s.holdsRight o r ∧ s.planFree o

/-- The answer DONE without result words. -/
def State.done (s : State) (o : Order) : State := s.answered o .done 0 []

/-- The answer DONE-ADJUSTED with a detail when a value was adjusted, else DONE. -/
def State.doneOrAdjusted (s : State) (o : Order) (adjusted : Bool) (detail : Nat) : State :=
  s.answered o (if adjusted then .doneAdjusted else .done) (if adjusted then detail else 0) []

/-- The fields that READ returns of a record (R165). -/
def State.recordFields (s : State) (table : TableId) (k : Nat) : Option (List FieldWord) :=
  match table with
  | .window => (s.window k).map windowFields
  | .carrier => (s.carrier k).map (s.carrierFields k)
  | .station => (s.station k).map (s.stationFields k)
  | .gallery => (s.gallery k).map galleryFields
  | .operator => if k < 8 then some (s.operatorFields k) else none
  | .unit => (s.unitAt k).map (s.unitFields k)
  | .conference | .part => none

/-- What an evaluation makes of a window that no order aims at (R5, R11), its expiry at a vacate grace of 0 included
(R6, R9). -/
def Window.evaluated (w : Window) (c : Clock) : Window :=
  match w.state, w.shouldBeOpen c with
  | .closed, true => { w with state := .opened, mark := addReason 1 w.mark }
  | .opened, false =>
    if w.vacateGrace = 0 then
      { w with state := .closed, grace := none, mark := addReason 4 (addReason 2 w.mark) }
    else { w with state := .closing, grace := some (w.vacateGrace * 1000), mark := addReason 2 w.mark }
  | .closing, true => { w with state := .opened, grace := none, mark := addReason 3 w.mark }
  | .closed, false | .opened, true | .closing, false => w

/-- Every window of the table is evaluated against a clock. -/
def State.windowsEvaluated (s t : State) (c : Clock) : Prop :=
  ∀ k, 1 ≤ k → k ≤ 16 → t.window k = (s.window k).map (·.evaluated c)

/-- A Closing notice of a window finds this station eligible for a Vacate switch to carrier c (R71): its primary names a
window that closes, its link is Up or Weak, and its standby is Standby and names a window that is Open after the
evaluation. -/
structure State.vacatesTo (s t : State) (closing : Nat → Prop) (x : Station) (c : Nat) (z : Carrier) : Prop where
  primary : ∃ p y w, x.primary = some p ∧ s.carrier p = some y ∧ y.window = some w ∧ closing w
  link : x.link = .up ∨ x.link = .weak
  standby : x.standby = some c
  carrier : s.carrier c = some z
  state : z.state = .standby
  window : ∃ w v, z.window = some w ∧ t.window w = some v ∧ v.state = .opened

/-- The Closing notices of some windows have been given (R6, R71): each eligible station has begun its Vacate switch, and
every other station keeps its core. -/
def State.closingNoticed (s t : State) (closing : Nat → Prop) : Prop :=
  ∀ k x, 1 ≤ k → k ≤ 96 → s.station k = some x →
    (∀ c z, s.vacatesTo t closing x c z → ∃ v, t.station k = some v ∧ v.core = { x with
      switchKind := some .vacate
      blockOutgoing := some false
      token := nextToken x.token
      attempts := 1
      tuneTimer := some 0
      wanted := ⟨some z.frequency, z.cls, x.power, false, nextToken x.token⟩
      link := .switching : Station }.core) ∧
    ((∀ c z, ¬ s.vacatesTo t closing x c z) → ∃ v, t.station k = some v ∧ v.core = x.core)

/-- The notices of an evaluation of every window by which none expires at once: the Closing notices, which leave carriers
and conferences alone. -/
def State.noticesGiven (s t : State) (c : Clock) : Prop :=
  (∀ k w, 1 ≤ k → k ≤ 16 → s.window k = some w → w.state = .opened → w.shouldBeOpen c = false → w.vacateGrace ≠ 0) →
    t.carriers = s.carriers ∧ t.conferences = s.conferences ∧
      s.closingNoticed t (fun k => 1 ≤ k ∧ k ≤ 16 ∧
        ∃ w, s.window k = some w ∧ w.state = .opened ∧ w.shouldBeOpen c = false)

/-- What an order on one part of the plan leaves alone: the service, the clock, the units and the line, the Plan Store, the
attention flags and the queue of commands. -/
structure State.sameMachine (s t : State) : Prop where
  pending : t.pending = s.pending
  service : t.service = s.service
  load : t.load = s.load
  startCode : t.startCode = s.startCode
  snapshot : t.snapshot = s.snapshot
  badCodes : t.badCodes = s.badCodes
  clock : t.clock = s.clock
  operators : t.operators = s.operators
  freezeHolder : t.freezeHolder = s.freezeHolder
  units : t.units = s.units
  line : t.line = s.line
  sequence : t.sequence = s.sequence
  round : t.round = s.round
  lastDiscover : t.lastDiscover = s.lastDiscover
  turn : t.turn = s.turn
  latched : t.latched = s.latched
  mask : t.mask = s.mask
  storeOutcome : t.storeOutcome = s.storeOutcome
  saving : t.saving = s.saving
  savePlace : t.savePlace = s.savePlace
  saveWritten : t.saveWritten = s.saveWritten
  store : t.store = s.store

/-- The windows, the galleries, the settings, the check engine and the rest of the machine are as they were. -/
def State.besideStations (s t : State) : Prop :=
  t.windows = s.windows ∧ t.galleries = s.galleries ∧ t.settings = s.settings ∧ t.checkQueue = s.checkQueue ∧
    t.engine = s.engine ∧ s.sameMachine t

/-- The windows, the settings, the check engine and the rest of the machine are as they were. -/
def State.besideGalleries (s t : State) : Prop :=
  t.windows = s.windows ∧ t.settings = s.settings ∧ t.checkQueue = s.checkQueue ∧ t.engine = s.engine ∧ s.sameMachine t

/-- A station's core but for its derived tally. -/
@[reducible] def Station.tallyless (x : Station) : Station := { x.core with tally := .off, contributing := [] }

/-- A station's tally and contributing galleries are what the galleries give (R79). -/
def State.tallyDerived (s : State) (k : Nat) : Prop :=
  ∀ x, s.station k = some x → x.tally = s.tallyOf k ∧ x.contributing = s.contributingOf k

/-- A release from a source has left this stack and accept (R119). -/
def Station.afterRelease (x : Station) (source : Source) (v : Station) : Prop :=
  v.cueRoute = currentSource v.stack ∧
    (∀ e, x.stack = [e] → e.source = source → v.stack = [] ∧ v.accept = e.saved) ∧
    (∀ b e, x.stack = [b, e] → e.source = source → v.stack = [b] ∧ v.accept = e.saved) ∧
    (∀ b e, x.stack = [b, e] → e.source ≠ source → b.source = source →
      v.stack = [{ e with saved := b.saved }] ∧ v.accept = x.accept)

/-- The stations, the lines of delivery, and everything else that a carrier's check leaves alone. -/
def State.besideCarriers (s t : State) : Prop :=
  t.windows = s.windows ∧ t.stations = s.stations ∧ t.galleries = s.galleries ∧ t.conferences = s.conferences ∧
    t.settings = s.settings ∧ t.queue = s.queue ∧ t.finals = s.finals ∧ s.sameMachine t

/-- The operator's mask lets it change a carrier of this window (R129). -/
def State.maskPermits (s : State) (o : Order) (window : Option Nat) : Prop :=
  ∀ w, window = some w → s.permitsWindow o.operator.val w = true

/-- CHECK CARRIER of this carrier is accepted, and an idle engine takes it at once: its window stage passes, so the later
stages are run (R24, R32, R33). -/
def State.checkable (s : State) (o : Order) (y : Carrier) : Prop :=
  s.admits o .carrier ∧ s.carrier (keyOf o) = some y ∧ claimFree o y.claim ∧ s.maskPermits o y.window ∧ o.params = [] ∧
    (y.state = .proposed ∨ y.state = .conflict) ∧ y.restorePending = false ∧ s.engine = none ∧ s.checkQueue = [] ∧
    s.load = .none ∧ s.windowStage y = none ∧ s.carriers.wf = true

/-- The CHECK of a carrier by an order, and the end of the check that it begins, leave this record of the carrier. -/
def State.checkedAs (s : State) (o : Order) (z : Carrier) : Prop :=
  ∃ t u, exec (.checkCarrier o) s = .next t ∧ exec .endOfCheck t = .next u ∧ u.carrier (keyOf o) = some z

/-! ## Timers -/

/-- A command of a station's timers that this millisecond makes due (R59, R62, R70, R91, R120). -/
def Station.comesDue (x : Station) (settings : Settings) (k : Nat) (i : Instr) : Prop :=
  (i = .tuneTimeout k ∧ ∃ n, x.tuneTimer = some n ∧ 3000 ≤ n + 1) ∨
  (i = .watchRunsOut k ∧ ∃ n, x.watch = .running n ∧ settings.linkWatch ≤ n + 1) ∨
  (i = .recovery k ∧ ∃ n, x.recoveryRun = some n ∧ settings.recoveryTime * 1000 ≤ n + 1) ∨
  (i = .callTimeout k ∧ ∃ n, x.callRemaining = some n ∧ n ≤ 1) ∨
  (∃ e ∈ x.stack, e.remaining ≤ 1 ∧ i = .cueTimeout k (wordOf e.source.code))

/-- The commands that a millisecond puts into the empty queue (the model's choice, log 2): the advance of the Show Clock,
then the grace expiries, the stations' timers and the carriers' clean ages. Those of the record under quarantine stand. -/
def State.queuesDue (s t : State) : Prop :=
  let runs := s.service = .inService ∨ s.service = .faultHandling
  ∃ a b c d, t.pending = a ++ b ++ c ++ d ∧
    (∀ i, i ∈ a ↔ i = .showClockAdvance ∧ s.clock.unset = false ∧ 1000 ≤ s.clock.phase + 1) ∧
    (∀ i, i ∈ b ↔ ∃ k w g, i = .graceExpiry k ∧ s.service = .inService ∧ s.window k = some w ∧ w.grace = some g ∧ g ≤ 1) ∧
    (∀ i, i ∈ c ↔ runs ∧ ∃ k x, s.station k = some x ∧ s.quarantined ≠ some ⟨.station, k⟩ ∧ x.comesDue s.settings k i) ∧
    (∀ i, i ∈ d ↔ runs ∧ ∃ k y n age x run, i = .cleanAgePassingLinkWatch k ∧ s.carrier k = some y ∧
      s.quarantined ≠ some ⟨.carrier, k⟩ ∧ y.state = .blocked ∧ y.bound = some (n, .standby) ∧ s.station n = some x ∧
      x.recoveryRun = some run ∧ y.cleanAge = some age ∧ s.settings.linkWatch < min (age + 1) 60000)

/-! ## Follow membership -/

/-- What a recompute makes of a conference (R106, R107), when only station p is concerned: x becomes v. due: the due reasons
of a station in it; absent: whether a station is absent now. -/
structure Conference.followed (x v : Conference) (p : Nat) (due : Nat → List Nat) (absent : Nat → Bool) : Prop where
  fixed : ∀ m ∈ x.members, m.id = .station p → m.join = .fixed → v.members = x.members ∧ v.waiting = x.waiting
  kept : ∀ m ∈ x.members, m.id = .station p → m.join = .follow → due p ≠ [] →
    v.members = x.members.map (fun m => if m.id = .station p then { m with reasons := due p } else m) ∧
      v.waiting = x.waiting
  left : ∀ m ∈ x.members, m.id = .station p → m.join = .follow → due p = [] → 6 ∈ v.mark ∧
    (x.waiting = [] → v.members = x.members.filter (fun m => m.id != .station p) ∧ v.waiting = []) ∧
    (∀ q rest, x.waiting = q :: rest → due q ≠ [] → 4 ∈ v.mark ∧ v.waiting = rest ∧
      v.members = x.members.filter (fun m => m.id != .station p) ++
        [⟨.station q, true, true, 0, .follow, due q, absent q⟩])
  waits : (∀ m ∈ x.members, m.id ≠ .station p) → p ∈ x.waiting → v.members = x.members ∧
    (due p ≠ [] → v.waiting = x.waiting) ∧ (due p = [] → v.waiting = x.waiting.filter (· != p) ∧ 6 ∈ v.mark)
  stays : (∀ m ∈ x.members, m.id ≠ .station p) → p ∉ x.waiting → due p = [] → v.members = x.members ∧ v.waiting = x.waiting
  joins : (∀ m ∈ x.members, m.id ≠ .station p) → p ∉ x.waiting → due p ≠ [] → x.members.length < 16 →
    v.members = x.members ++ [⟨.station p, true, true, 0, .follow, due p, absent p⟩] ∧ v.waiting = x.waiting ∧ 4 ∈ v.mark
  queued : (∀ m ∈ x.members, m.id ≠ .station p) → p ∉ x.waiting → due p ≠ [] → 16 ≤ x.members.length →
    x.waiting.length < 8 → v.members = x.members ∧ v.waiting = x.waiting ++ [p] ∧ 5 ∈ v.mark
  denied : (∀ m ∈ x.members, m.id ≠ .station p) → p ∉ x.waiting → due p ≠ [] → 16 ≤ x.members.length →
    8 ≤ x.waiting.length → v.members = x.members ∧ v.waiting = x.waiting

/-- From s to t conference c is recomputed for beltpack p, and no other station is concerned; the due reasons are those of
R106 in t, and a beltpack that can neither join nor wait gets Follow Denied. -/
def State.recomputes (s t : State) (p c : Nat) : Prop :=
  ∀ x, s.conference c = some x → (x.members.map Member.id).Nodup →
    (∃ v, t.conference c = some v ∧
      x.followed v p (fun q => t.dueReasons none q c) (fun q => s.absentNow (.station q))) ∧
    ((∀ m ∈ x.members, m.id ≠ .station p) → p ∉ x.waiting → t.dueReasons none p c ≠ [] → 16 ≤ x.members.length →
      8 ≤ x.waiting.length → ∃ v, t.station p = some v ∧ 18 ∈ v.mark)

/-- The due reasons of a Beltpack in a conference are the galleries that follow into it and in which the Camera that its
pair names is a contributing one (R106). -/
def State.dueAre (s : State) (p k c : Nat) : Prop :=
  ∀ g, g ∈ s.dueReasons none p c ↔ 1 ≤ g ∧ g ≤ 8 ∧
    ∃ x y, s.gallery g = some x ∧ x.follow = some c ∧ s.station k = some y ∧ g ∈ y.contributing

/-- Camera k and Beltpack p are a pair. -/
def State.paired (s : State) (k p : Nat) : Prop :=
  ∃ x y, s.station k = some x ∧ x.kind = .camera ∧ x.pair = some p ∧ s.station p = some y ∧ y.kind = .beltpack ∧
    y.pair = some k

/-! ## The Studio Line -/

/-- No record but the one under quarantine is damaged. -/
def State.soundBeside (s : State) : Prop := ∀ r ∈ s.badCodes, s.quarantined = some r

/-- A transaction is on the line, and nothing stands in the way of its end: the part runs, no RELOAD PLAN waits, and no
record is damaged (R141, R180, R181). u: the unit that it asks. -/
abbrev State.onLine (s : State) (ask : Ask) (sequence : Nat) (u : LineUnit) : Prop :=
  (s.service = .inService ∨ s.service = .faultHandling) ∧ s.load = .none ∧ s.badCodes = [] ∧
    1 ≤ ask.address ∧ ask.address ≤ 32 ∧ sequence < 256 ∧ s.line = some ⟨ask, sequence⟩ ∧
    s.unitAt ask.address = some u

/-- A unit frame (8.1): the start byte, the address, the type and the sequence number of the transaction, the kind byte,
the count, the body words, and the check byte. -/
def unitFrameOf (ask : Ask) (sequence : Nat) (kind : Byte) (body : List Word) : List Byte :=
  closeFrame
    ([0x2D#8, BitVec.ofNat 8 ask.address, BitVec.ofNat 8 ask.typeByte, BitVec.ofNat 8 sequence, kind,
      BitVec.ofNat 8 body.length] ++ bytesOfWords body)

/-- A unit frame whose kind byte codes a kind. -/
def unitFrame (ask : Ask) (sequence : Nat) (kind : UnitKind) (body : List Word) : List Byte :=
  unitFrameOf ask sequence (BitVec.ofNat 8 kind.code) body

/-- A transaction with a unit has ended, and its record has become u. -/
def State.unitNoted (s : State) (a : Nat) (u : LineUnit) : State :=
  { s with line := none, units := s.units.set (a - 1) u }

/-- What a cascade from one station leaves alone: the other stations but for their lamps, cues, presence and deliveries,
the carriers but for their marks, the store states, the port, and the rest. -/
def State.aroundStation (s t : State) (k : Nat) : Prop :=
  s.othersKeep t k ∧ s.carriersKeep t ∧ s.besideStations t ∧ t.storeStates = s.storeStates ∧ t.port = s.port

/-- A content of a delivery kind. -/
def Content.ofKind : Content → DeliveryKind → Bool
  | .tune _, .tune | .lamp _, .lamp | .routing _, .routing | .cueRoute _, .cueRoute => true
  | _, _ => false

/-- A unit has been declared Lost (R146, R153, R85, R104): Unit Lost is added, no entry and no final delivery goes to it,
what was Queued, Sent or Waiting for it is Stale, with every delivered state as it was last acknowledged,
the galleries that it serves are empty with Tally Lost, and with the TKM unit every talker list is empty. -/
structure State.losesUnit (s t : State) (a : Nat) (u : LineUnit) : Prop where
  units : t.units = s.units.set (a - 1) { u with state := .lost, missed := 3, mark := addReason 2 u.mark }
  queue : ∀ e ∈ t.queue, e.unit ≠ a
  finals : ∀ f ∈ t.finals, t.finalDestination f ≠ some a
  stale : ∀ kind target d n, 1 ≤ target → target ≤ (if kind = .routing then 24 else 96) → s.owned kind target = true →
    s.delivery kind target = some d → d.destination = some a → s.deliveryCode kind target = some n → 1 ≤ n → n ≤ 3 →
    t.deliveryCode kind target = some 4
  delivered : ∀ j x, s.station j = some x → ∃ v, t.station j = some v ∧ v.delivered = x.delivered ∧
    v.deliveredLamp = x.deliveredLamp ∧ v.deliveredRoute = x.deliveredRoute
  routings : ∀ c, (t.conference c).map Conference.deliveredRouting = (s.conference c).map Conference.deliveredRouting
  galleries : ∀ g x, s.gallery g = some x → t.gallery g = some (
    if x.tallyUnit = some a ∧ (x.live = true ∨ x.program ≠ [] ∨ x.preview ≠ []) then
      { x with live := false, program := [], preview := [], mark := addReason 2 x.mark }
    else x)
  talkers : s.settings.matrixUnit = some a → ∀ c x, 1 ≤ c → c ≤ 24 → t.conference c = some x → x.talkers = []
  line : t.line = none
  windows : t.windows = s.windows
  carriers : t.carriers = s.carriers
  stations : ∀ j, (t.station j).map Station.tallyless = (s.station j).map Station.tallyless
  settings : t.settings = s.settings
  service : t.service = s.service
  checkQueue : t.checkQueue = s.checkQueue
  engine : t.engine = s.engine
  storeStates : t.storeStates = s.storeStates
  port : t.port = s.port

/-- A unit has become Present (R144, R147): it is u; what a delivered state through it was is undelivered, and while the
queue has room every tune to a TXC unit is Queued. -/
structure State.findsUnit (s t : State) (a : Nat) (u : LineUnit) : Prop where
  units : t.units = s.units.set (a - 1) u
  stations : ∀ k x, s.station k = some x → ∃ v, t.station k = some v ∧ v.core = x.core ∧ v.mark = x.mark ∧
    v.lamp = x.lamp ∧ v.accept = x.accept ∧ v.stack = x.stack ∧ v.cueRoute = x.cueRoute ∧
    v.delivered = (if x.controlUnit = some a then none else x.delivered) ∧
    v.deliveredLamp = (if x.controlUnit = some a then none else x.deliveredLamp) ∧
    v.deliveredRoute = (if s.settings.matrixUnit = some a then none else x.deliveredRoute)
  queued : ∀ k x, 1 ≤ k → k ≤ 96 → s.station k = some x → x.controlUnit = some a → u.kind = some .txc →
    t.queue.length < 64 → t.deliveryCode .tune k = some 1
  line : t.line = none
  windows : t.windows = s.windows
  carriers : t.carriers = s.carriers
  galleries : t.galleries = s.galleries
  settings : t.settings = s.settings
  service : t.service = s.service
  storeStates : t.storeStates = s.storeStates
  port : t.port = s.port

/-- The final deliveries stand: what each wants and what it has delivered is as before, and none is lost but one whose
delivered state is the wanted one, which may have ended (R152, R153). -/
def State.finalsStand (s t : State) : Prop :=
  (∀ f ∈ t.finals, ∃ g ∈ s.finals, f = { g with base := f.base }) ∧
    (∀ g ∈ s.finals, g.delivered ≠ some g.wanted →
      (∀ h ∈ s.finals, h.kind = g.kind → h.target = g.target → h = g) →
      ∃ f ∈ t.finals, f = { g with base := f.base })

/-! ## Quarantine -/

/-- The tables in which a quarantine searches for the relations of a record of this table (R181). -/
def searchedFor : TableId → List TableId
  | .window | .carrier => [.station, .carrier]
  | .station => [.carrier, .station, .gallery, .conference]
  | .gallery | .unit => [.station, .gallery, .conference]
  | .conference => [.gallery]
  | .operator | .part => []

/-! ## Loads -/

/-- The tune deliveries of the old stations that RELOAD PLAN keeps for the end of its load (R158): muted, to their control
units. -/
def State.keptTunes (s : State) : List Final :=
  s.stations.records.filterMap (fun p =>
    p.2.controlUnit.map (fun u =>
      ⟨.tune, p.1, some u, .tune { p.2.wanted with muted := true }, p.2.delivered.map .tune, p.2.tuneBase⟩))

/-- The plan tables and settings are emptied, and RELOAD PLAN loads (R177). -/
def State.emptied (s : State) (key : Word) : State :=
  { s with
    load := .reloading key s.keptTunes
    windows := ⟨[]⟩
    carriers := ⟨[]⟩
    checkQueue := []
    engine := none
    stations := ⟨[]⟩
    galleries := ⟨[]⟩
    conferences := ⟨[]⟩
    operators := ⟨0xFF#8, 0xFFFF#16⟩ :: List.replicate 7 ⟨0#8, 0#16⟩
    freezeHolder := none
    settings := ⟨4, 2, false, 500, 40, 15, 10, 10, 30, [], none⟩ }

/-- A plan record of an image, as its kind, key and stored words, passes the tests of R171. -/
def recordFits (r : Nat × Nat × List Word) : Bool :=
  countFits r.1 (r.2.2.length + 1) && keyFits r.1 r.2.1 && fieldsFit r.1 r.2.2

/-- The words of an image of some records but for its checksum word (10.1). -/
def imageOf (rs : List (Nat × Nat × List Word)) : List Word :=
  [0x7A31#16, 0x0C96#16] ++ rs.flatMap (fun r => wordOf (r.1 * 256 + (r.2.2.length + 1)) :: wordOf r.2.1 :: r.2.2) ++
    [0xFFFF#16]

/-- t holds the plan that an image gave (p: as its records were placed), with the owners' work done (R172): windows
evaluated without a mark (R17), carriers Checking or refused by the window stage (R41), the references that the load did
not produce cleared (R41, R76, R95), members legalised (R114), and the rest as read. -/
structure State.planLoaded (t p : State) (clock : Clock) : Prop where
  windows : ∀ k, 1 ≤ k → k ≤ 16 → t.window k = (p.window k).map (fun w =>
    { w with state := if w.shouldBeOpen clock then WindowState.opened else .closed })
  carriers : ∀ c y, p.carrier c = some y → ∃ z, t.carrier c = some z ∧ z.frequency = y.frequency ∧ z.cls = y.cls ∧
    z.window = y.window ∧ z.bound = none ∧
    ((∀ n role, y.intent = some (n, role) → ∃ x, p.station n = some x ∧ x.kind.cls = y.cls) → z.intent = y.intent) ∧
    (∀ n role, y.intent = some (n, role) → (∀ x, p.station n = some x → x.kind.cls ≠ y.cls) → z.intent = none) ∧
    ((z.state = .checking ∧ z.mark = [] ∧ (z.restorePending = true ∨ t.engine.map Check.carrier = some c)) ∨
      (∃ kind, z.state = .conflict ∧ z.conflict = some (kind, []) ∧ z.mark = [1] ∧ t.windowStage z = some kind))
  stations : ∀ k x, p.station k = some x → ∃ v, t.station k = some v ∧
    ((∀ b, x.pair = some b → ∃ z, p.station b = some z ∧ z.pair = some k ∧
        ((x.kind = .camera ∧ z.kind = .beltpack) ∨ (x.kind = .beltpack ∧ z.kind = .camera))) → v.core = x.core) ∧
    ((∃ b, x.pair = some b ∧ ∀ z, p.station b = some z → z.pair = some k →
        ¬ ((x.kind = .camera ∧ z.kind = .beltpack) ∨ (x.kind = .beltpack ∧ z.kind = .camera))) →
      v.core = { x with pair := none : Station }.core)
  galleries : ∀ g x, p.gallery g = some x → t.gallery g = some { x with
    sources := x.sources.map (fun e => e.bind (fun k => (p.station k).map (fun _ => k)))
    follow := x.follow.bind (fun c => (p.conference c).map (fun _ => c)) }
  conferences : ∀ c x, p.conference c = some x → ∃ v, t.conference c = some v ∧ v.label = x.label ∧ v.talkers = [] ∧
    v.waiting = [] ∧ v.routing = v.routed ∧ v.members.length ≤ 16 ∧ (v.members.map Member.id).Nodup ∧
    (∀ m ∈ v.members, m.join = .fixed ∧ (∃ n ∈ x.members, n.id = m.id ∧ n.priority = m.priority) ∧
      (∀ k, m.id = .station k → m.absent = true ∧ ∃ z, p.station k = some z ∧ z.kind ≠ .camera ∧ z.kind ≠ .mic ∧
        (z.kind = .inEar → m.listen = true ∧ m.talk = false))) ∧
    (x.members.length ≤ 16 → ∀ n ∈ x.members,
      (∀ k, n.id = .station k → ∃ z, p.station k = some z ∧ z.kind ≠ .camera ∧ z.kind ≠ .mic) →
      ∃ m ∈ v.members, m.id = n.id)
  operators : t.operators = p.operators
  settings : t.settings = p.settings
  freezeHolder : t.freezeHolder = none

/-! ## Claims -/

/-- A claim of a record is set; when an operator loses it so, the record gets Claim Lost (R134, R135; the codes of 9.4). -/
def State.reclaimed (s : State) (table : TableId) (k : Nat) (claim : Option Nat) (lost : Bool) : State :=
  let mark := fun (r : Nat) (m : List Nat) => if lost then addReason r m else m
  match table with
  | .window => { s with windows := s.windows.modify k (fun x => { x with claim := claim, mark := mark 5 x.mark }) }
  | .carrier => { s with carriers := s.carriers.modify k (fun x => { x with claim := claim, mark := mark 14 x.mark }) }
  | .station => { s with stations := s.stations.modify k (fun x => { x with claim := claim, mark := mark 24 x.mark }) }
  | .gallery => { s with galleries := s.galleries.modify k (fun x => { x with claim := claim, mark := mark 5 x.mark }) }
  | .conference =>
    { s with conferences := s.conferences.modify k (fun x => { x with claim := claim, mark := mark 8 x.mark }) }
  | .operator | .unit | .part => s

/-- The mark after a RELEASE ALL: Claim Lost is added when another operator orders it (R136). -/
def lostMark (lost : Bool) (reason : Nat) (mark : List Nat) : List Nat := if lost then addReason reason mark else mark

/-- Settings put in force; the Part settings' store state becomes Changed when a value changes (R174). -/
def State.settingsInForce (s : State) (x : Settings) : State :=
  if x = s.settings then s else { s with settings := x, storeStates := { s.storeStates with part := true } }

/-- The answer DONE without result words is pending, with the order's key word (log 37). -/
def State.saysDone (s : State) (o : Order) : Prop := s.port = .pending ⟨.done, 0, o.key, []⟩

end Sys2Proof.Machine
end

