-- ==== Sys2Proof/Certificates/Slice0/Obligations.lean ====
section
/-! DEFINITION. The statements for the provers: what every command does, what it leaves alone, and what every step keeps. -/

open Sys2Proof Sys2Proof.Machine

/-! ## The machine -/

/-- A step runs the command at the front of the queue. -/
def Obligations.StepRunsFrontCommand : Prop :=
  ∀ (c : Instr) (rest : List Instr) (s : State),
    step { s with pending := c :: rest } = exec c { s with pending := rest }

/-- A step on an empty queue is a millisecond of the time base, which puts the timer commands that it makes due into the
queue: the model's choice (log 2). The timers of the record under quarantine stand. -/
def Obligations.IdleStepTicks : Prop :=
  ∀ s : State, s.pending = [] →
    ∃ t, step s = .next t ∧
      (s.clock.unset = true → t.clock = s.clock) ∧
      (s.clock.unset = false → t.clock = { s.clock with phase := s.clock.phase + 1 }) ∧
      ((s.service = .inService ∨ s.service = .faultHandling) →
        (∀ k x, s.window k = some x → t.window k = some (if s.quarantined = some ⟨.window, k⟩ then x
          else { x with grace := x.grace.map (· - 1) })) ∧
        (∀ k y, s.carrier k = some y → t.carrier k = some (if s.quarantined = some ⟨.carrier, k⟩ then y
          else { y with cleanAge := y.cleanAge.map (fun a => min (a + 1) 60000) })) ∧
        (∀ k x, s.station k = some x → t.station k = some (if s.quarantined = some ⟨.station, k⟩ then x
          else { x with
            tuneTimer := x.tuneTimer.map (· + 1)
            watch := match x.watch with | .running ms => .running (ms + 1) | .off => .off | .runOut => .runOut
            qualityAge := x.qualityAge.map (fun a => min (a + 1) 60000)
            recoveryRun := x.recoveryRun.map (· + 1)
            callRemaining := x.callRemaining.map (· - 1)
            stack := x.stack.map (fun e => { e with remaining := e.remaining - 1 }) }))) ∧
      (s.tablesInOrder → s.queuesDue t) ∧
      ((s.service = .starting ∨ s.service = .halted) →
        t.windows = s.windows ∧ t.carriers = s.carriers ∧ t.stations = s.stations) ∧
      t.service = s.service ∧ t.load = s.load ∧ t.checkQueue = s.checkQueue ∧ t.engine = s.engine ∧
      t.galleries = s.galleries ∧ t.conferences = s.conferences ∧ t.operators = s.operators ∧
      t.settings = s.settings ∧ t.units = s.units ∧ t.queue = s.queue ∧ t.finals = s.finals ∧ t.line = s.line ∧
      t.port = s.port ∧ t.latched = s.latched ∧ t.storeStates = s.storeStates ∧ t.saving = s.saving ∧
      t.store = s.store

/-- No command ends in a fault or a refusal. -/
def Obligations.EveryCommandHasNext : Prop := ∀ (c : Instr) (s : State), ∃ t, exec c s = .next t

/-- The state after reset has the invariants. -/
def Obligations.ResetHasInvariants : Prop :=
  State.reset.Inv ∧ State.reset.conferencesFit ∧ State.reset.stacksFit ∧ State.reset.recordLaws ∧
    State.reset.committedLaws

/-- Every step keeps the store's canonical form, the tables' order, the capacities of the queues with no two entries of the
Directive Queue of one key and no count of send attempts above 3, the fixed records with operator 0's rights, and the byte of
the sequence number. -/
def Obligations.StepKeepsInv : Prop := ∀ s t : State, s.Inv → step s = .next t → t.Inv

/-- Every step keeps the capacities of a conference's lists and of the cue stacks. It keeps, in every service state but
Halted, the laws between records: mutual pairs; slots and bound fields that name each other; each Checking carrier once in
the Check Queue, under the engine or restore pending; talkers that are present members with Talk; and lamps as the tally, the
cues and the calls give them. With these it keeps the laws of the committed set: spacing, products, and a window that is not
Closed and holds the carrier; and that a candidate which the engine has found nothing against joins them. -/
def Obligations.StepKeepsListsFit : Prop :=
  (∀ s t : State, s.conferencesFit → s.stacksFit → step s = .next t → t.conferencesFit ∧ t.stacksFit) ∧
  (∀ s t : State, s.Inv → s.recordLaws → step s = .next t → t.recordLaws) ∧
  (∀ s t : State, s.Inv → s.recordLaws → s.committedLaws → step s = .next t → t.committedLaws)

/-! ## The Control Port -/

/-- A count of parameter words that the order does not take is answered MALFORMED, detail 7, in every service state. With
a count that it takes, every order but READ PART is refused NOT IN SERVICE with the detail of the service state in Starting
and in Fault Handling, and every order but READ PART and RESTART in Halted. -/
def Obligations.OutOfServiceRefusesOrder : Prop :=
  ∀ (c : Instr) (o : Order) (s : State), orderIn c = some o → o.params.length ≤ 16 → s.port = .idle →
    let takes := countTakes (orderVerb c).1.selector (orderVerb c).2 o.params.length
    (takes = false → exec c s = .next (s.answered o .malformed 7 [])) ∧
    (takes = true → c ≠ .readPart o →
      (s.service = .starting → exec c s = .next (s.answered o .notInService 1 [])) ∧
      (s.service = .faultHandling → exec c s = .next (s.answered o .notInService 2 [])) ∧
      (s.service = .halted → c ≠ .restart o → exec c s = .next (s.answered o .notInService 3 [])))

/-- An order that is refused with any class from FULL on changes nothing but the port; a failed store transfer apart. -/
def Obligations.RefusalChangesNothing : Prop :=
  ∀ (c : Instr) (o : Order) (s t : State) (a : Answer), orderIn c = some o → storeAnswers c = true → s.port = .idle →
    s.badCodes = [] → exec c s = .next t → t.port = .pending a → 2 ≤ a.status.code →
    t = { s with miso := List.replicate (9 + 2 * o.params.length) 0#8, port := .pending a }

/-- The frame of an order runs the order, and goes to its next state: that the two are one event is the model's choice
(log 15). The frame of FREEZE PLAN, given whole, takes a free freeze. -/
def Obligations.FrameRunsItsOrder : Prop :=
  (∀ (c : Instr) (o : Order) (s : State), orderIn c = some o → o.wf = true → s.port = .idle →
    exec (.orderFrame (frameOfOrder o (orderVerb c).1 (orderVerb c).2) (storeAnswers c)) s = exec c s ∧
      ∃ t, exec (.orderFrame (frameOfOrder o (orderVerb c).1 (orderVerb c).2) (storeAnswers c)) s = .next t) ∧
  (∀ (o : Order) (ack : Bool) (s : State), s.takes → o.params = [] → s.holdsRight o .plan →
    claimFree o s.freezeHolder →
    exec (.orderFrame (frameOfOrder o .part 20) ack) s =
      .next ({ s with freezeHolder := some o.operator.val }.done o))

/-- A write transaction on an idle port whose frame fails one of the seven form tests is answered MALFORMED with the detail
of the first that fails, with the key bytes of a frame that holds six, and changes nothing else. -/
def Obligations.MalformedFrameIsAnswered : Prop :=
  ∀ (bs : List Byte) (ack : Bool) (s : State), writeWf bs = true → s.port = .idle →
    let count := (bs.getD 7 0#8).toNat
    let key : Word := if 6 ≤ bs.length then wordOfBytes (bs.getD 4 0#8) (bs.getD 5 0#8) else 0#16
    let answers := fun (d : Nat) => exec (.orderFrame bs ack) s = .next { s with
      miso := List.replicate bs.length 0#8
      port := .pending ⟨.malformed, d, key, []⟩ }
    let form := bs.length = 9 + 2 * count ∧ count ≤ 16
    (bs.head? ≠ some 0xC5#8 → answers 1) ∧
      (bs.head? = some 0xC5#8 → ¬ form → answers 2) ∧
      (bs.head? = some 0xC5#8 → form → byteSum bs ≠ 0#8 → answers 3) ∧
      (bs.head? = some 0xC5#8 → form → byteSum bs = 0#8 → 7 < (bs.getD 1 0#8).toNat → answers 4) ∧
      (bs.head? = some 0xC5#8 → form → byteSum bs = 0#8 → (bs.getD 1 0#8).toNat ≤ 7 →
        ((bs.getD 2 0#8).toNat = 0 ∨ 8 < (bs.getD 2 0#8).toNat) → answers 5) ∧
      (bs.head? = some 0xC5#8 → form → byteSum bs = 0#8 → (bs.getD 1 0#8).toNat ≤ 7 →
        1 ≤ (bs.getD 2 0#8).toNat → (bs.getD 2 0#8).toNat ≤ 8 →
        (bs.getD 3 0#8).toNat ∉ verbsOf (bs.getD 2 0#8).toNat → answers 6) ∧
      (bs.head? = some 0xC5#8 → form → byteSum bs = 0#8 → (bs.getD 1 0#8).toNat ≤ 7 →
        1 ≤ (bs.getD 2 0#8).toNat → (bs.getD 2 0#8).toNat ≤ 8 →
        (bs.getD 3 0#8).toNat ∈ verbsOf (bs.getD 2 0#8).toNat →
        countTakes (bs.getD 2 0#8).toNat (bs.getD 3 0#8).toNat count = false → answers 7)

/-- A read transaction clocks out the pending answer and collects it at its last byte; with none it clocks out zeros. A
write to a busy port sets Overrun, and so does every order command that finds the port busy: it is discarded. The place of the answer among the bytes clocked out is the model's reading (log
17). -/
def Obligations.ReadsAndOverruns : Prop :=
  (∀ (n : Nat) (a : Answer) (s : State), 1 ≤ n → s.port = .pending a →
    exec (.answerRead n) s = .next { s with
      miso := (0#8 :: a.frame ++ List.replicate n 0#8).take n
      port := if a.frame.length < n then .idle else .pending a }) ∧
  (∀ (n : Nat) (s : State), 1 ≤ n → (∀ a, s.port ≠ .pending a) →
    exec (.answerRead n) s = .next { s with miso := List.replicate n 0#8 }) ∧
  (∀ (bs : List Byte) (s : State), writeWf bs = true → s.port ≠ .idle →
    exec (.overrun bs) s = .next { s with
      miso := List.replicate bs.length 0#8
      latched := { s.latched with overrun := true } }) ∧
  (∀ (c : Instr) (o : Order) (s : State), orderIn c = some o → s.port ≠ .idle →
    exec c s = .next { s with
      miso := List.replicate (9 + 2 * o.params.length) 0#8
      latched := { s.latched with overrun := true } })

/-! ## Windows and the Show Clock -/

/-- DEFINE WINDOW creates the window of its words, Open when it should be open, else Closed; RETIRE WINDOW empties the
slot of a window that no carrier names, and a Damaged slot. -/
def Obligations.DefineAndRetireWindow : Prop :=
  (∀ (o : Order) (s : State),
    let words := applyPairs (fieldIndex 19) windowDefaults (pairsOf o.params)
    let w := Window.blank.withWords words
    s.admits o .plan → 1 ≤ keyOf o → keyOf o ≤ 16 → s.window (keyOf o) = none → evenCount 0 16 o.params = true →
    badField (fieldIndex 19) (pairsOf o.params) = false → windowRangeBad words = false → labelBad words = false →
    edgesBad words = false →
    exec (.defineWindow o) s = .next ({ s with
      windows := s.windows.put (keyOf o) { w with state := if w.shouldBeOpen s.clock then .opened else .closed }
      storeStates := { s.storeStates with window := true } }.doneOrAdjusted o (fieldNat words 18 % 5 != 0) 1)) ∧
  (∀ (o : Order) (s : State), s.admits o .plan → 1 ≤ keyOf o → keyOf o ≤ 16 → o.params = [] →
    ((∃ w, s.window (keyOf o) = some w ∧ claimFree o w.claim ∧
        ∀ p ∈ s.carriers.records, p.2.window ≠ some (keyOf o)) ∨
      (∃ m, s.windows.slot (keyOf o) = some (.damaged m))) →
    exec (.retireWindow o) s = .next ({ s with
      windows := s.windows.erase (keyOf o)
      storeStates := { s.storeStates with window := true } }.done o))

/-- EDIT WINDOW applies its fields and evaluates the window: an Open window that should no longer be open enters Closing
with its full vacate grace, and expires at once when that is 0; the other states follow the clock without a mark. With a
vacate grace the Closing notice starts the Vacate switch of every station that it finds eligible, and of no other. -/
def Obligations.EditWindow : Prop :=
  ∀ (o : Order) (s : State) (old : Window),
    let k := keyOf o
    let words := applyPairs (fieldIndex 19) (windowWords old) (pairsOf o.params)
    let new := old.withWords words
    let adjusted := fieldNat words 18 % 5 != 0
    s.admits o .plan → s.window k = some old → claimFree o old.claim → evenCount 2 16 o.params = true →
    badField (fieldIndex 19) (pairsOf o.params) = false → windowRangeBad words = false → labelBad words = false →
    edgesBad words = false →
    ((new.lowEdge = old.lowEdge ∧ new.highEdge = old.highEdge) ∨ s.committedIn k = []) →
    (∀ y ∈ s.committedIn k, classAllowed old.classes y.cls = true → classAllowed new.classes y.cls = true) →
    ((old.state ≠ .opened ∨ new.shouldBeOpen s.clock = true) →
      exec (.editWindow o) s = .next ({ s with
        windows := s.windows.put k
          (if new.shouldBeOpen s.clock then
            { new with state := .opened, grace := if old.state = WindowState.closing then none else old.grace }
          else new)
        storeStates := { s.storeStates with window := true } }.doneOrAdjusted o adjusted 1)) ∧
    ((old.state = .opened ∧ new.shouldBeOpen s.clock = false) →
      ∃ t, exec (.editWindow o) s = .next t ∧
        t.window k = some (if new.vacateGrace = 0 then
            { new with state := .closed, grace := none, mark := addReason 4 old.mark }
          else { new with state := .closing, grace := some (new.vacateGrace * 1000) }) ∧
        (∀ j, j ≠ k → t.window j = s.window j) ∧ t.galleries = s.galleries ∧ t.settings = s.settings ∧
        t.checkQueue = s.checkQueue ∧ t.engine = s.engine ∧
        t.storeStates = { s.storeStates with window := true } ∧ s.sameMachine t ∧
        (new.vacateGrace ≠ 0 → t.carriers = s.carriers ∧ t.conferences = s.conferences ∧
          s.closingNoticed t (fun j => j = k)) ∧
        t.port = .pending ⟨if adjusted then .doneAdjusted else .done, if adjusted then 1 else 0, o.key, []⟩)

/-- A second of the Show Clock: an Unset clock stands; a set clock counts, and at midnight takes the next day. At a
minute change in In Service every window is evaluated, and when none expires at once the Closing notices start the Vacate
switches of the eligible stations; otherwise the clock alone changes. A damaged Part record, which the advance reads, halts
the part (the read is the model's, log 5). The day after a date has the next date number and the next day of week; the day
after 2099-12-31 is 2000-01-01. -/
def Obligations.ShowClockAdvances : Prop :=
  (∀ s : State,
    (s.clock.unset = true → exec .showClockAdvance s = .next s) ∧
    (s.clock.unset = false →
      let c : Clock := if s.clock.second < 86399 then { s.clock with second := s.clock.second + 1, phase := 0 }
        else { s.clock.nextDay with second := 0, phase := 0 }
      (c.second % 60 ≠ 0 ∨ s.service ≠ .inService → (⟨.part, 0⟩ ∉ s.badCodes ∨ s.service = .halted) →
        exec .showClockAdvance s = .next { s with clock := c }) ∧
      (c.second % 60 = 0 → s.service = .inService → s.load = .none → s.badCodes = [] →
        ∃ t, exec .showClockAdvance s = .next t ∧ t.clock = c ∧ s.windowsEvaluated t c ∧ s.noticesGiven t c ∧
          t.galleries = s.galleries ∧ t.settings = s.settings ∧ t.checkQueue = s.checkQueue ∧ t.engine = s.engine ∧
          t.storeStates = s.storeStates ∧ t.port = s.port ∧ ({ s with clock := c } : State).sameMachine t) ∧
      (s.badCodes = [⟨.part, 0⟩] → s.service ≠ .halted →
        ∃ t, exec .showClockAdvance s = .next t ∧ t.service = .halted ∧ t.clock = c ∧ t.line = none ∧
          t.latched = { s.latched with fault := true, store := s.latched.store || s.saving } ∧
          (s.service ≠ .faultHandling → t.snapshot = some ⟨⟨.part, 0⟩, 3⟩) ∧
          (s.service = .faultHandling → t.snapshot = s.snapshot)))) ∧
  (∀ c : Clock, 2000 ≤ c.year → c.year ≤ 2099 → 1 ≤ c.month → c.month ≤ 12 → 1 ≤ c.day →
    c.day ≤ monthLength c.year c.month →
    ((c.year, c.month, c.day) ≠ (2099, 12, 31) →
      c.nextDay.date = c.date + 1 ∧ c.nextDay.dayOfWeek = (c.dayOfWeek + 1) % 7) ∧
    ((c.year, c.month, c.day) = (2099, 12, 31) →
      (c.nextDay.year, c.nextDay.month, c.nextDay.day) = (2000, 1, 1)) ∧
    ((c.year, c.month, c.day) = (2000, 1, 1) → c.date = 0 ∧ c.dayOfWeek = 6))

/-- SET CLOCK loads the clock of its words and evaluates every window; when none expires at once, the Closing notices start
the Vacate switches of the eligible stations. -/
def Obligations.SetClockEvaluates : Prop :=
  ∀ (o : Order) (s : State) (y m d hour minute second : Word),
    s.takes → s.holdsRight o .plan → s.freezeFree o → s.load = .none → o.params = [y, m, d, hour, minute, second] →
    clockBad o.params = false →
    ∃ t, exec (.setClock o) s = .next t ∧
      t.clock = ({
        unset := false
        year := y.toNat
        month := m.toNat
        day := d.toNat
        second := hour.toNat * 3600 + minute.toNat * 60 + second.toNat
        phase := 0 } : Clock) ∧
      s.windowsEvaluated t t.clock ∧ s.noticesGiven t t.clock ∧ t.galleries = s.galleries ∧ t.settings = s.settings ∧
      t.checkQueue = s.checkQueue ∧ t.engine = s.engine ∧ t.storeStates = s.storeStates ∧
      ({ s with clock := t.clock } : State).sameMachine t ∧ t.port = .pending ⟨.done, 0, o.key, []⟩

/-- At the grace expiry of a Closing window its committed carriers become Proposed and unbound, the stations that held
them lose the slots, and the window is Closed; the reasons Expired and Window Expired are added. In Fault Handling the
expiry falls due and nothing else changes; the grace of the window under quarantine has stopped. -/
def Obligations.GraceExpires : Prop :=
  (∀ (k : Nat) (w : Window) (s : State), s.service = .inService → s.badCodes = [] → s.window k = some w →
    w.state = .closing →
    ∃ t, exec (.graceExpiry k) s = .next t ∧
      t.window k = some { w with state := .closed, grace := none, mark := addReason 4 w.mark } ∧
      (∀ j, j ≠ k → t.window j = s.window j) ∧
      (∀ c y, s.carrier c = some y → y.state.committed = true → y.window = some k →
        (∃ z, t.carrier c = some z ∧ z.state = .proposed ∧ z.bound = none ∧ z.frequency = y.frequency ∧
          z.intent = y.intent ∧ z.window = some k ∧ 11 ∈ z.mark) ∧
        (∀ n role, y.bound = some (n, role) → ∀ x, t.station n = some x → x.slotOf role = none)) ∧
      (∀ n x c y, 1 ≤ n → n ≤ 96 → s.station n = some x → x.primary = some c → s.carrier c = some y → y.window = some k →
        ∃ z, t.station n = some z ∧ z.link = .parked) ∧
      t.galleries = s.galleries ∧ t.settings = s.settings ∧ t.checkQueue = s.checkQueue ∧ t.engine = s.engine ∧
      t.storeStates = s.storeStates ∧ t.port = s.port ∧ s.sameMachine t) ∧
  (∀ (k : Nat) (w : Window) (s : State), s.service = .faultHandling → s.window k = some w → w.state = .closing →
    exec (.graceExpiry k) s = .next (
      if s.quarantined = some ⟨.window, k⟩ then s
      else { s with windows := s.windows.put k { w with grace := some 0 } }))

/-! ## Carriers and coordination -/

/-- DEFINE CARRIER creates the Proposed carrier of its words; with a window that is none or names an empty slot it is
refused STATE, detail 1 (that none is refused so is the model's reading, log 23). RETIRE CARRIER empties the slot of an unbound carrier
that is not Checking, or of a Damaged one, and every alternate that names it is gone. -/
def Obligations.DefineAndRetireCarrier : Prop :=
  (∀ (o : Order) (s : State),
    let words := applyPairs (fieldIndex 6) carrierDefaults (pairsOf o.params)
    let y := Carrier.blank.withWords words
    s.admits o .carrier → 1 ≤ keyOf o → keyOf o ≤ 128 → s.carrier (keyOf o) = none → evenCount 0 16 o.params = true →
    badField (fieldIndex 6) (pairsOf o.params) = false → carrierRangeBad words = false →
    s.maskPermits o y.window → (∃ w v, y.window = some w ∧ s.window w = some v) →
    (∀ n role, y.intent = some (n, role) → ∃ x, s.station n = some x ∧ x.kind.cls = y.cls) →
    exec (.defineCarrier o) s = .next ({ s with
      carriers := s.carriers.put (keyOf o) y
      storeStates := { s.storeStates with carrier := true } }.done o)) ∧
  (∀ (o : Order) (s : State),
    let words := applyPairs (fieldIndex 6) carrierDefaults (pairsOf o.params)
    let y := Carrier.blank.withWords words
    s.admits o .carrier → 1 ≤ keyOf o → keyOf o ≤ 128 → s.carrier (keyOf o) = none → evenCount 0 16 o.params = true →
    badField (fieldIndex 6) (pairsOf o.params) = false → carrierRangeBad words = false →
    s.maskPermits o y.window → (∀ w, y.window = some w → s.window w = none) →
    exec (.defineCarrier o) s = .next (s.answered o .state 1 [])) ∧
  (∀ (o : Order) (s : State), s.admits o .carrier → 1 ≤ keyOf o → keyOf o ≤ 128 → o.params = [] → s.carriers.wf = true →
    ((∃ y, s.carrier (keyOf o) = some y ∧ claimFree o y.claim ∧ s.maskPermits o y.window ∧ y.bound = none ∧
        y.state ≠ .checking) ∨
      (∃ m, s.carriers.slot (keyOf o) = some (.damaged m))) →
    ∃ t, exec (.retireCarrier o) s = .next t ∧ t.carriers.slot (keyOf o) = none ∧
      (∀ c, c ≠ keyOf o → t.carrier c = (s.carrier c).map (fun y =>
        if y.alternate = some (keyOf o) then { y with alternate := none, mark := addReason 13 y.mark } else y)) ∧
      t = { s with
        carriers := t.carriers
        storeStates := { s.storeStates with carrier := true } }.done o)

/-- EDIT CARRIER applies its fields; a placement change, open to a carrier that fills no slot and is not Blocked, takes
the carrier out of the checks and makes it Proposed. -/
def Obligations.EditCarrier : Prop :=
  ∀ (o : Order) (s : State) (old : Carrier),
    let words := applyPairs (fieldIndex 6) (carrierWords old) (pairsOf o.params)
    let new := old.withWords words
    let fresh := new.frequency != old.frequency || new.cls != old.cls
    let placement := fresh || new.window != old.window
    s.admits o .carrier → s.carrier (keyOf o) = some old → claimFree o old.claim → evenCount 2 16 o.params = true →
    badField (fieldIndex 6) (pairsOf o.params) = false → carrierRangeBad words = false → s.maskPermits o old.window →
    s.maskPermits o new.window → (∃ w v, new.window = some w ∧ s.window w = some v) →
    (∀ n role, new.intent = some (n, role) → ∃ x, s.station n = some x ∧ x.kind.cls = new.cls) →
    (placement = false →
      exec (.editCarrier o) s = .next ({ s with
        carriers := s.carriers.put (keyOf o) new
        storeStates := { s.storeStates with carrier := true } }.done o)) ∧
    (placement = true → old.state ≠ .assigned → old.state ≠ .standby → old.state ≠ .blocked → s.carriers.wf = true →
      ∃ t, exec (.editCarrier o) s = .next t ∧
        t.carrier (keyOf o) = some { new with
          state := .proposed
          conflict := none
          restorePending := false
          cleanScore := if fresh then none else old.cleanScore
          cleanAge := if fresh then none else old.cleanAge } ∧
        keyOf o ∉ t.checkQueue ∧ t.engine.map Check.carrier ≠ some (keyOf o) ∧
        t.storeStates = { s.storeStates with carrier := true } ∧ s.besideCarriers t ∧ t.saysDone o)

/-- CHECK CARRIER: behind a busy engine the carrier joins the queue; an idle engine with an empty queue takes it at once
and, when the window stage passes, checks it. CANCEL CHECK returns a Checking carrier to Proposed. -/
def Obligations.CheckAndCancel : Prop :=
  ∀ (o : Order) (s : State) (y : Carrier), s.admits o .carrier → s.carrier (keyOf o) = some y → claimFree o y.claim →
    s.maskPermits o y.window → o.params = [] →
    ((y.state = .proposed ∨ y.state = .conflict) → s.checkQueue.length < 16 →
      (s.engine ≠ none →
        exec (.checkCarrier o) s = .next ({ s with
          carriers := s.carriers.put (keyOf o) { y with state := .checking, conflict := none }
          checkQueue := s.checkQueue ++ [keyOf o] }.done o)) ∧
      (s.engine = none → s.checkQueue = [] → s.load = .none → s.windowStage y = none →
        exec (.checkCarrier o) s = .next ({ s with
          carriers := s.carriers.put (keyOf o) { y with state := .checking, conflict := none }
          engine := some ⟨keyOf o, s.laterStages (keyOf o) y⟩ }.done o)) ∧
      (∀ kind, s.engine = none → s.checkQueue = [] → s.load = .none → s.windowStage y = some kind →
        s.carriers.wf = true → y.restorePending = false →
        ∃ t, exec (.checkCarrier o) s = .next t ∧
          t.carrier (keyOf o) = some { y with
            state := .conflict, conflict := some (kind, []), mark := addReason 1 y.mark } ∧
          s.besideCarriers t ∧ t.saysDone o)) ∧
    (y.state = .checking → s.carriers.wf = true →
      ∃ t, exec (.cancelCheck o) s = .next t ∧
        t.carrier (keyOf o) = some { y with state := .proposed, conflict := none, restorePending := false } ∧
        keyOf o ∉ t.checkQueue ∧ t.engine.map Check.carrier ≠ some (keyOf o) ∧ s.besideCarriers t ∧ t.saysDone o)

/-- The spacing stage: a candidate that falls short of the separation from some committed carrier, of either class and in
any window, ends in Conflict with kind Spacing and the failing carriers in ascending order, up to the four lowest-numbered;
one that falls short of none does not. The separation is half the sum of the occupied widths and the spacing guard, with the
default guard 12, 208 and 404 steps. -/
def Obligations.SpacingStage : Prop :=
  (∀ (o : Order) (s : State) (y : Carrier), s.checkable o y →
    let short : Nat → Prop := fun c => ∃ x, s.carrier c = some x ∧ x.state.committed = true ∧
      ((y.frequency : Int) - (x.frequency : Int)).natAbs <
        (y.cls.width + x.cls.width) / 2 + s.settings.spacingGuard
    ∃ z, s.checkedAs o z ∧
      ((∀ c, ¬ short c) → ∀ list, z.conflict ≠ some (.spacing, list)) ∧
      ((∃ c, short c) → z.state = .conflict ∧ ∃ list, z.conflict = some (.spacing, list) ∧ list.length ≤ 4 ∧
        list.Pairwise (· < ·) ∧ (∀ c ∈ list, short c) ∧
        (∀ c, short c → c ∉ list → list.length = 4 ∧ ∀ d ∈ list, d < c))) ∧
  ∀ a b : CarrierClass, (a.width + b.width) / 2 + Settings.defaults.spacingGuard =
    match a, b with
    | .audio, .audio => 12
    | .audio, .video | .video, .audio => 208
    | .video, .video => 404

/-- The intermodulation stage, for a candidate whose spacing stage passes: tests 1 to 3 are those of the third-order products,
and 4 to 6, made when the IM order is Third+Fifth, those of the fifth-order products. The first product found within the IM
guard, by test and then by the two carriers in ascending number, ends the check in Conflict with kind Intermod and these two
carriers; a Video candidate, and one of which no product is found, passes. -/
def Obligations.IntermodStage : Prop :=
  ∀ (o : Order) (s : State) (y : Carrier), s.checkable o y →
    (∀ c x, s.carrier c = some x → x.state.committed = true →
      (y.cls.width + x.cls.width) / 2 + s.settings.spacingGuard ≤
        ((y.frequency : Int) - (x.frequency : Int)).natAbs) →
    let audio : Nat → Int → Prop := fun c f => ∃ x, s.carrier c = some x ∧ x.state.committed = true ∧
      x.cls = .audio ∧ (x.frequency : Int) = f
    let within : Int → Int → Prop := fun product f => (product - f).natAbs ≤ s.settings.imGuard
    let fx : Int := y.frequency
    let hits : Nat → Nat → Nat → Prop := fun n a b => ∃ fa fb, audio a fa ∧ audio b fb ∧ a ≠ b ∧
      ((n = 1 ∧ within (2 * fa - fb) fx) ∨ (n = 2 ∧ within (2 * fx - fa) fb) ∨ (n = 3 ∧ within (2 * fa - fx) fb) ∨
        (s.settings.imFifth = true ∧
          ((n = 4 ∧ within (3 * fa - 2 * fb) fx) ∨ (n = 5 ∧ within (3 * fx - 2 * fa) fb) ∨
            (n = 6 ∧ within (3 * fa - 2 * fx) fb))))
    ∃ z, s.checkedAs o z ∧
      ((y.cls = .video ∨ ∀ n a b, ¬ hits n a b) → z.state ≠ .conflict) ∧
      (∀ n a b, y.cls = .audio → hits n a b →
        (∀ m c d, hits m c d → n < m ∨ (n = m ∧ (a < c ∨ (a = c ∧ b ≤ d)))) →
        z.state = .conflict ∧ z.conflict = some (.intermod, [min a b, max a b]))

/-- BLOCK CARRIER: a Cleared and a Standby carrier become Blocked; for an Assigned carrier its station, in Up or Weak
with a usable standby, starts an Operator switch with block outgoing set. -/
def Obligations.BlockCarrier : Prop :=
  ∀ (o : Order) (s : State) (y : Carrier), s.admits o .carrier → s.carrier (keyOf o) = some y → claimFree o y.claim →
    s.maskPermits o y.window → o.params = [] →
    (y.state = .cleared →
      exec (.blockCarrier o) s = .next ({ s with
        carriers := s.carriers.put (keyOf o) { y with state := .blocked, alternate := none } }.done o)) ∧
    (∀ n role x, y.state = .standby → y.bound = some (n, role) → s.station n = some x → x.link ≠ .switching →
      exec (.blockCarrier o) s = .next ({ s with
        carriers := s.carriers.put (keyOf o) { y with state := .blocked, alternate := none }
        stations := s.stations.put n { x with recoveryRun := if s.heardClean (keyOf o) then some 0 else none } }.done o)) ∧
    (∀ n role x c z, y.state = .assigned → y.bound = some (n, role) → s.station n = some x →
      (x.link = .up ∨ x.link = .weak) → x.standby = some c → s.carrier c = some z → z.state = .standby →
      (x.tally ≠ .live ∨ s.forced o = true) →
      ∃ t v, exec (.blockCarrier o) s = .next t ∧ t.station n = some v ∧
        v.core = { x with
          switchKind := some .operator
          blockOutgoing := some true
          token := nextToken x.token
          attempts := 1
          tuneTimer := some 0
          wanted := ⟨some z.frequency, z.cls, x.power, false, nextToken x.token⟩
          link := .switching : Station }.core ∧
        s.othersKeep t n ∧ s.carriersKeep t ∧ s.besideStations t ∧ t.storeStates = s.storeStates ∧ t.saysDone o)

/-- UNBLOCK CARRIER makes a bound Blocked carrier Standby and an unbound one Cleared, clears its alternate and stops its
recovery run, and changes nothing else; a carrier that is not Blocked is refused STATE, detail 11. That these answers echo the
order's key word is the model's reading (log 37). -/
def Obligations.UnblockCarrier : Prop :=
  ∀ (o : Order) (s : State) (y : Carrier), s.admits o .carrier → s.carrier (keyOf o) = some y → claimFree o y.claim →
    s.maskPermits o y.window → o.params = [] →
    (y.state = .blocked → y.bound = none →
      exec (.unblockCarrier o) s = .next ({ s with
        carriers := s.carriers.put (keyOf o) { y with state := .cleared, alternate := none } }.done o)) ∧
    (∀ n role x, y.state = .blocked → y.bound = some (n, role) → s.station n = some x →
      exec (.unblockCarrier o) s = .next ({ s with
        carriers := s.carriers.put (keyOf o) { y with state := .standby, alternate := none }
        stations := s.stations.put n { x with recoveryRun := none } }.done o)) ∧
    (y.state ≠ .blocked → exec (.unblockCarrier o) s = .next (s.answered o .state 11 []))

/-- The end of a check: a window that fails, then what the later stages found, gives Conflict with its kind and list;
else the carrier is Cleared, and an intent that its station can take is bound in the same event. The engine is then free,
or has taken the head of the Check Queue, or the lowest carrier restore pending, whose window stage passes. -/
def Obligations.EndOfCheck : Prop :=
  ∀ (c : Nat) (found : Option (ConflictKind × List Nat)) (y : Carrier) (s : State), s.service = .inService →
    s.load = .none → s.badCodes = [] → s.engine = some ⟨c, found⟩ → s.carrier c = some y → y.restorePending = false →
    c ∉ s.checkQueue → s.carriers.wf = true →
    ∃ t z, exec .endOfCheck s = .next t ∧ t.carrier c = some z ∧ t.port = s.port ∧ t.windows = s.windows ∧
      t.galleries = s.galleries ∧ t.conferences = s.conferences ∧ t.settings = s.settings ∧
      t.storeStates = s.storeStates ∧ s.sameMachine t ∧
      (∀ kind, s.windowStage y = some kind →
        z = { y with state := .conflict, conflict := some (kind, []), mark := addReason 1 y.mark } ∧
        t.stations = s.stations) ∧
      (∀ kind list, s.windowStage y = none → found = some (kind, list) →
        z = { y with state := .conflict, conflict := some (kind, list), mark := addReason 1 y.mark } ∧
        t.stations = s.stations) ∧
      (s.windowStage y = none → found = none → y.intent = none →
        z = { y with state := .cleared, mark := addReason 2 y.mark } ∧ t.stations = s.stations) ∧
      (∀ n role, s.windowStage y = none → found = none → y.intent = some (n, role) →
        (s.canBind y n role = true →
          z = { y with
            state := match role with | .primary => .assigned | .standby => .standby
            bound := some (n, role)
            mark := addReason 3 (addReason 2 y.mark) } ∧
          ∃ x, t.station n = some x ∧ x.slotOf role = some c ∧ 1 ∈ x.mark) ∧
        (s.canBind y n role = false →
          z = { y with state := .cleared, mark := addReason 4 (addReason 2 y.mark) } ∧ t.stations = s.stations)) ∧
      (s.checkQueue = [] → (∀ d x, s.carrier d = some x → x.restorePending = false) →
        t.engine = none ∧ t.checkQueue = []) ∧
      (∀ d rest x, s.checkQueue = d :: rest → s.carrier d = some x → s.windowStage x = none →
        t.engine = some ⟨d, t.laterStages d x⟩ ∧ t.checkQueue = rest ∧ t.carrier d = some x) ∧
      (∀ d x, s.checkQueue = [] → s.carrier d = some x → x.restorePending = true → s.windowStage x = none →
        (∀ e v, s.carrier e = some v → v.restorePending = true → d ≤ e) →
        t.engine = some ⟨d, t.laterStages d x⟩ ∧ t.checkQueue = [] ∧
          t.carrier d = some { x with restorePending := false })

/-- SET COORDINATION, SET CUE and SET LINK put their words in force. SET COORDINATION and SET CUE, and SET LINK while no
watch and no recovery run reaches its new limit, change nothing else but the Part settings' store state, which becomes
Changed when a value changes (that only then is the model's reading, log 29). That the DONE-ADJUSTED answer of SET LINK has
detail 1 is the model's reading (log 34). -/
def Obligations.SettingsOrders : Prop :=
  (∀ (o : Order) (s : State) (x : Settings), s.admits o .plan → o.params.length = 3 → coordinationBad o.params = false →
    x = { s.settings with
      spacingGuard := fieldNat o.params 0, imGuard := fieldNat o.params 1, imFifth := fieldNat o.params 2 = 1 } →
    (x = s.settings ∨ s.coordinationInUse = false) →
    exec (.setCoordination o) s = .next ((s.settingsInForce x).done o)) ∧
  (∀ (o : Order) (s : State) (x : Settings), s.admits o .plan → 1 ≤ o.params.length → o.params.length ≤ 9 →
    cueSettingsBad o.params = false →
    x = { s.settings with
      cueLimit := fieldNat o.params 0, directorPorts := sortNat ((o.params.drop 1).map BitVec.toNat) } →
    exec (.setCue o) s = .next ((s.settingsInForce x).done o)) ∧
  (∀ (o : Order) (s : State) (x : Settings), s.admits o .plan → o.params.length = 5 → linkBad o.params = false →
    x = { s.settings with
      linkWatch := fieldNat o.params 0 / 50 * 50
      fallbackFloor := fieldNat o.params 1
      fallbackMargin := fieldNat o.params 2
      returnMargin := fieldNat o.params 3
      recoveryTime := fieldNat o.params 4 } →
    (∃ t, exec (.setLink o) s = .next t ∧ t.settings = x ∧ t.windows = s.windows ∧ t.galleries = s.galleries ∧
      s.sameMachine t) ∧
    ((∀ k v, s.station k = some v → (∀ ms, v.watch = .running ms → ms < x.linkWatch) ∧
        (∀ ms, v.recoveryRun = some ms → ms < x.recoveryTime * 1000)) →
      exec (.setLink o) s =
        .next ((s.settingsInForce x).doneOrAdjusted o (fieldNat o.params 0 % 50 != 0) 1)))

/-! ## Stations and links -/

/-- DEFINE STATION creates the Parked, muted station of its words with empty slots; its pair is made mutual. -/
def Obligations.DefineStation : Prop :=
  ∀ (o : Order) (s : State),
    let k := keyOf o
    let words := defineStationWords (pairsOf o.params)
    let x := Station.ofWords words
    s.admits o .station → 1 ≤ k → k ≤ 96 → s.station k = none → evenCount 0 16 o.params = true →
    badField (fieldIndex 11) (pairsOf o.params) = false → stationRangeBad words = false → labelBad words = false →
    s.pairUnsuited k x.kind x.pair = false →
    ∃ t v, exec (.defineStation o) s = .next t ∧ t.station k = some v ∧ v.core = x.core ∧ v.delivered = none ∧
      v.accept = true ∧ v.stack = [] ∧ v.cueRoute = none ∧
      (∀ j z, j ≠ k → s.station j = some z → ∃ w, t.station j = some w ∧
        w.core = { z with
          pair := if x.pair = some j then some k else if x.pair.bind s.partnerOf = some j then none
            else z.pair : Station }.core) ∧
      (∀ j, x.pair = some j → ∃ w, t.station j = some w ∧ 13 ∈ w.mark) ∧
      t.carriers = s.carriers ∧ s.besideStations t ∧ t.storeStates = { s.storeStates with station := true } ∧
      t.port = .pending ⟨if powerAdjusted words then .doneAdjusted else .done, if powerAdjusted words then 1 else 0,
        o.key, []⟩

/-- EDIT STATION applies its fields: a new power is wanted at once while Parked and is a retune otherwise; a new control
unit, taken while Parked, leaves nothing delivered; a new pair is made mutual, and a Beltpack that a contributing Camera gives
up leaves the conferences that it followed into. That an EDIT without a change leaves the store state is the model's reading
(log 29). -/
def Obligations.EditStation : Prop :=
  ∀ (o : Order) (s : State) (old : Station),
    let k := keyOf o
    let words := applyPairs editStationIndex (stationWords old) (pairsOf o.params)
    let new := Station.ofWords words
    s.admits o .station → s.station k = some old → claimFree o old.claim → evenCount 2 16 o.params = true →
    badField editStationIndex (pairsOf o.params) = false → stationRangeBad words = false → labelBad words = false →
    (old.tally ≠ .live ∨ s.forced o = true ∨ (new.controlUnit = old.controlUnit ∧ new.power = old.power)) →
    (new.controlUnit = old.controlUnit ∨ old.link = .parked) → (new.power = old.power ∨ old.link ≠ .switching) →
    s.pairUnsuited k old.kind new.pair = false →
    ∃ t v, exec (.editStation o) s = .next t ∧ t.station k = some v ∧
      (new.power = old.power → v.core = { old with
        label := new.label, callMode := new.callMode, controlUnit := new.controlUnit, pair := new.pair : Station }.core) ∧
      (new.power ≠ old.power → old.link = .parked → v.core = { old with
        label := new.label
        callMode := new.callMode
        controlUnit := new.controlUnit
        pair := new.pair
        power := new.power
        wanted := { old.wanted with power := new.power } : Station }.core) ∧
      (∀ c y, new.power ≠ old.power → old.link ≠ .parked → old.primary = some c → s.carrier c = some y →
        v.core = { old with
          label := new.label
          callMode := new.callMode
          pair := new.pair
          power := new.power
          token := nextToken old.token
          attempts := 1
          tuneTimer := some 0
          wanted := ⟨some y.frequency, y.cls, new.power, false, nextToken old.token⟩
          quality := none
          qualityAge := none
          watch := .off
          link := .tuning : Station }.core) ∧
      (new.controlUnit ≠ old.controlUnit → v.delivered = none) ∧
      (∀ j z, j ≠ k → s.station j = some z → ∃ w, t.station j = some w ∧
        w.core = { z with
          pair := if new.pair = old.pair then z.pair else if new.pair = some j then some k
            else if old.pair = some j ∨ new.pair.bind s.partnerOf = some j then none else z.pair : Station }.core) ∧
      (∀ p c, new.pair = none → new.power = old.power → old.contributing ≠ [] → s.paired k p → 1 ≤ c → c ≤ 24 →
        t.dueReasons none p c = [] ∧ s.recomputes t p c) ∧
      t.carriers = s.carriers ∧ s.besideStations t ∧
      t.storeStates = (if stationWords new = stationWords old then s.storeStates
        else { s.storeStates with station := true }) ∧
      t.port = .pending ⟨if powerAdjusted words then .doneAdjusted else .done, if powerAdjusted words then 1 else 0,
        o.key, []⟩

/-- RETIRE STATION empties the slot of a Parked station: its carriers and the intents that name it are freed, source
maps, pairs and conferences no longer name it, and the cues that it was sourcing are released with Cue Source Gone. What its
transmitter and its cue route have not been given goes on as a final delivery: a MUTE and a route of none. A Damaged slot is
emptied. -/
def Obligations.RetireStation : Prop :=
  ∀ (o : Order) (s : State), s.admits o .station → 1 ≤ keyOf o → keyOf o ≤ 96 → o.params = [] →
    (∀ x, s.tablesInOrder → s.station (keyOf o) = some x → claimFree o x.claim → x.link = .parked →
      (x.tally ≠ .live ∨ s.forced o = true) →
      ∃ t, exec (.retireStation o) s = .next t ∧ t.stations.slot (keyOf o) = none ∧
        (∀ c y, s.carrier c = some y →
          t.carrier c = some (
            if y.bound.map (·.1) = some (keyOf o) ∨ y.intent.map (·.1) = some (keyOf o) then
              { y with
                state := if y.bound.map (·.1) = some (keyOf o) ∧ y.state ≠ CarrierState.blocked then CarrierState.cleared else y.state
                bound := if y.bound.map (·.1) = some (keyOf o) then none else y.bound
                intent := if y.intent.map (·.1) = some (keyOf o) then none else y.intent
                mark := addReason 12 y.mark }
            else y)) ∧
        (∀ g x, s.gallery g = some x →
          t.gallery g = some (
            if some (keyOf o) ∈ x.sources then
              { x with
                sources := x.sources.map (fun e => if e = some (keyOf o) then none else e)
                mark := addReason 3 x.mark }
            else x)) ∧
        (∀ j z, j ≠ keyOf o → s.station j = some z → ∃ w, t.station j = some w ∧
          w.core = { z with pair := if z.pair = some (keyOf o) then none else z.pair : Station }.core ∧
          ((∀ e ∈ z.stack, e.source ≠ .station (keyOf o)) → w.stack = z.stack ∧ w.accept = z.accept) ∧
          (1 ≤ j → j ≤ 96 → (∃ e ∈ z.stack, e.source = .station (keyOf o)) →
            23 ∈ w.mark ∧ z.afterRelease (.station (keyOf o)) w)) ∧
        (∀ a, x.controlUnit = some a → s.deliveryCode .tune (keyOf o) ≠ some 0 →
          x.delivered ≠ some { x.wanted with muted := true } →
          ∃ f ∈ t.finals, f = ⟨.tune, keyOf o, some a, .tune { x.wanted with muted := true }, x.delivered.map .tune, f.base⟩) ∧
        (x.kind = .inEar ∨ x.kind = .beltpack → s.deliveryCode .cueRoute (keyOf o) ≠ some 0 → x.deliveredRoute ≠ some none →
          ∃ f ∈ t.finals, f = ⟨.cueRoute, keyOf o, none, .cueRoute none, x.deliveredRoute.map .cueRoute, f.base⟩) ∧
        (∀ c x, 1 ≤ c → c ≤ 24 → t.conference c = some x →
          keyOf o ∉ x.waiting ∧ ∀ m ∈ x.members, m.id ≠ Source.station (keyOf o)) ∧
        t.windows = s.windows ∧ t.settings = s.settings ∧ t.checkQueue = s.checkQueue ∧ t.engine = s.engine ∧
        s.sameMachine t ∧ t.storeStates.station = true ∧ t.saysDone o) ∧
    (∀ m, s.stations.slot (keyOf o) = some (.damaged m) →
      exec (.retireStation o) s = .next ({ s with
        stations := s.stations.erase (keyOf o)
        storeStates := { s.storeStates with station := true } }.done o))

/-- BIND STATION puts a Cleared carrier into an empty slot of the station it suits; UNBIND STATION empties a slot. -/
def Obligations.BindAndUnbind : Prop :=
  ∀ (o : Order) (s : State) (x : Station) (y : Carrier) (c : Nat) (role : Role), s.admits o .station →
    s.station (keyOf o) = some x → s.carrier c = some y → claimFree o x.claim → claimFree o y.claim →
    (role = .primary → x.link = .parked) → (role = .standby → x.link ≠ .switching) →
    (o.params.length = 2 → fieldNat o.params 0 = c → fieldNat o.params 1 = role.code → y.state = .cleared →
      y.cls = x.kind.cls → x.slotOf role = none → s.carrierWindowOpen y = true →
      exec (.bindStation o) s = .next ({ s with
        carriers := s.carriers.put c { y with
          state := match role with | .primary => .assigned | .standby => .standby
          bound := some (keyOf o, role)
          intent := some (keyOf o, role)
          mark := addReason 3 y.mark }
        stations := s.stations.put (keyOf o) (match role with
          | .primary => { x with primary := some c }
          | .standby => { x with standby := some c })
        storeStates := if y.intent = some (keyOf o, role) then s.storeStates
          else { s.storeStates with carrier := true } }.done o)) ∧
    (o.params.length = 1 → fieldNat o.params 0 = role.code → x.slotOf role = some c →
      (role = .standby ∨ x.tally ≠ .live ∨ s.forced o = true) →
      exec (.unbindStation o) s = .next ({ s with
        carriers := s.carriers.put c { y with
          state := if y.state = CarrierState.blocked then CarrierState.blocked else CarrierState.cleared
          bound := none
          intent := none
          mark := addReason 5 y.mark }
        stations := s.stations.put (keyOf o) (match role with
          | .primary => { x with primary := none }
          | .standby => { x with standby := none, recoveryRun := none })
        storeStates := if y.intent = none then s.storeStates else { s.storeStates with carrier := true } }.done o))

/-- GO LIVE starts the tune of a Parked station's primary: a new token, the first attempt, the link Tuning; a Present
transmitter unit's queue gets the TUNE at its tail. -/
def Obligations.GoLive : Prop :=
  ∀ (o : Order) (s : State) (x : Station) (c u : Nat) (y : Carrier), s.admits o .station →
    s.station (keyOf o) = some x → claimFree o x.claim → o.params = [] → x.link = .parked → x.primary = some c →
    s.carrier c = some y → s.carrierWindowOpen y = true → x.controlUnit = some u →
    let wanted : Tune := ⟨some y.frequency, y.cls, x.power, false, nextToken x.token⟩
    ∃ t v, exec (.goLive o) s = .next t ∧ t.station (keyOf o) = some v ∧
      v.core = { x with
        token := nextToken x.token
        attempts := 1
        tuneTimer := some 0
        wanted := wanted
        quality := none
        qualityAge := none
        watch := .off
        link := .tuning : Station }.core ∧
      v.delivered = x.delivered ∧ s.othersKeep t (keyOf o) ∧ t.carriers = s.carriers ∧ t.conferences = s.conferences ∧
      s.besideStations t ∧ t.storeStates = s.storeStates ∧ t.saysDone o ∧
      (∀ w, x.tuneBase = .current → x.delivered ≠ some wanted → s.unitAt u = some w → w.state = .present →
        w.kind = some .txc → s.queue.length < 64 → (∀ e ∈ s.queue, e.has u .tune (keyOf o) = false) →
        t.queue = s.queue ++ [⟨u, .tune, keyOf o, .tune wanted, false, 0, false⟩])

/-- SWAP starts an Operator switch to the usable standby. PARK mutes the station and parks it, which empties its cue stack
and, from a deliverable link, makes its delivered lamp Unknown and its memberships absent and silent. -/
def Obligations.SwapAndPark : Prop :=
  ∀ (o : Order) (s : State) (x : Station), s.admits o .station → s.station (keyOf o) = some x →
    claimFree o x.claim → o.params = [] → (x.tally ≠ .live ∨ s.forced o = true) →
    (∀ c y, (x.link = .up ∨ x.link = .weak) → x.standby = some c → s.carrier c = some y → y.state = .standby →
      ∃ t v, exec (.swap o) s = .next t ∧ t.station (keyOf o) = some v ∧
        v.core = { x with
          inhibit := false
          switchKind := some .operator
          blockOutgoing := some false
          token := nextToken x.token
          attempts := 1
          tuneTimer := some 0
          wanted := ⟨some y.frequency, y.cls, x.power, false, nextToken x.token⟩
          link := .switching : Station }.core ∧
        s.othersKeep t (keyOf o) ∧ s.carriersKeep t ∧ s.besideStations t ∧ t.storeStates = s.storeStates ∧
        t.saysDone o) ∧
    (x.link ≠ .parked →
      ∃ t v, exec (.park o) s = .next t ∧ t.station (keyOf o) = some v ∧ v.core = x.parked.core ∧
        (x.stack.length ≤ 2 → v.stack = []) ∧
        (x.link.deliverable = true → v.deliveredLamp = none ∧
          ∀ c z, 1 ≤ c → c ≤ 24 → t.conference c = some z → ∀ m ∈ z.members, m.id = Source.station (keyOf o) →
            m.absent = true ∧ Source.station (keyOf o) ∉ z.talkers) ∧
        s.othersKeep t (keyOf o) ∧ s.carriersKeep t ∧ s.besideStations t ∧ t.storeStates = s.storeStates ∧
        t.saysDone o)

/-- A Tune Timeout takes the next attempt while fewer than three are made; the third parks a Tuning station, with Tune
Failed, and fails a switch, with Switch Failed. A station that waits for no tune is left alone. -/
def Obligations.TuneTimeouts : Prop :=
  ∀ (k : Nat) (s : State) (x : Station), (s.service = .inService ∨ s.service = .faultHandling) → s.badCodes = [] →
    s.station k = some x →
    (x.tuneTimer = none → exec (.tuneTimeout k) s = .next s) ∧
    (x.tuneTimer ≠ none →
      ∃ t, exec (.tuneTimeout k) s = .next t ∧ s.othersKeep t k ∧ s.carriersKeep t ∧ s.besideStations t ∧
        t.storeStates = s.storeStates ∧ t.port = s.port ∧
        (∀ c y, x.attempts < 3 → s.carrier c = some y →
          ((x.link = .tuning ∧ x.primary = some c) ∨ (x.link = .switching ∧ x.standby = some c)) →
          ∃ v, t.station k = some v ∧ v.core = { x with
            token := nextToken x.token
            attempts := x.attempts + 1
            tuneTimer := some 0
            wanted := ⟨some y.frequency, y.cls, x.power, false, nextToken x.token⟩ : Station }.core) ∧
        (3 ≤ x.attempts → x.link = .tuning → ∃ v, t.station k = some v ∧ v.core = x.parked.core ∧ 3 ∈ v.mark) ∧
        (∀ c y, 3 ≤ x.attempts → x.link = .switching → x.primary = some c → s.carrier c = some y →
          ∃ v, t.station k = some v ∧ 9 ∈ v.mark ∧ v.core = { x with
            token := nextToken x.token
            attempts := 0
            tuneTimer := none
            wanted := ⟨some y.frequency, y.cls, x.power, false, nextToken x.token⟩
            switchKind := none
            blockOutgoing := none
            inhibit := true
            link := if x.watch = .runOut then .lost else .weak : Station }.core))

/-- The watch of an Up or Weak station runs out: the link is Lost, with Link Lost. In Switching the watch stands run
out. -/
def Obligations.WatchRunsOut : Prop :=
  ∀ (k ms : Nat) (s : State) (x : Station), (s.service = .inService ∨ s.service = .faultHandling) → s.badCodes = [] →
    s.station k = some x → x.watch = .running ms →
    ((x.link = .up ∨ x.link = .weak) →
      ∃ t v, exec (.watchRunsOut k) s = .next t ∧ t.station k = some v ∧
        v.core = { x with watch := .runOut, link := .lost : Station }.core ∧ 6 ∈ v.mark ∧
        (x.stack.length ≤ 2 → v.stack = []) ∧ v.deliveredLamp = none ∧ s.othersKeep t k ∧ t.carriers = s.carriers ∧
        s.besideStations t ∧ t.storeStates = s.storeStates ∧ t.port = s.port) ∧
    (x.link = .switching →
      exec (.watchRunsOut k) s = .next { s with stations := s.stations.put k { x with watch := .runOut } })

/-- A recovery run that completes makes the Blocked standby Standby, with Recovered; a clean age that passes Link Watch
stops the run of the station whose Blocked standby the carrier is. -/
def Obligations.RecoveryRuns : Prop :=
  (∀ (k c ms : Nat) (s : State) (x : Station) (y : Carrier), (s.service = .inService ∨ s.service = .faultHandling) →
    s.badCodes = [] → s.station k = some x → x.recoveryRun = some ms → x.standby = some c → s.carrier c = some y →
    exec (.recovery k) s = .next { s with
      carriers := s.carriers.put c { y with state := .standby, alternate := none, mark := addReason 10 y.mark }
      stations := s.stations.put k { x with recoveryRun := none } }) ∧
  (∀ (c age : Nat) (s : State) (y : Carrier), (s.service = .inService ∨ s.service = .faultHandling) →
    s.badCodes = [] → s.carrier c = some y → y.cleanAge = some age →
    (∀ k x, y.state = .blocked → y.bound = some (k, .standby) → s.station k = some x →
      exec (.cleanAgePassingLinkWatch c) s = .next { s with
        carriers := s.carriers.put c { y with cleanAge := some (max age (s.settings.linkWatch + 1)) }
        stations := s.stations.put k { x with recoveryRun := none } }) ∧
    ((y.state ≠ .blocked ∨ ∀ k, y.bound ≠ some (k, .standby)) →
      exec (.cleanAgePassingLinkWatch c) s = .next { s with
        carriers := s.carriers.put c { y with cleanAge := some (max age (s.settings.linkWatch + 1)) } }))

/-- CALL STATION starts the call of the station's call mode and shows it on its lamp; CLEAR CALL ends the calls of the
station and its partner; a Single call ends at its timeout, with Call Ended. -/
def Obligations.Calls : Prop :=
  (∀ (o : Order) (s : State) (x : Station), s.takes → s.holdsRight o .gallery → s.station (keyOf o) = some x →
    x.kind.hasLamp = true → o.params = [] →
    (∃ t v, exec (.callStation o) s = .next t ∧ t.station (keyOf o) = some v ∧
      v.core = { x with
        call := some x.callMode
        callRemaining := match x.callMode with | .single => some 2000 | .latched => none : Station }.core ∧
      (∃ l, v.lamp = some l ∧ l.call = true) ∧ s.othersKeep t (keyOf o) ∧ t.carriers = s.carriers ∧
      t.conferences = s.conferences ∧ s.besideStations t ∧ t.storeStates = s.storeStates ∧ t.saysDone o) ∧
    ((x.call ≠ none ∨ ∃ p y, x.pair = some p ∧ s.station p = some y ∧ y.call ≠ none) →
      ∃ t v, exec (.clearCall o) s = .next t ∧ t.station (keyOf o) = some v ∧
        v.core = { x with call := none, callRemaining := none : Station }.core ∧
        (∀ p y, x.pair = some p → p ≠ keyOf o → s.station p = some y → ∃ w, t.station p = some w ∧ w.call = none ∧
          (y.call ≠ none → 16 ∈ w.mark)) ∧
        (∀ j, j ≠ keyOf o → x.pair ≠ some j → (t.station j).map Station.core = (s.station j).map Station.core) ∧
        t.carriers = s.carriers ∧ t.conferences = s.conferences ∧ s.besideStations t ∧ t.storeStates = s.storeStates ∧
        t.saysDone o)) ∧
  (∀ (k ms : Nat) (s : State) (x : Station), (s.service = .inService ∨ s.service = .faultHandling) →
    s.badCodes = [] → s.station k = some x → x.callRemaining = some ms →
    ∃ t v, exec (.callTimeout k) s = .next t ∧ t.station k = some v ∧
      v.core = { x with call := none, callRemaining := none : Station }.core ∧ 16 ∈ v.mark ∧ s.othersKeep t k ∧
      t.carriers = s.carriers ∧ t.conferences = s.conferences ∧ s.besideStations t ∧ t.storeStates = s.storeStates ∧
      t.port = s.port)

/-! ## Cues -/

/-- A CUE press of an operator is pushed on an empty stack, at Floor while the station accepts, or as Director over one
Floor entry; another press is refused and changes no stack. -/
def Obligations.CuePress : Prop :=
  ∀ (o : Order) (s : State) (x : Station) (asked : CueLevel), s.takes → s.holdsRight o .talkback →
    s.station (keyOf o) = some x → x.kind.hasCue = true → o.params.length = 2 → fieldNat o.params 0 = asked.code →
    fieldNat o.params 1 = 1 →
    let source := Source.operator o.operator.val
    let level : CueLevel := if o.operator.val = 0 then asked else .floor
    (x.link = .parked ∨ x.link = .lost → exec (.cue o) s = .next (s.answered o .state 17 [])) ∧
    (x.link ≠ .parked → x.link ≠ .lost →
      (∀ e ∈ x.stack, e.source ≠ source) →
      (x.stack = [] → level = .floor → x.accept = false → exec (.cue o) s = .next (s.answered o .state 18 [])) ∧
      ((x.stack = [] ∧ (level = .director ∨ x.accept = true)) ∨
          (∃ e, x.stack = [e] ∧ e.level = .floor ∧ level = .director) →
        ∃ t v, exec (.cue o) s = .next t ∧ t.station (keyOf o) = some v ∧ v.core = x.core ∧
          v.stack = x.stack ++ [⟨source, level, x.accept, s.settings.cueLimit * 1000⟩] ∧ v.accept = false ∧
          v.cueRoute = some source ∧ s.othersKeep t (keyOf o) ∧ t.carriers = s.carriers ∧
          t.conferences = s.conferences ∧ s.besideStations t ∧ t.storeStates = s.storeStates ∧
          t.port = .pending ⟨if level = asked then .done else .doneAdjusted, if level = asked then 0 else 2,
            o.key, []⟩)) ∧
    (x.link ≠ .parked → x.link ≠ .lost →
      ((∃ e ∈ x.stack, e.source = source) ∨ 2 ≤ x.stack.length ∨
        (∃ e, x.stack = [e] ∧ (level = .floor ∨ e.level = .director))) →
      exec (.cue o) s = .next (s.answered o .state 19 []))

/-- What a release leaves of a cue stack and of the accept (R119): the current entry is popped and its saved accept
restored; a buried entry goes and its saved accept passes upward. SET CUE ACCEPT sets the accept of an empty stack, else
the accept that the bottom entry saved. -/
def Obligations.CueReleasesAndAccept : Prop :=
  (∀ (o : Order) (s : State) (x : Station), s.takes → s.holdsRight o .talkback → s.station (keyOf o) = some x →
    x.kind.hasCue = true → o.params.length = 2 → fieldNat o.params 0 ≤ 1 → fieldNat o.params 1 = 0 →
    ((∀ e ∈ x.stack, e.source ≠ Source.operator o.operator.val) →
      exec (.cue o) s = .next (s.answered o .state 20 [])) ∧
    (x.stack.length ≤ 2 → (∃ e ∈ x.stack, e.source = Source.operator o.operator.val) →
      ∃ t v, exec (.cue o) s = .next t ∧ t.station (keyOf o) = some v ∧ v.core = x.core ∧
        x.afterRelease (Source.operator o.operator.val) v ∧ s.othersKeep t (keyOf o) ∧ t.carriers = s.carriers ∧
        t.conferences = s.conferences ∧ s.besideStations t ∧ t.storeStates = s.storeStates ∧ t.saysDone o)) ∧
  (∀ (k : Nat) (w : Word) (source : Source) (s : State) (x : Station),
    (s.service = .inService ∨ s.service = .faultHandling) → s.badCodes = [] → s.station k = some x →
    sourceOf w.toNat = some source → x.stack.length ≤ 2 → (∃ e ∈ x.stack, e.source = source) →
    ∃ t v, exec (.cueTimeout k w) s = .next t ∧ t.station k = some v ∧ v.core = x.core ∧ x.afterRelease source v ∧
      21 ∈ v.mark ∧ s.othersKeep t k ∧ t.carriers = s.carriers ∧ t.conferences = s.conferences ∧ s.besideStations t ∧
      t.storeStates = s.storeStates ∧ t.port = s.port) ∧
  (∀ (o : Order) (s : State) (x : Station) (e : CueEntry) (rest : List CueEntry), s.takes → s.holdsRight o .talkback →
    s.station (keyOf o) = some x → x.kind.hasCue = true → o.params = [] → x.stack = e :: rest → rest.length ≤ 1 →
    ∃ t v, exec (.clearCues o) s = .next t ∧ t.station (keyOf o) = some v ∧ v.core = x.core ∧ v.stack = [] ∧
      v.accept = e.saved ∧ v.cueRoute = none ∧ s.othersKeep t (keyOf o) ∧ t.carriers = s.carriers ∧
      t.conferences = s.conferences ∧ s.besideStations t ∧ t.storeStates = s.storeStates ∧ t.saysDone o) ∧
  (∀ (o : Order) (s : State) (x : Station), s.takes → s.holdsRight o .talkback → s.station (keyOf o) = some x →
    x.kind.hasCue = true → o.params.length = 1 → fieldNat o.params 0 ≤ 1 →
    (x.stack = [] →
      exec (.setCueAccept o) s = .next ({ s with
        stations := s.stations.put (keyOf o) { x with accept := fieldNat o.params 0 = 1 } }.done o)) ∧
    (∀ e rest, x.stack = e :: rest →
      exec (.setCueAccept o) s = .next ({ s with
        stations := s.stations.put (keyOf o) { x with
          stack := { e with saved := fieldNat o.params 0 = 1 } :: rest } }.done o)))

/-! ## Galleries and conferences -/

/-- DEFINE GALLERY creates the gallery of its words with empty sets; EDIT GALLERY applies its fields, a new tally unit
empties the sets, and every station that a changed set or map entry reaches has its tally derived afresh; a new follow
conference moves the beltpack of a contributing Camera from the old conference to the new one; RETIRE GALLERY empties the
slot and derives the tally of the stations it reached. That an EDIT without a change leaves the store state is
the model's reading (log 29). -/
def Obligations.GalleryOrders : Prop :=
  (∀ (o : Order) (s : State),
    let words := applyPairs galleryIndex galleryDefaults (pairsOf o.params)
    let g := Gallery.blank.withWords words
    s.admits o .gallery → 1 ≤ keyOf o → keyOf o ≤ 8 → s.gallery (keyOf o) = none → evenCount 0 16 o.params = true →
    badField galleryIndex (pairsOf o.params) = false → galleryRangeBad words = false → labelBad words = false →
    (∀ j, some j ∈ g.sources → s.station j ≠ none) → (∀ c, g.follow = some c → s.conference c ≠ none) →
    ∃ t, exec (.defineGallery o) s = .next t ∧ t.galleries = s.galleries.put (keyOf o) g ∧ t.carriers = s.carriers ∧
      (∀ j, (t.station j).map Station.core = (s.station j).map Station.core) ∧
      (g.follow = none → t.stations = s.stations ∧ t.conferences = s.conferences ∧ t.queue = s.queue) ∧
      s.besideGalleries t ∧ t.storeStates = { s.storeStates with gallery := true } ∧ t.saysDone o) ∧
  (∀ (o : Order) (s : State) (old : Gallery),
    let words := applyPairs galleryIndex (galleryWords old) (pairsOf o.params)
    let new := old.withWords words
    let fresh := new.tallyUnit != old.tallyUnit
    s.admits o .gallery → s.gallery (keyOf o) = some old → claimFree o old.claim → evenCount 2 16 o.params = true →
    badField galleryIndex (pairsOf o.params) = false → galleryRangeBad words = false → labelBad words = false →
    (∀ j, some j ∈ new.sources → s.station j ≠ none) → (∀ c, new.follow = some c → s.conference c ≠ none) →
    (galleryWords new = galleryWords old → exec (.editGallery o) s = .next (s.done o)) ∧
    (galleryWords new ≠ galleryWords old →
      ∃ t, exec (.editGallery o) s = .next t ∧
        t.galleries = s.galleries.put (keyOf o)
          (if fresh then { new with live := false, program := [], preview := [] } else new) ∧
        (∀ j, j ∈ remapped old.sources new.sources ∨ (fresh = true ∧ j ∈ old.reached) → t.tallyDerived j) ∧
        (∀ j, (t.station j).map Station.tallyless = (s.station j).map Station.tallyless) ∧
        (∀ j, j ∉ remapped old.sources new.sources → (fresh = false ∨ j ∉ old.reached) →
          (t.station j).map Station.core = (s.station j).map Station.core) ∧
        (∀ k p c x, new.sources = old.sources → fresh = false → 1 ≤ k → k ≤ 96 → s.paired k p → s.station k = some x →
          keyOf o ∈ x.contributing → (∀ j y, j ≠ k → s.station j = some y → keyOf o ∉ y.contributing) → 1 ≤ c → c ≤ 24 →
          old.follow ≠ new.follow → (old.follow = some c ∨ new.follow = some c) →
          t.dueAre p k c ∧ s.recomputes t p c) ∧
        t.carriers = s.carriers ∧ s.besideGalleries t ∧ t.storeStates = { s.storeStates with gallery := true } ∧
        t.saysDone o)) ∧
  (∀ (o : Order) (s : State), s.admits o .gallery → 1 ≤ keyOf o → keyOf o ≤ 8 → o.params = [] →
    (∀ g, s.gallery (keyOf o) = some g → claimFree o g.claim →
      ∃ t, exec (.retireGallery o) s = .next t ∧ t.galleries = s.galleries.erase (keyOf o) ∧
        (∀ j ∈ g.reached, t.tallyDerived j) ∧
        (∀ j, (t.station j).map Station.tallyless = (s.station j).map Station.tallyless) ∧
        (∀ j, j ∉ g.reached → (t.station j).map Station.core = (s.station j).map Station.core) ∧
        t.carriers = s.carriers ∧ s.besideGalleries t ∧ t.storeStates = { s.storeStates with gallery := true } ∧
        t.saysDone o) ∧
    (∀ m, s.galleries.slot (keyOf o) = some (.damaged m) →
      exec (.retireGallery o) s = .next ({ s with
        galleries := s.galleries.erase (keyOf o)
        storeStates := { s.storeStates with gallery := true } }.done o)))

/-- DEFINE CONFERENCE creates an empty conference; EDIT CONFERENCE sets its label; RETIRE CONFERENCE empties the slot
and clears the follow fields that name it, with Follow Gone; a routing that the matrix still has goes on as a final delivery
of an empty one. That an EDIT without a change leaves the store state is the
model's reading (log 29). -/
def Obligations.ConferenceOrders : Prop :=
  (∀ (o : Order) (s : State),
    let words := applyPairs (fieldIndex 6) emptyLabel (pairsOf o.params)
    s.admits o .talkback → 1 ≤ keyOf o → keyOf o ≤ 24 → s.conference (keyOf o) = none →
    evenCount 0 12 o.params = true → badField (fieldIndex 6) (pairsOf o.params) = false → labelBad words = false →
    ∃ t b, exec (.defineConference o) s = .next t ∧
      t.conference (keyOf o) = some { Conference.blank with label := words, routingBase := b } ∧
      (∀ c, c ≠ keyOf o → t.conference c = s.conference c) ∧ t.stations = s.stations ∧ t.carriers = s.carriers ∧
      s.besideStations t ∧ t.storeStates = { s.storeStates with conference := true } ∧ t.saysDone o) ∧
  (∀ (o : Order) (s : State) (old : Conference),
    let words := applyPairs (fieldIndex 6) old.label (pairsOf o.params)
    s.admits o .talkback → s.conference (keyOf o) = some old → claimFree o old.claim →
    evenCount 2 12 o.params = true → badField (fieldIndex 6) (pairsOf o.params) = false → labelBad words = false →
    (words = old.label → exec (.editConference o) s = .next (s.done o)) ∧
    (words ≠ old.label → exec (.editConference o) s = .next ({ s with
        conferences := s.conferences.put (keyOf o) { old with label := words }
        storeStates := { s.storeStates with conference := true } }.done o))) ∧
  (∀ (o : Order) (s : State), s.admits o .talkback → 1 ≤ keyOf o → keyOf o ≤ 24 → o.params = [] →
    s.galleries.wf = true →
    ((∃ x, s.conference (keyOf o) = some x ∧ claimFree o x.claim) ∨
      (∃ m, s.conferences.slot (keyOf o) = some (.damaged m))) →
    ∃ t, exec (.retireConference o) s = .next t ∧ t.conferences.slot (keyOf o) = none ∧
      (∀ c, c ≠ keyOf o → t.conference c = s.conference c) ∧
      (∀ g, t.gallery g = (s.gallery g).map (fun x =>
        if x.follow = some (keyOf o) then { x with follow := none, mark := addReason 4 x.mark } else x)) ∧
      (∀ x, s.conference (keyOf o) = some x → x.deliveredRouting ≠ some ⟨[], []⟩ →
        (x.routing ≠ ⟨[], []⟩ ∨ s.deliveryCode .routing (keyOf o) ≠ some 0) →
        ∃ f ∈ t.finals, f = ⟨.routing, keyOf o, none, .routing ⟨[], []⟩, x.deliveredRouting.map .routing, f.base⟩) ∧
      t.stations = s.stations ∧ t.carriers = s.carriers ∧ t.windows = s.windows ∧ t.settings = s.settings ∧
      t.checkQueue = s.checkQueue ∧ t.engine = s.engine ∧ s.sameMachine t ∧
      t.storeStates = { s.storeStates with
        conference := true
        gallery := s.storeStates.gallery || s.galleries.records.any (fun p => p.2.follow = some (keyOf o)) } ∧
      t.saysDone o)

/-- ADD MEMBER makes an identity a Fixed member with the rights and priority given, in its place or at the end of the
list; a talker that loses Talk stops talking. An InEar only listens. -/
def Obligations.AddMember : Prop :=
  ∀ (o : Order) (s : State) (x : Conference) (id : Source), s.admits o .talkback → s.conference (keyOf o) = some x →
    claimFree o x.claim → o.params.length = 3 → identityOf (fieldNat o.params 0) = some id →
    1 ≤ fieldNat o.params 1 → fieldNat o.params 1 ≤ 3 → fieldNat o.params 2 ≤ 3 →
    (∀ k, id = .station k → ∃ z, s.station k = some z ∧ z.kind ≠ .camera ∧ z.kind ≠ .mic) →
    ((∃ m ∈ x.members, m.id = id) ∨ x.members.length < 16) →
    let inEar := s.kindOf id = some .inEar
    let talk : Bool := 2 ≤ fieldNat o.params 1 && !inEar
    ∃ t v m, exec (.addMember o) s = .next t ∧ t.conference (keyOf o) = some v ∧
      m = (⟨id, fieldNat o.params 1 % 2 = 1 || inEar, talk, fieldNat o.params 2, .fixed, [], s.absentNow id⟩ : Member) ∧
      ((∃ n ∈ x.members, n.id = id) → v.members = x.members.map (fun n => if n.id = id then m else n)) ∧
      ((∀ n ∈ x.members, n.id ≠ id) → v.members = x.members ++ [m]) ∧
      v.talkers = (if talk then x.talkers else x.talkers.filter (· != id)) ∧
      v = { x with members := v.members, talkers := v.talkers, routing := v.routed, routingBase := v.routingBase } ∧
      (∀ c, c ≠ keyOf o → t.conference c = s.conference c) ∧ t.stations = s.stations ∧ t.carriers = s.carriers ∧
      s.besideStations t ∧ t.storeStates = { s.storeStates with conference := true } ∧
      t.port = .pending ⟨if inEar ∧ 2 ≤ fieldNat o.params 1 then .doneAdjusted else .done,
        if inEar ∧ 2 ≤ fieldNat o.params 1 then 1 else 0, o.key, []⟩

/-- REMOVE MEMBER ends a Fixed membership: a beltpack that galleries hold becomes a Follow member in its place; another
member leaves, and the oldest waiting beltpack joins in its stead when it is still due. -/
def Obligations.RemoveMember : Prop :=
  ∀ (o : Order) (s : State) (x : Conference) (id : Source), s.admits o .talkback → s.conference (keyOf o) = some x →
    claimFree o x.claim → o.params.length = 1 → identityOf (fieldNat o.params 0) = some id →
    (∃ m ∈ x.members, m.id = id) → (∀ m ∈ x.members, m.id = id → m.join = .fixed) →
    ∃ t v, exec (.removeMember o) s = .next t ∧ t.conference (keyOf o) = some v ∧
      (∀ k, id = .station k → s.dueReasons none k (keyOf o) ≠ [] →
        v.talkers = x.talkers ∧ v.waiting = x.waiting ∧
        v.members = x.members.map (fun m => if m.id = id then
          { m with
            listen := true, talk := true, priority := 0, join := .follow, reasons := s.dueReasons none k (keyOf o) }
          else m)) ∧
      ((∀ k, id = .station k → s.dueReasons none k (keyOf o) = []) →
        v.talkers = x.talkers.filter (· != id) ∧
        (x.waiting = [] → v.waiting = [] ∧ v.members = x.members.filter (fun m => m.id != id)) ∧
        (∀ p rest, x.waiting = p :: rest → s.dueReasons none p (keyOf o) ≠ [] → v.waiting = rest ∧
          v.members = x.members.filter (fun m => m.id != id) ++
            [⟨.station p, true, true, 0, .follow, s.dueReasons none p (keyOf o), s.absentNow (.station p)⟩])) ∧
      v.routing = v.routed ∧ v.label = x.label ∧ v.claim = x.claim ∧
      (∀ c, c ≠ keyOf o → t.conference c = s.conference c) ∧ t.stations = s.stations ∧ t.carriers = s.carriers ∧
      s.besideStations t ∧ t.storeStates = { s.storeStates with conference := true } ∧ t.saysDone o

/-! ## Operators, rights and claims -/

/-- CLAIM takes a free claim for the order's operator, and an effective Steal takes another's, with Claim Lost and the
former holder as result word; without Steal the order is refused HELD with the holder. -/
def Obligations.ClaimOrder : Prop :=
  ∀ (table : TableId) (o : Order) (s : State) (claim : Option Nat), table.claimable = true → s.takes →
    o.params = [] → s.holdsRight o (changeRight table).1 →
    (table = .carrier → ∀ y, s.carrier (keyOf o) = some y → s.maskPermits o y.window) →
    (s.claimAt table (keyOf o) = none → exec (.claim table o) s = .next (s.answered o .key 1 [])) ∧
    (s.claimAt table (keyOf o) = some claim → claimFree o claim →
      exec (.claim table o) s = .next ((s.reclaimed table (keyOf o) (some o.operator.val) false).done o)) ∧
    (∀ h, s.claimAt table (keyOf o) = some (some h) → h ≠ o.operator.val →
      (s.steals o = true → exec (.claim table o) s =
        .next ((s.reclaimed table (keyOf o) (some o.operator.val) true).answered o .done 0 [wordOf h])) ∧
      (s.steals o = false → exec (.claim table o) s = .next (s.answered o .held 1 [wordOf h])))

/-- RELEASE gives up the caller's claim without a right and without a reason, and with an effective Force another's,
with Claim Lost, answered DONE as well; it is refused KEY, STATE 30 and NOT PERMITTED 9 as the rule says. That every one of
these answers echoes the order's key word is the model's reading (log 37). -/
def Obligations.ReleaseOrder : Prop :=
  ∀ (table : TableId) (o : Order) (s : State), table.claimable = true → s.takes → o.params = [] →
    (s.claimAt table (keyOf o) = none → exec (.release table o) s = .next (s.answered o .key 1 [])) ∧
    (s.claimAt table (keyOf o) = some none → exec (.release table o) s = .next (s.answered o .state 30 [])) ∧
    (s.claimAt table (keyOf o) = some (some o.operator.val) →
      exec (.release table o) s = .next ((s.reclaimed table (keyOf o) none false).done o)) ∧
    (∀ h, s.claimAt table (keyOf o) = some (some h) → h ≠ o.operator.val →
      (s.forced o = true → exec (.release table o) s = .next ((s.reclaimed table (keyOf o) none true).done o)) ∧
      (s.forced o = false → exec (.release table o) s = .next (s.answered o .notPermitted 9 [])))

/-- THAW PLAN gives up the caller's freeze, and with an effective Force another operator's, whose number is the result
word; it is refused MALFORMED, NOT PERMITTED and STATE as the rule says. That the answers to this order, which does not use
its key, echo its key word is the model's reading (log 37). -/
def Obligations.ThawPlan : Prop :=
  ∀ (o : Order) (s : State), s.takes → o.params.length ≤ 16 →
    (o.params ≠ [] → exec (.thawPlan o) s = .next (s.answered o .malformed 7 [])) ∧
    (o.params = [] →
      (¬ s.holdsRight o .plan → exec (.thawPlan o) s = .next (s.answered o .notPermitted 1 [])) ∧
      (s.holdsRight o .plan →
        (s.freezeHolder = none → exec (.thawPlan o) s = .next (s.answered o .state 2 [])) ∧
        (s.freezeHolder = some o.operator.val →
          exec (.thawPlan o) s = .next ({ s with freezeHolder := none }.done o)) ∧
        (∀ h, s.freezeHolder = some h → h ≠ o.operator.val →
          (s.forced o = true →
            exec (.thawPlan o) s = .next ({ s with freezeHolder := none }.answered o .done 0 [wordOf h])) ∧
          (s.forced o = false → exec (.thawPlan o) s = .next (s.answered o .notPermitted 9 [])))))

/-- RELEASE ALL gives up every claim of the operator named and answers their number, with Claim Lost when another
operator orders it with Force. FREEZE PLAN takes a free freeze, and never another's. EDIT OPERATOR sets rights and mask of
operators 1 to 7 alone, and that an EDIT without a change leaves the store state is the model's reading (log 29); operators
are neither defined nor retired. -/
def Obligations.OperatorOrders : Prop :=
  (∀ (o : Order) (s : State), s.takes → o.params = [] → s.tablesInOrder → keyOf o ≤ 7 →
    ((keyOf o = o.operator.val ∨ s.forced o = true) →
      let lost : Bool := keyOf o ≠ o.operator.val
      ∃ t, exec (.releaseAll o) s = .next t ∧
        t = { s with
          windows := t.windows
          carriers := t.carriers
          stations := t.stations
          galleries := t.galleries
          conferences := t.conferences }.answered o .done 0 [wordOf (s.claimsHeld (keyOf o))] ∧
        (∀ k, t.window k = (s.window k).map (fun x =>
          if x.claim = some (keyOf o) then { x with claim := none, mark := lostMark lost 5 x.mark } else x)) ∧
        (∀ k, t.carrier k = (s.carrier k).map (fun x =>
          if x.claim = some (keyOf o) then { x with claim := none, mark := lostMark lost 14 x.mark } else x)) ∧
        (∀ k, t.station k = (s.station k).map (fun x =>
          if x.claim = some (keyOf o) then { x with claim := none, mark := lostMark lost 24 x.mark } else x)) ∧
        (∀ k, t.gallery k = (s.gallery k).map (fun x =>
          if x.claim = some (keyOf o) then { x with claim := none, mark := lostMark lost 5 x.mark } else x)) ∧
        (∀ k, t.conference k = (s.conference k).map (fun x =>
          if x.claim = some (keyOf o) then { x with claim := none, mark := lostMark lost 8 x.mark } else x))) ∧
    (keyOf o ≠ o.operator.val → s.forced o = false →
      exec (.releaseAll o) s = .next (s.answered o .notPermitted 9 []))) ∧
  (∀ (o : Order) (s : State), s.takes → o.params = [] → s.holdsRight o .plan →
    (claimFree o s.freezeHolder →
      exec (.freezePlan o) s = .next ({ s with freezeHolder := some o.operator.val }.done o)) ∧
    (∀ h, s.freezeHolder = some h → h ≠ o.operator.val →
      exec (.freezePlan o) s = .next (s.answered o .held 2 [wordOf h]))) ∧
  (∀ (o : Order) (s : State), s.admits o .rights → keyOf o ≤ 7 →
    let words := applyPairs (fieldIndex 2) (s.operatorAt (keyOf o)).words (pairsOf o.params)
    let new : Operator := ⟨BitVec.ofNat 8 (fieldNat words 0), words.getD 1 0#16⟩
    (evenCount 2 16 o.params = true → badField (fieldIndex 2) (pairsOf o.params) = false → fieldNat words 0 ≤ 255 →
      (keyOf o = 0 → exec (.editOperator o) s = .next (s.answered o .state 1 [])) ∧
      (keyOf o ≠ 0 → new ≠ s.operatorAt (keyOf o) → exec (.editOperator o) s = .next ({ s with
        operators := s.operators.set (keyOf o) new
        storeStates := { s.storeStates with operator := true } }.done o)) ∧
      (keyOf o ≠ 0 → new = s.operatorAt (keyOf o) → exec (.editOperator o) s = .next (s.done o))) ∧
    (evenCount 0 16 o.params = true → exec (.defineOperator o) s = .next (s.answered o .key 2 [])) ∧
    (o.params = [] → exec (.retireOperator o) s = .next (s.answered o .state 2 [])))

/-! ## The Studio Line -/

/-- A transaction begins when none is on the line: the next poll or the Discover of the round on a poll turn, the ready
entry nearest the head, which becomes Sent, on a directive turn. The sequence number rises by one. A turn while a
transaction is on the line changes nothing: there is one at a time, and that such a command is ignored is the model's
choice (log 3). The send attempts of the entry rise by one; that they stay at 3 when an entry whose third end a check failure
kept from being taken goes out again is the model's choice (log 42). The line runs in Fault Handling too, with the one damaged
record under quarantine: that it reads none of it, so that a Poll of that unit goes out and an entry of that unit or target is
sent as it stands in the queue, is the model's reading (log 5). -/
def Obligations.TransactionsBegin : Prop :=
  ∀ s : State, s.soundBeside →
    (s.line ≠ none → exec .poll s = .next s ∧ exec .discover s = .next s ∧ exec .directiveTurn s = .next s) ∧
    ((s.service = .inService ∨ s.service = .faultHandling) → s.load = .none → s.line = none →
      let seq := (s.sequence + 1) % 256
      (∀ a rest, (s.turn = .poll ∨ ∀ e ∈ s.queue, readyIn s.queue e = false) →
        (s.round = .poll a :: rest ∨ (s.round = [] ∧ s.newRound = .poll a :: rest)) →
        exec .poll s = .next { s with
          round := rest, turn := .directive, sequence := seq, line := some ⟨.poll a, seq⟩ }) ∧
      (∀ a rest, (s.turn = .poll ∨ ∀ e ∈ s.queue, readyIn s.queue e = false) →
        (s.round = .discover a :: rest ∨ (s.round = [] ∧ s.newRound = .discover a :: rest)) →
        exec .discover s = .next { s with
          round := rest, turn := .directive, lastDiscover := a, sequence := seq, line := some ⟨.discover a, seq⟩ }) ∧
      (∀ e before after, s.turn = .directive → s.queue = before ++ e :: after → readyIn s.queue e = true →
        (∀ x ∈ before, readyIn s.queue x = false) →
        exec .directiveTurn s = .next { s with
          turn := .poll
          queue := s.queue.map (fun x =>
            if x.has e.unit e.kind e.target then { x with sent := true, attempts := min 3 (x.attempts + 1) } else x)
          sequence := seq
          line := some ⟨.directive e.unit e.kind e.target e.content, seq⟩ }))

/-- The ends of a Poll: an answer of the unit's kind sets its missed polls to 0; an answer of another kind, and none,
count a missed poll, the third of which loses the unit; a kind byte above 3 is of another kind (the model's reading, log
13); a body with an unknown code earns Bad Item. A missed Discover changes nothing, and the third missed acknowledgement of an entry loses the unit. -/
def Obligations.PollOutcomes : Prop :=
  (∀ (a seq : Nat) (kind : UnitKind) (s : State) (u : LineUnit), s.onLine (.poll a) seq u → s.galleries.wf = true →
    (u.state = .present → u.kind = some kind →
      exec (.pollAnswered (unitFrame (.poll a) seq kind [])) s = .next (s.unitNoted a { u with missed := 0 }) ∧
      (∀ w body, body.length ≤ 103 → (w.toNat = 0 ∨ 5 < w.toNat) →
        exec (.pollAnswered (unitFrame (.poll a) seq kind (w :: body))) s =
          .next (s.unitNoted a { u with missed := 0, mark := addReason 5 u.mark }))) ∧
    (∀ body, u.state = .present → u.kind ≠ some kind → body.length ≤ 104 → u.missed < 2 →
      exec (.pollAnswered (unitFrame (.poll a) seq kind body)) s =
        .next (s.unitNoted a { u with missed := u.missed + 1, mark := addReason 5 u.mark })) ∧
    (∀ (b : Byte) body, u.state = .present → u.kind ≠ none → 3 < b.toNat → body.length ≤ 104 → u.missed < 2 →
      exec (.pollAnswered (unitFrameOf (.poll a) seq b body)) s =
        .next (s.unitNoted a { u with missed := u.missed + 1, mark := addReason 5 u.mark })) ∧
    (u.state = .present → u.missed < 2 →
      exec .pollMissed s = .next (s.unitNoted a { u with missed := u.missed + 1 })) ∧
    (u.state = .present → 2 ≤ u.missed → ∃ t, exec .pollMissed s = .next t ∧ s.losesUnit t a u) ∧
    (u.state = .lost → exec .pollMissed s = .next { s with line := none })) ∧
  (∀ (a seq : Nat) (s : State) (u : LineUnit), s.onLine (.discover a) seq u →
    exec .discoverMissed s = .next { s with line := none }) ∧
  (∀ (a seq target : Nat) (kind : DeliveryKind) (c : Content) (s : State) (u : LineUnit),
    s.onLine (.directive a kind target c) seq u → s.galleries.wf = true →
    ((∀ e ∈ s.queue, e.has a kind target = true → e.sent = false ∨ e.attempts < 3) →
      exec .acknowledgementMissed s = .next { s with line := none }) ∧
    ((∃ e ∈ s.queue, e.has a kind target = true) →
      (∀ e ∈ s.queue, e.has a kind target = true → e.sent = true ∧ 3 ≤ e.attempts) →
      ∃ t, exec .acknowledgementMissed s = .next t ∧ s.losesUnit t a u))

/-- A CLEAN item of an RX unit records the carrier's clean score, and begins, keeps or stops the recovery run of the
station whose Blocked standby the carrier is. -/
def Obligations.CleanItem : Prop :=
  ∀ (a seq c score : Nat) (s : State) (u : LineUnit) (y : Carrier), s.onLine (.poll a) seq u → u.state = .present →
    u.kind = some .rx → c ≤ 128 → s.carrier c = some y → score ≤ 100 →
    let answer := Instr.pollAnswered (unitFrame (.poll a) seq .rx [2#16, wordOf c, wordOf score])
    let noted := s.unitNoted a { u with missed := 0 }
    ((y.state ≠ .blocked ∨ ∀ k, y.bound ≠ some (k, .standby)) →
      exec answer s = .next { noted with
        carriers := s.carriers.put c { y with cleanScore := some score, cleanAge := some 0 } }) ∧
    (∀ k x, y.state = .blocked → y.bound = some (k, .standby) → s.station k = some x →
      exec answer s = .next { noted with
        carriers := s.carriers.put c { y with cleanScore := some score, cleanAge := some 0 }
        stations := s.stations.put k { x with
          recoveryRun := if s.settings.fallbackFloor + s.settings.returnMargin < score then some (x.recoveryRun.getD 0)
            else none } })

/-- A QUALITY item of a station's primary records the quality and starts the watch again outside Tuning. Up falls to Weak
below the Fallback Floor and Weak returns to Up at the return level; a clean standby that is better by the margin is
switched to, and where one condition of that fails there is no switch; a Lost link returns. -/
def Obligations.QualityItem : Prop :=
  ∀ (a seq k c q : Nat) (s : State) (u : LineUnit) (x : Station), s.onLine (.poll a) seq u → u.state = .present →
    u.kind = some .rx → k ≤ 96 → c ≤ 128 → s.station k = some x → s.carrier c ≠ none → q ≤ 100 →
    let answer := Instr.pollAnswered (unitFrame (.poll a) seq .rx [1#16, wordOf k, wordOf c, wordOf q])
    let noted := s.unitNoted a { u with missed := 0 }
    let heard : Station := { x with quality := some q, qualityAge := some 0, watch := .running 0 }
    let back : Bool := s.settings.fallbackFloor + s.settings.returnMargin ≤ q
    let y : Station := { heard with inhibit := x.inhibit && !back }
    let fallsBack : Prop := y.inhibit = false ∧ q < s.settings.fallbackFloor ∧
      ∃ c2 z score age, x.standby = some c2 ∧ s.carrier c2 = some z ∧ z.state = .standby ∧ z.cleanScore = some score ∧
        z.cleanAge = some age ∧ age ≤ s.settings.linkWatch ∧ q + s.settings.fallbackMargin < score
    (x.link = .parked ∨ x.primary ≠ some c → exec answer s = .next noted) ∧
    (x.primary = some c →
      (x.link = .tuning →
        exec answer s = .next { noted with stations := s.stations.put k { heard with watch := x.watch } }) ∧
      (x.link = .switching → exec answer s = .next { noted with stations := s.stations.put k heard }) ∧
      (∀ c2 z score age, (x.link = .up ∨ x.link = .weak) → y.inhibit = false → q < s.settings.fallbackFloor →
        x.standby = some c2 → s.carrier c2 = some z → z.state = .standby → z.cleanScore = some score →
        z.cleanAge = some age → age ≤ s.settings.linkWatch → q + s.settings.fallbackMargin < score →
        ∃ t v, exec answer s = .next t ∧ t.station k = some v ∧
          v.core = { y with
            switchKind := some .automatic
            blockOutgoing := some false
            token := nextToken x.token
            attempts := 1
            tuneTimer := some 0
            wanted := ⟨some z.frequency, z.cls, x.power, false, nextToken x.token⟩
            link := .switching : Station }.core ∧ noted.aroundStation t k) ∧
      (x.link = .up → ¬ fallsBack →
        (s.settings.fallbackFloor ≤ q →
          exec answer s = .next { noted with stations := s.stations.put k y }) ∧
        (q < s.settings.fallbackFloor →
          ∃ t v, exec answer s = .next t ∧ t.station k = some v ∧ v.core = { y with link := .weak : Station }.core ∧
            4 ∈ v.mark ∧ noted.aroundStation t k)) ∧
      (x.link = .weak → ¬ fallsBack →
        (back = false → exec answer s = .next { noted with stations := s.stations.put k y }) ∧
        (back = true →
          ∃ t v, exec answer s = .next t ∧ t.station k = some v ∧ v.core = { y with link := .up : Station }.core ∧
            5 ∈ v.mark ∧ noted.aroundStation t k)) ∧
      (x.link = .lost →
        ∃ t v, exec answer s = .next t ∧ t.station k = some v ∧
          v.core = { y with link := if s.settings.fallbackFloor ≤ q then .up else .weak : Station }.core ∧
          (if s.settings.fallbackFloor ≤ q then 5 else 4) ∈ v.mark ∧ noted.aroundStation t k))

/-- A TUNED item with the station's token from its control unit ends a tune or a switch: Done brings the link up, and
after a switch the carriers have exchanged slots; Failed parks, or fails the switch. Another changes nothing. -/
def Obligations.TunedItem : Prop :=
  ∀ (a seq k token : Nat) (done : Bool) (s : State) (u : LineUnit) (x : Station), s.onLine (.poll a) seq u →
    u.state = .present → u.kind = some .txc → k ≤ 96 → token ≤ 255 → s.station k = some x →
    let answer := Instr.pollAnswered (unitFrame (.poll a) seq .txc
      [3#16, wordOf k, wordOf token, if done then 0#16 else 1#16])
    let noted := s.unitNoted a { u with missed := 0 }
    (x.controlUnit ≠ some a ∨ x.token ≠ token ∨ (x.link ≠ .tuning ∧ x.link ≠ .switching) →
      exec answer s = .next noted) ∧
    (x.controlUnit = some a → x.token = token → x.link = .tuning →
      ∃ t v, exec answer s = .next t ∧ t.station k = some v ∧ noted.aroundStation t k ∧
        (done = true → 2 ∈ v.mark ∧
          v.core = { x with attempts := 0, tuneTimer := none, watch := .running 0, link := .up : Station }.core) ∧
        (done = false → 3 ∈ v.mark ∧ v.core = x.parked.core)) ∧
    (∀ p c y z, x.controlUnit = some a → x.token = token → x.link = .switching → x.primary = some p →
      x.standby = some c → p ≠ c → s.carrier p = some y → s.carrier c = some z →
      ∃ t v, exec answer s = .next t ∧ t.station k = some v ∧
        (done = true →
          let automatic : Bool := x.switchKind = some .automatic
          let blocked : Bool := x.blockOutgoing = some true
          7 ∈ v.mark ∧ (automatic = true → 8 ∈ v.mark) ∧
          v.core = { x with
            primary := some c
            standby := some p
            switchKind := none
            blockOutgoing := none
            attempts := 0
            tuneTimer := none
            quality := none
            qualityAge := none
            watch := .running 0
            recoveryRun := if (automatic || blocked) && s.heardClean p then some 0 else none
            link := .up : Station }.core ∧
          t.carrier c = some { z with
            state := .assigned, bound := some (k, .primary), alternate := none, mark := addReason 7 z.mark } ∧
          t.carrier p = some { y with
            state := if automatic || blocked then .blocked else .standby
            bound := some (k, .standby)
            alternate := if automatic then some c else none
            mark := addReason (if automatic then 6 else if blocked then 8 else 7) y.mark } ∧
          (∀ j, j ≠ c → j ≠ p → t.carrier j = s.carrier j) ∧ noted.othersKeep t k ∧ noted.besideStations t ∧
          t.storeStates = s.storeStates ∧ t.port = s.port) ∧
        (done = false → 9 ∈ v.mark ∧ noted.aroundStation t k ∧
          v.core = { x with
            token := nextToken x.token
            attempts := 0
            tuneTimer := none
            wanted := ⟨some y.frequency, y.cls, x.power, false, nextToken x.token⟩
            switchKind := none
            blockOutgoing := none
            inhibit := true
            link := if x.watch = .runOut then .lost else .weak : Station }.core))

/-- A TALLY item of a gallery's tally unit replaces the live flag and the sets, with Tally Reported when they change, and
the tally of every station that the old or the new sets reach is derived afresh. Lamps that were as R87 gives are so again;
and where one Camera is reached, its Beltpack joins, waits for, is denied or leaves the follow conference when the Camera has
become or ceased to be a contributor. -/
def Obligations.TallyItem : Prop :=
  ∀ (a seq g : Nat) (live : Bool) (program preview : List Word) (s : State) (u : LineUnit) (x : Gallery),
    s.onLine (.poll a) seq u → u.state = .present → u.kind = some .tgi → 1 ≤ g → g ≤ 8 → s.gallery g = some x →
    x.tallyUnit = some a → program.length ≤ 4 → preview.length ≤ 4 →
    (∀ w ∈ program ++ preview, 1 ≤ w.toNat ∧ w.toNat ≤ 32) →
    let answer := Instr.pollAnswered (unitFrame (.poll a) seq .tgi
      ([4#16, wordOf g, wordOfBool live, wordOf program.length, wordOf preview.length] ++ program ++ preview))
    let noted := s.unitNoted a { u with missed := 0 }
    let new : Gallery := { x with
      live := live, program := sortNat (program.map BitVec.toNat), preview := sortNat (preview.map BitVec.toNat) }
    (new = x → exec answer s = .next noted) ∧
    (new ≠ x →
      ∃ t, exec answer s = .next t ∧ t.galleries = s.galleries.put g { new with mark := addReason 1 x.mark } ∧
        (∀ j, j ∈ x.reached ∨ j ∈ new.reached → t.tallyDerived j) ∧
        (∀ j, (t.station j).map Station.tallyless = (s.station j).map Station.tallyless) ∧
        (∀ j, j ∉ x.reached → j ∉ new.reached → (t.station j).map Station.core = (s.station j).map Station.core) ∧
        (s.pairsMutual → s.lampsMatch → t.lampsMatch) ∧
        (∀ k p c y, (∀ j, j ∈ x.reached ∨ j ∈ new.reached → j = k) → (k ∈ x.reached ↔ k ∉ new.reached) → s.paired k p →
          s.station k = some y → s.tallyDerived k → x.follow = some c → 1 ≤ c → c ≤ 24 →
          t.dueAre p k c ∧ s.recomputes t p c ∧ ∀ d, d ≠ c → t.conference d = s.conference d) ∧
        t.carriers = s.carriers ∧ noted.besideGalleries t ∧ t.storeStates = s.storeStates ∧ t.port = s.port)

/-- The KEY items of the TKM unit: a Talk key takes and gives up a talk slot, pre-empts the earliest talker of lowest
priority, or is refused Busy; a Cue key pushes, is declined or busy, and releases; a Call key starts a call; an Answer key
ends it. -/
def Obligations.KeyItems : Prop :=
  ∀ (a seq : Nat) (s : State) (u : LineUnit) (kind : UnitKind), s.onLine (.poll a) seq u → u.state = .present →
    u.kind = some kind → s.settings.matrixUnit = some a →
    let key := fun (source kindWord target level action : Nat) => Instr.pollAnswered
      (unitFrame (.poll a) seq kind [5#16, wordOf source, wordOf kindWord, wordOf target, wordOf level, wordOf action])
    let noted := s.unitNoted a { u with missed := 0 }
    (∀ n c id x m, s.keySource n = some id → c ≤ 24 → s.conference c = some x →
      x.members.find? (fun m => m.id = id) = some m →
      (m.talk = false ∨ m.absent = true ∨ id ∈ x.talkers → exec (key n 0 c 0 1) s = .next noted) ∧
      (m.talk = true → m.absent = false → id ∉ x.talkers →
        (x.talkers.length < 4 →
          ∃ t v, exec (key n 0 c 0 1) s = .next t ∧ t.conference c = some v ∧ v.talkers = x.talkers ++ [id] ∧
            v = { x with talkers := v.talkers, routing := v.routed, routingBase := v.routingBase } ∧
            (∀ j, j ≠ c → t.conference j = s.conference j) ∧ t.stations = s.stations ∧ t.carriers = s.carriers ∧
            noted.besideStations t ∧ t.storeStates = s.storeStates ∧ t.port = s.port) ∧
        (4 ≤ x.talkers.length → x.lowestTalker < m.priority →
          ∀ before oldest after, x.talkers = before ++ oldest :: after → x.priorityOf oldest = x.lowestTalker →
          (∀ b ∈ before, x.priorityOf b ≠ x.lowestTalker) → oldest ∉ before →
          ∃ t v, exec (key n 0 c 0 1) s = .next t ∧ t.conference c = some v ∧
            v.talkers = before ++ after ++ [id] ∧ v = { x with
              talkers := v.talkers, routing := v.routed, routingBase := v.routingBase, mark := addReason 1 x.mark } ∧
            (∀ j, j ≠ c → t.conference j = s.conference j) ∧ t.stations = s.stations ∧ t.carriers = s.carriers ∧
            noted.besideStations t ∧ t.storeStates = s.storeStates ∧ t.port = s.port) ∧
        (4 ≤ x.talkers.length → m.priority ≤ x.lowestTalker →
          exec (key n 0 c 0 1) s = .next { noted with
            conferences := s.conferences.put c { x with mark := addReason 2 x.mark } })) ∧
      (id ∈ x.talkers →
        ∃ t v, exec (key n 0 c 0 0) s = .next t ∧ t.conference c = some v ∧ v.talkers = x.talkers.erase id ∧
          v = { x with talkers := v.talkers, routing := v.routed, routingBase := v.routingBase } ∧
          (∀ j, j ≠ c → t.conference j = s.conference j) ∧ t.stations = s.stations ∧ t.carriers = s.carriers ∧
          noted.besideStations t ∧ t.storeStates = s.storeStates ∧ t.port = s.port)) ∧
    (∀ port k x, 1 ≤ port → port ≤ 48 → 1 ≤ k → k ≤ 96 → s.station k = some x →
      let source := Source.port port
      (x.kind.hasCue = true →
        (x.link = .up ∨ x.link = .weak → x.stack = [] → x.accept = true →
          ∃ t v, exec (key (256 + port) 1 k 0 1) s = .next t ∧ t.station k = some v ∧ v.core = x.core ∧
            v.stack = [⟨source, .floor, true, s.settings.cueLimit * 1000⟩] ∧ v.accept = false ∧
            v.cueRoute = some source ∧ noted.aroundStation t k) ∧
        (x.link = .parked ∨ (x.stack = [] ∧ x.accept = false) →
          exec (key (256 + port) 1 k 0 1) s =
            .next { noted with stations := s.stations.put k { x with mark := addReason 20 x.mark } }) ∧
        (∀ e, x.link = .up ∨ x.link = .weak → x.stack = [e] → e.source ≠ source →
          exec (key (256 + port) 1 k 0 1) s =
            .next { noted with stations := s.stations.put k { x with mark := addReason 19 x.mark } }) ∧
        (x.stack.length ≤ 2 → (∃ e ∈ x.stack, e.source = source) →
          ∃ t v, exec (key (256 + port) 1 k 0 0) s = .next t ∧ t.station k = some v ∧ v.core = x.core ∧
            x.afterRelease source v ∧ noted.aroundStation t k)) ∧
      (x.kind.hasLamp = true →
        ∃ t v, exec (key (256 + port) 2 k 0 1) s = .next t ∧ t.station k = some v ∧ 15 ∈ v.mark ∧
          v.core = { x with
            call := some x.callMode
            callRemaining := match x.callMode with | .single => some 2000 | .latched => none : Station }.core ∧
          noted.aroundStation t k) ∧
      (x.kind = .beltpack → x.call ≠ none → x.pair = none →
        ∃ t v, exec (key k 3 0 0 1) s = .next t ∧ t.station k = some v ∧ 17 ∈ v.mark ∧
          v.core = { x with call := none, callRemaining := none : Station }.core ∧ noted.aroundStation t k))

/-- A Discover that an Absent unit answers finds it, with reason Found, and a Poll that a Lost unit answers brings it back,
with reason Returned, and Kind Changed when its kind is another; either is delivered to afresh. -/
def Obligations.UnitsFoundAndReturned : Prop :=
  ∀ (a seq : Nat) (kind : UnitKind) (s : State) (u : LineUnit),
    (∀ body, s.onLine (.discover a) seq u → u.state = .absent → body.length ≤ 104 →
      ∃ t, exec (.discoverAnswered (unitFrame (.discover a) seq kind body)) s = .next t ∧
        s.findsUnit t a { kind := some kind, state := .present, missed := 0, mark := addReason 1 u.mark }) ∧
    (s.onLine (.poll a) seq u → u.state = .lost →
      ∃ t, exec (.pollAnswered (unitFrame (.poll a) seq kind [])) s = .next t ∧
        s.findsUnit t a {
          kind := some kind
          state := .present
          missed := 0
          mark := if u.kind = some kind then addReason 3 u.mark else addReason 4 (addReason 3 u.mark) })

/-- The acknowledgement of a Sent entry removes it and makes what it carried the delivered state, which is Current; a
detached entry is removed and delivers nothing; an entry that has been replaced stays Queued, and what was acknowledged is
the delivered state. Any frame that matches the transaction is its acknowledgement, whatever its body (log 13). -/
def Obligations.DirectiveAcknowledged : Prop :=
  ∀ (a seq target : Nat) (dk : DeliveryKind) (c : Content) (kind : UnitKind) (body : List Word) (s : State) (u : LineUnit)
    (e : Entry) (before after : List Entry),
    s.onLine (.directive a dk target c) seq u → c.ofKind dk = true → body.length ≤ 104 → s.queue = before ++ e :: after →
    e.has a dk target = true → (∀ x ∈ before ++ after, x.has a dk target = false) →
    let answer := Instr.acknowledgement (unitFrame (.directive a dk target c) seq kind body)
    (∀ d, s.owned dk target = true → s.delivery dk target = some d → d.destination = some a → e.detached = false →
      (e.sent = true →
        ∃ t, exec answer s = .next t ∧ t.delivery dk target = some { d with delivered := some c, base := .current } ∧
          t.deliveryCode dk target = some 0 ∧ (∀ x ∈ before ++ after, x ∈ t.queue) ∧ t.line = none ∧
          t.units = s.units ∧ t.carriers = s.carriers ∧ t.galleries = s.galleries ∧ t.settings = s.settings ∧
          (∀ j, (t.station j).map Station.core = (s.station j).map Station.core) ∧ s.finalsStand t ∧ t.port = s.port) ∧
      (e.sent = false →
        ∃ t, exec answer s = .next t ∧ t.delivery dk target = some { d with delivered := some c } ∧
          t.queue = s.queue ∧ t.line = none ∧ t.units = s.units ∧ t.carriers = s.carriers ∧
          t.galleries = s.galleries ∧ t.settings = s.settings ∧
          (∀ j, (t.station j).map Station.core = (s.station j).map Station.core) ∧ t.finals = s.finals ∧
          t.port = s.port)) ∧
    (e.detached = true →
      ∃ t, exec answer s = .next t ∧ e ∉ t.queue ∧ (∀ x ∈ before ++ after, x ∈ t.queue) ∧
        (∀ x ∈ t.queue, x.has a dk target = true → x.sent = false ∧ x.detached = false) ∧
        (∀ j v, t.station j = some v → ∃ x, s.station j = some x ∧ v.core = x.core ∧ v.delivered = x.delivered ∧
          v.deliveredLamp = x.deliveredLamp ∧ v.deliveredRoute = x.deliveredRoute) ∧
        (∀ j, (t.conference j).map Conference.deliveredRouting = (s.conference j).map Conference.deliveredRouting) ∧
        s.finalsStand t ∧ t.line = none ∧ t.units = s.units ∧ t.carriers = s.carriers ∧ t.galleries = s.galleries ∧
        t.settings = s.settings ∧ t.port = s.port)

/-- SET MATRIX UNIT names a TKM unit: with another than before, every talker list empties and every routing is
undelivered. FORGET UNIT makes a Lost unit Absent. LINE RESET makes every unit Absent, and empties the queue, the line and
the tally sets. -/
def Obligations.UnitOrders : Prop :=
  (∀ (o : Order) (s : State), s.takes → s.holdsRight o .plan → s.saving = false → o.params.length = 1 →
    optionIn 1 32 (o.params.getD 0 0#16) = true →
    let u := fieldOption o.params 0
    (u = s.settings.matrixUnit → exec (.setMatrixUnit o) s = .next (s.done o)) ∧
    (u ≠ s.settings.matrixUnit →
      ∃ t, exec (.setMatrixUnit o) s = .next t ∧ t.settings = { s.settings with matrixUnit := u } ∧
        t.storeStates = { s.storeStates with part := true } ∧
        (∀ c x, 1 ≤ c → c ≤ 24 → t.conference c = some x → x.talkers = [] ∧ x.deliveredRouting = none) ∧
        (∀ j, (t.station j).map Station.core = (s.station j).map Station.core) ∧
        (∀ j v, t.station j = some v → v.deliveredRoute = none) ∧ t.windows = s.windows ∧ t.carriers = s.carriers ∧
        t.galleries = s.galleries ∧ t.units = s.units ∧ t.line = s.line ∧ t.service = s.service ∧ t.clock = s.clock ∧
        t.saysDone o)) ∧
  (∀ (o : Order) (s : State) (u : LineUnit), s.takes → s.holdsRight o .plan → o.params = [] → 1 ≤ keyOf o →
    keyOf o ≤ 32 → s.unitAt (keyOf o) = some u →
    (u.state ≠ .lost → exec (.forgetUnit o) s = .next (s.answered o .state 1 [])) ∧
    (u.state = .lost →
      ∃ t, exec (.forgetUnit o) s = .next t ∧
        t.units = s.units.set (keyOf o - 1) { u with kind := none, state := .absent, missed := 0 } ∧
        t.finals = s.finals.filter (fun f => s.finalDestination f != some (keyOf o)) ∧
        (∀ k d, 1 ≤ k → k ≤ 96 → t.delivery .tune k = some d → d.destination = some (keyOf o) → d.base ≠ .stale) ∧
        (∀ j, (t.station j).map Station.core = (s.station j).map Station.core) ∧ t.queue = s.queue ∧
        t.carriers = s.carriers ∧ t.galleries = s.galleries ∧ t.windows = s.windows ∧ t.settings = s.settings ∧
        t.line = s.line ∧ t.storeStates = s.storeStates ∧ t.saysDone o)) ∧
  (∀ (o : Order) (s : State), s.takes → s.holdsRight o .plan → o.params = [] → s.galleries.wf = true →
    ∃ t, exec (.lineReset o) s = .next t ∧ t.units = List.replicate 32 ⟨none, .absent, 0, []⟩ ∧ t.queue = [] ∧
      t.line = none ∧ t.round = [] ∧ t.turn = .poll ∧ t.sequence = s.sequence ∧
      (∀ c x, 1 ≤ c → c ≤ 24 → t.conference c = some x → x.talkers = []) ∧
      (∀ g x, s.gallery g = some x → t.gallery g = some (
        if x.live = true ∨ x.program ≠ [] ∨ x.preview ≠ [] then
          { x with live := false, program := [], preview := [], mark := addReason 2 x.mark }
        else x)) ∧
      (∀ j, (t.station j).map Station.tallyless = (s.station j).map Station.tallyless) ∧ t.carriers = s.carriers ∧
      t.windows = s.windows ∧ t.settings = s.settings ∧ t.service = s.service ∧ t.storeStates = s.storeStates ∧
      t.saysDone o)

/-! ## Start-up, the Plan Store and faults -/

/-- POWER ON and RESET give the values of a start-up; RESET keeps the Fault Snapshot (the start code before the load is the
model's choice, log 6). The memory test passed begins the load, and failed halts the part. RESTART begins a load without a
test, with the Show Clock and the snapshot kept; in Halted, whatever records are damaged: that Force and the stations' links are
tested there on damaged records as they stand is the model's choice (log 41). -/
def Obligations.StartUps : Prop :=
  (∀ (c : Instr) (s : State), c = .powerOn ∨ c = .reset →
    ∃ t, exec c s = .next t ∧ t.service = .starting ∧ t.load = .memoryTest ∧ t.readyHigh = false ∧
      t.snapshot = (if c = .reset then s.snapshot else none) ∧ t.badCodes = [] ∧
      t.clock = (⟨true, 2000, 1, 1, 0, 0⟩ : Clock) ∧ t.latched = (⟨false, false, false, true⟩ : Latched) ∧
      t.mask = 0x0F3F#16 ∧ t.settings = (⟨4, 2, false, 500, 40, 15, 10, 10, 30, [], none⟩ : Settings) ∧
      t.windows.slots = [] ∧ t.carriers.slots = [] ∧ t.stations.slots = [] ∧ t.galleries.slots = [] ∧
      t.conferences.slots = [] ∧ t.operators = ⟨0xFF#8, 0xFFFF#16⟩ :: List.replicate 7 ⟨0#8, 0#16⟩ ∧
      t.freezeHolder = none ∧ t.units = List.replicate 32 ⟨none, .absent, 0, []⟩ ∧ t.checkQueue = [] ∧
      t.engine = none ∧ t.queue = [] ∧ t.finals = [] ∧ t.line = none ∧ t.port = .idle ∧ t.saving = false ∧
      (s.saving = false → t.store = s.store) ∧ (s.saving = true → s.store.wf = true → t.store.read 0 = 0#16) ∧
      t.pending = s.pending) ∧
  (∀ s : State, s.load = .memoryTest →
    exec (.memoryTest true) s = .next { s with load := .loading } ∧
    exec (.memoryTest false) s = .next { s with load := .none, service := .halted, startCode := 6 }) ∧
  (∀ (o : Order) (s : State), s.port = .idle → ((s.service = .inService ∧ s.badCodes = []) ∨ s.service = .halted) →
    s.forced o = true → (o.params = [1#16] ∨ (o.params = [0#16] ∧ ∀ p ∈ s.stations.records, p.2.link = .parked)) →
    ∃ t, exec (.restart o) s = .next t ∧ t.service = .starting ∧ t.load = .loading ∧ t.badCodes = [] ∧ t.clock = s.clock ∧
      t.snapshot = s.snapshot ∧ t.latched = (⟨false, false, false, s.clock.unset⟩ : Latched) ∧ t.mask = 0x0F3F#16 ∧
      t.windows.slots = [] ∧ t.carriers.slots = [] ∧ t.stations.slots = [] ∧ t.galleries.slots = [] ∧
      t.conferences.slots = [] ∧ t.units = List.replicate 32 ⟨none, .absent, 0, []⟩ ∧ t.queue = [] ∧ t.line = none ∧
      t.saving = false ∧ (s.saving = false → t.store = s.store) ∧ t.pending = s.pending ∧ t.saysDone o)

/-- The end of a load in Starting brings the part into service with the store's start code, which sets the store states,
the outcome and the Store flag; a load that fails leaves the plan empty, and one that succeeds leaves what the image gave,
with the owners' work done. Every station is then Parked and muted. An image of fitting records that closes with its
checksum places them in order. RELOAD PLAN waits for the line, empties the plan, and is answered DONE at the end of its
load; a station's tune delivery whose station is not loaded again goes on as a final delivery (that it loads in these
phases is the model's choice, log 20; that a load which waited for the line reads the Part record and the stations as it begins
is the model's reading, log 5). -/
def Obligations.LoadsAndReloads : Prop :=
  (∀ (limit : Option Nat) (s : State), s.load = .loading → s.service = .starting → s.badCodes = [] →
    let code := (s.emptyPlan.readImage limit).code
    ∃ t, exec (.load limit) s = .next t ∧ t.service = .inService ∧ t.load = .none ∧ t.readyHigh = true ∧
      t.startCode = code ∧ t.storeStates = (if code = 0 then StoreStates.stored else StoreStates.changed) ∧
      t.storeOutcome = (if code = 0 then 1 else 2) ∧ t.latched = { s.latched with store := true } ∧
      (limit = some 0 → code = 1) ∧
      (limit = none → (s.store.read 0 ≠ 0x7A31#16 ∨ s.store.read 1 ≠ 0x0C96#16) → code = 2) ∧
      (code ≠ 0 → t.windows.slots = [] ∧ t.carriers.slots = [] ∧ t.stations.slots = [] ∧ t.galleries.slots = [] ∧
        t.conferences.slots = [] ∧ t.settings = (⟨4, 2, false, 500, 40, 15, 10, 10, 30, [], none⟩ : Settings)) ∧
      (code = 0 → t.planLoaded (s.emptyPlan.readImage limit).state s.clock) ∧
      (∀ k x, t.station k = some x → x.link = .parked ∧ x.wanted.muted = true ∧ x.primary = none ∧ x.standby = none) ∧
      t.clock = s.clock ∧ t.units = s.units ∧ t.store = s.store ∧ t.port = s.port ∧ t.pending = s.pending) ∧
  (∀ (rs : List (Nat × Nat × List Word)) (check : Word) (s : State), (∀ r ∈ rs, recordFits r = true) →
    (imageOf rs).length ≤ 4095 → wordSum (imageOf rs ++ [check]) = 0#16 →
    (∀ i w, (imageOf rs ++ [check])[i]? = some w → s.store.read i = w) →
    s.emptyPlan.readImage none = ⟨rs.foldl (fun u r => u.placeRecord r.1 r.2.1 r.2.2) s.emptyPlan, 0⟩) ∧
  (∀ (o : Order) (s : State), s.admits o .store → o.params = [] →
    (s.forced o = true ∨ ∀ p ∈ s.stations.records, p.2.link = .parked) →
    (s.line ≠ none → exec (.reloadPlan o) s = .next { s with
      miso := List.replicate 9 0#8, port := .processing o.key, load := .reloadWaiting o.key }) ∧
    (s.line = none → exec (.reloadPlan o) s = .next { s.emptied o.key with
      miso := List.replicate 9 0#8, port := .processing o.key })) ∧
  (∀ (key : Word) (a seq : Nat) (s : State), s.load = .reloadWaiting key →
    (s.line = some ⟨.discover a, seq⟩ → (∀ r ∈ s.badCodes, r ≠ ⟨.part, 0⟩ ∧ r.table ≠ .station) →
      exec .discoverMissed s = .next ({ s with line := none }.emptied key)) ∧
    (∀ u, s.line = some ⟨.poll a, seq⟩ → s.badCodes = [] → s.unitAt a = some u → u.state = .present → u.missed < 2 →
      exec .pollMissed s = .next ((s.unitNoted a { u with missed := u.missed + 1 }).emptied key))) ∧
  (∀ (limit : Option Nat) (key : Word) (old : List Final) (s : State), s.load = .reloading key old →
    s.service = .inService → s.badCodes = [] →
    ∃ t, exec (.load limit) s = .next t ∧ t.service = .inService ∧ t.load = .none ∧
      t.port = .pending ⟨.done, 0, key, []⟩ ∧ t.startCode = (s.emptyPlan.readImage limit).code ∧
      t.latched = { s.latched with store := true } ∧
      (t.startCode = 0 → t.planLoaded (s.emptyPlan.readImage limit).state s.clock) ∧
      (t.startCode ≠ 0 → t.windows.slots = [] ∧ t.carriers.slots = [] ∧ t.stations.slots = [] ∧
        t.galleries.slots = [] ∧ t.conferences.slots = [] ∧
        t.settings = (⟨4, 2, false, 500, 40, 15, 10, 10, 30, [], none⟩ : Settings)) ∧
      (∀ k x, t.station k = some x → x.link = .parked ∧ x.wanted.muted = true ∧ x.primary = none ∧ x.standby = none) ∧
      (∀ f ∈ old, f.kind = .tune → t.station f.target = none → f.delivered ≠ some f.wanted →
        (∀ h ∈ old, h.target = f.target → h = f) → ∃ g ∈ t.finals, g = { f with base := g.base }) ∧
      t.units = s.units ∧ t.line = s.line ∧ t.clock = s.clock ∧ t.store = s.store)

/-- SAVE PLAN writes 0x0000 at address 0 and runs; its end leaves the image in the store, closed by the checksum, and every
table Stored; a failure sets Save Failed, with every table Changed after the first word. STORE READ and STORE WRITE read
and write one word. -/
def Obligations.SavesAndStoreWords : Prop :=
  (∀ (o : Order) (s : State), s.takes → s.holdsRight o .store → s.freezeFree o → s.saving = false → o.params = [] →
    exec (.savePlan o true) s = .next ({ s with saving := true, store := s.store.write 0 0#16 }.done o) ∧
    exec (.savePlan o false) s = .next ({ s with
      storeOutcome := 4, latched := { s.latched with store := true } }.answered o .state 5 [])) ∧
  (∀ s : State, s.saving = true → s.badCodes = [] →
    ∃ t, exec .saveEnd s = .next t ∧
      t = { s with
        saving := false
        savePlace := 0
        saveWritten := []
        store := t.store
        storeStates := StoreStates.stored
        storeOutcome := 3
        latched := { s.latched with store := true } } ∧
      (s.store.wf = true → t.store.read 0 = 0x7A31#16 ∧ wordSum (0x7A31#16 :: s.imageTail) = 0#16 ∧
        ∀ i w, s.imageTail[i]? = some w → i + 1 < 4096 → t.store.read (i + 1) = w)) ∧
  (∀ (n : Nat) (s : State), s.saving = true → (⟨.part, 0⟩ ∉ s.badCodes ∨ s.service = .halted) →
    ∃ t, exec (.saveFailed n) s = .next t ∧
      t = { s with
        saving := false
        savePlace := 0
        saveWritten := []
        store := t.store
        storeStates := StoreStates.changed
        storeOutcome := 4
        latched := { s.latched with store := true } } ∧
      (s.store.wf = true → t.store.read 0 = 0#16)) ∧
  (∀ (o : Order) (ack : Bool) (s : State), s.takes → s.holdsRight o .store → s.saving = false →
    (o.params.length = 1 → 4095 < fieldNat o.params 0 →
      exec (.storeRead o ack) s = .next (s.answered o .range 2 [])) ∧
    (o.params.length = 1 → fieldNat o.params 0 ≤ 4095 →
      exec (.storeRead o ack) s = .next (if ack then s.answered o .done 0 [s.store.read (fieldNat o.params 0)]
        else s.answered o .state 5 [])) ∧
    (∀ address value : Word, o.params = [address, value] → s.freezeFree o → address.toNat ≤ 4095 →
      exec (.storeWrite o ack) s = .next ({ s with
        storeStates := StoreStates.changed
        storeOutcome := 5
        latched := { s.latched with store := true }
        store := if ack then s.store.write address.toNat value else s.store }.answered o
          (if ack then .done else .state) (if ack then 0 else 5) [])))

/-- Damage of the record that an order is aimed at begins Fault Handling when the order is taken in service, with its
snapshot, the Fault flag and the answer NOT IN SERVICE 2; NEXT MARKED, which is aimed at no record, apart. A damaged
Part record halts the part, and a READ PART that finds it is answered all the same, in Halted too (its fields are those
after the halt, the model's choice, log 36; field 37, the key, then reads 0 for the Part record, the model's choice, log 43). In Fault Handling an item that names the record under quarantine is a Bad
Item (the model's reading, log 5). QUARANTINE leaves the slot Damaged, with no other reason in its mark (the model's
reading, log 32), and returns to service; a second damaged record in a table that it searches (log 5, 9) halts the part
and keeps the snapshot. -/
def Obligations.FaultsAndQuarantine : Prop :=
  (∀ (c : Instr) (o : Order) (s : State), orderIn c = some o → (∀ table, c ≠ .nextMarked table o) →
    (orderVerb c).1 ≠ .part → countTakes (orderVerb c).1.selector (orderVerb c).2 o.params.length = true →
    s.service = .inService → s.port = .idle → (s.load = .none ∨ ∃ k, s.load = .reloadWaiting k) →
    s.badCodes = [⟨(orderVerb c).1, keyOf o⟩] → s.holdsRecord ⟨(orderVerb c).1, keyOf o⟩ = true →
    ∃ t, exec c s = .next t ∧ t = { s with
      miso := List.replicate (9 + 2 * o.params.length) 0#8
      service := .faultHandling
      load := .none
      snapshot := some ⟨⟨(orderVerb c).1, keyOf o⟩, 0x8000 + 256 * (orderVerb c).1.selector + (orderVerb c).2⟩
      latched := { s.latched with fault := true }
      port := .pending ⟨.notInService, 2, o.key, []⟩
      savePlace := t.savePlace
      saveWritten := t.saveWritten
      draws := t.draws } ∧
      (s.saving = false → t.savePlace = s.savePlace ∧ t.saveWritten = s.saveWritten ∧ t.draws = s.draws)) ∧
  (∀ (o : Order) (s : State), s.service = .inService → s.port = .idle → s.saving = false → s.load = .none →
    o.params.length ≤ 1 → s.badCodes = [⟨.part, 0⟩] →
    exec (.readAttention o) s = .next { s with
      miso := List.replicate (9 + 2 * o.params.length) 0#8
      service := .halted
      load := .none
      line := none
      snapshot := some ⟨⟨.part, 0⟩, 0x8000 + 256 * 8 + 23⟩
      latched := { s.latched with fault := true }
      port := .pending ⟨.notInService, 3, o.key, []⟩ }) ∧
  (∀ (r : RecordId) (activity : Nat) (s : State), s.service = .faultHandling → s.load = .none →
    s.snapshot = some ⟨r, activity⟩ → s.badCodes = [r] →
    ∃ t, exec .quarantine s = .next t ∧ t.service = .inService ∧ t.badCodes = [] ∧ t.snapshot = s.snapshot ∧
      t.readyHigh = true ∧ t.clock = s.clock ∧ t.settings = s.settings ∧ t.storeStates = s.storeStates ∧
      t.port = s.port ∧
      (r.table = .window → t.windows.slot r.key = some (.damaged [6])) ∧
      (r.table = .carrier → t.carriers.slot r.key = some (.damaged [15])) ∧
      (r.table = .station → t.stations.slot r.key = some (.damaged [25])) ∧
      (r.table = .gallery → t.galleries.slot r.key = some (.damaged [6])) ∧
      (r.table = .conference → t.conferences.slot r.key = some (.damaged [9])) ∧
      (∀ u, r.table = .unit → s.unitAt r.key = some u → t.unitAt r.key = some ⟨none, .absent, 0, [6]⟩) ∧
      (r.table = .operator → t.operators = s.operators.set r.key
        (if r.key = 0 then ⟨0xFF#8, 0xFFFF#16⟩ else ⟨0#8, 0#16⟩)) ∧
      (r.table ≠ .operator → t.operators = s.operators)) ∧
  (∀ (r : RecordId) (activity : Nat) (s : State), s.service = .faultHandling → s.saving = false →
    s.snapshot = some ⟨r, activity⟩ → r.table ≠ .part →
    (∃ q ∈ s.badCodes, q ≠ r ∧ s.holdsRecord q = true ∧ (q = ⟨.part, 0⟩ ∨ q.table ∈ searchedFor r.table)) →
    ∃ t, exec .quarantine s = .next t ∧ t.service = .halted ∧ t.snapshot = s.snapshot ∧ t.line = none ∧
      t.latched = { s.latched with fault := true } ∧ t.readyHigh = false) ∧
  (∀ (a seq k c q activity : Nat) (s : State) (u : LineUnit), s.service = .faultHandling → s.load = .none →
    s.snapshot = some ⟨⟨.station, k⟩, activity⟩ → s.badCodes = [⟨.station, k⟩] → s.stations.wf = true → 1 ≤ a → a ≤ 32 →
    seq < 256 → k ≤ 96 → c ≤ 128 → q ≤ 100 → s.line = some ⟨.poll a, seq⟩ → s.unitAt a = some u → u.state = .present →
    u.kind = some .rx →
    exec (.pollAnswered (unitFrame (.poll a) seq .rx [1#16, wordOf k, wordOf c, wordOf q])) s =
      .next (s.unitNoted a { u with missed := 0, mark := addReason 5 u.mark })) ∧
  (∀ (o : Order) (s : State), s.port = .idle → o.params = [] → ⟨.part, 0⟩ ∈ s.badCodes → s.saving = false →
    ∃ t, exec (.readPart o) s = .next t ∧ t.service = .halted ∧ t.line = none ∧
      t.latched = { s.latched with fault := true } ∧
      (s.service = .starting ∨ s.service = .inService ∨ (s.service = .halted ∧ s.startCode = 6) →
        t.snapshot = some ⟨⟨.part, 0⟩, 0x8000 + 256 * 8 + 4⟩) ∧
      (s.service = .faultHandling → t.snapshot = s.snapshot) ∧
      t.port = .pending ⟨.done, 0, o.key, [3#16, wordOf s.startCode] ++ List.replicate 33 0xFFFF#16 ++
        [wordOfOption (t.snapshot.map (fun x => x.record.table.selector)),
          wordOfOption (t.snapshot.map (fun x => x.record.key)), wordOfOption (t.snapshot.map Snapshot.activity)]⟩)

/-- READ answers a record's fields from the start field on, up to 40 words; READ CONFERENCE one of a conference's three
parts; READ PART the Part fields in every service state; a key or a start field that names nothing is refused. READ
ATTENTION answers the flags, sets the mask and clears the latched flags; NEXT MARKED returns and clears the lowest mark. -/
def Obligations.Reads : Prop :=
  (∀ (table : TableId) (o : Order) (s : State), table.plainRead = true → s.takes → o.params.length ≤ 1 →
    let start := (o.params.head?.map BitVec.toNat).getD 0
    (s.recordFields table (keyOf o) = none → exec (.read table o) s = .next (s.answered o .key 1 [])) ∧
    (∀ fields, s.recordFields table (keyOf o) = some fields →
      (o.params = [] ∨ (∃ f ∈ fields, f.1 = start) →
        exec (.read table o) s = .next (s.answered o .done 0
          (((fields.filter (fun f => start ≤ f.1)).map (·.2)).take 40))) ∧
      (o.params ≠ [] → (∀ f ∈ fields, f.1 ≠ start) →
        exec (.read table o) s = .next (s.answered o .range 1 [])))) ∧
  (∀ (o : Order) (s : State) (x : Conference), s.takes → o.params.length = 1 → s.conference (keyOf o) = some x →
    fieldNat o.params 0 ≤ 2 →
    exec (.readConference o) s = .next (s.answered o .done 0 (s.conferencePart (keyOf o) x (fieldNat o.params 0)))) ∧
  (∀ (o : Order) (s : State), s.port = .idle → s.badCodes = [] → o.params.length ≤ 1 →
    let start := (o.params.head?.map BitVec.toNat).getD 0
    (o.params = [] ∨ (∃ f ∈ s.partFields, f.1 = start) →
      exec (.readPart o) s = .next (s.answered o .done 0
        (((s.partFields.filter (fun f => start ≤ f.1)).map (·.2)).take 40)))) ∧
  (∀ (o : Order) (s : State), s.takes →
    (o.params = [] → exec (.readAttention o) s = .next ({ s with
      latched := if o.clear then ⟨false, false, false, false⟩ else s.latched }.answered o .done 0
        [s.attentionWord, s.mask])) ∧
    (∀ mask, o.params = [mask] → mask ||| 0x0F3F#16 = 0x0F3F#16 → exec (.readAttention o) s = .next ({ s with
      mask := mask
      latched := if o.clear then ⟨false, false, false, false⟩ else s.latched }.answered o .done 0
        [s.attentionWord, mask]))) ∧
  (∀ (table : TableId) (o : Order) (s : State), table.marked = true → s.takes → o.params = [] →
    (s.firstMarked table = none → exec (.nextMarked table o) s = .next { s with
      miso := List.replicate 9 0#8, port := .pending ⟨.done, 0, 0#16, []⟩ }) ∧
    (∀ k mark, s.firstMarked table = some (k, mark) → exec (.nextMarked table o) s = .next { s.clearMark table k with
      miso := List.replicate 9 0#8, port := .pending ⟨.done, 0, wordOf k, mark.map wordOf⟩ }))
end

