-- ==== Sys2Proof/Laws/State.lean ====
section
/-! SUPPORT. One lemma per field for the updates of one record, all true by rfl: later proofs never unfold them. -/

namespace Sys2Proof.Machine

/-! ## modWindow -/

section
variable (s : State) (k : Nat) (f : Window → Window)

@[simp] theorem State.modWindow_pending : (s.modWindow k f).pending = s.pending := rfl
@[simp] theorem State.modWindow_service : (s.modWindow k f).service = s.service := rfl
@[simp] theorem State.modWindow_load : (s.modWindow k f).load = s.load := rfl
@[simp] theorem State.modWindow_startCode : (s.modWindow k f).startCode = s.startCode := rfl
@[simp] theorem State.modWindow_snapshot : (s.modWindow k f).snapshot = s.snapshot := rfl
@[simp] theorem State.modWindow_badCodes : (s.modWindow k f).badCodes = s.badCodes := rfl
@[simp] theorem State.modWindow_upsets : (s.modWindow k f).upsets = s.upsets := rfl
@[simp] theorem State.modWindow_draws : (s.modWindow k f).draws = s.draws := rfl
@[simp] theorem State.modWindow_clock : (s.modWindow k f).clock = s.clock := rfl
@[simp] theorem State.modWindow_windows : (s.modWindow k f).windows = s.windows.modify k f := rfl
@[simp] theorem State.modWindow_carriers : (s.modWindow k f).carriers = s.carriers := rfl
@[simp] theorem State.modWindow_checkQueue : (s.modWindow k f).checkQueue = s.checkQueue := rfl
@[simp] theorem State.modWindow_engine : (s.modWindow k f).engine = s.engine := rfl
@[simp] theorem State.modWindow_stations : (s.modWindow k f).stations = s.stations := rfl
@[simp] theorem State.modWindow_galleries : (s.modWindow k f).galleries = s.galleries := rfl
@[simp] theorem State.modWindow_conferences : (s.modWindow k f).conferences = s.conferences := rfl
@[simp] theorem State.modWindow_operators : (s.modWindow k f).operators = s.operators := rfl
@[simp] theorem State.modWindow_freezeHolder : (s.modWindow k f).freezeHolder = s.freezeHolder := rfl
@[simp] theorem State.modWindow_settings : (s.modWindow k f).settings = s.settings := rfl
@[simp] theorem State.modWindow_units : (s.modWindow k f).units = s.units := rfl
@[simp] theorem State.modWindow_queue : (s.modWindow k f).queue = s.queue := rfl
@[simp] theorem State.modWindow_finals : (s.modWindow k f).finals = s.finals := rfl
@[simp] theorem State.modWindow_line : (s.modWindow k f).line = s.line := rfl
@[simp] theorem State.modWindow_sequence : (s.modWindow k f).sequence = s.sequence := rfl
@[simp] theorem State.modWindow_round : (s.modWindow k f).round = s.round := rfl
@[simp] theorem State.modWindow_lastDiscover : (s.modWindow k f).lastDiscover = s.lastDiscover := rfl
@[simp] theorem State.modWindow_turn : (s.modWindow k f).turn = s.turn := rfl
@[simp] theorem State.modWindow_port : (s.modWindow k f).port = s.port := rfl
@[simp] theorem State.modWindow_miso : (s.modWindow k f).miso = s.miso := rfl
@[simp] theorem State.modWindow_latched : (s.modWindow k f).latched = s.latched := rfl
@[simp] theorem State.modWindow_mask : (s.modWindow k f).mask = s.mask := rfl
@[simp] theorem State.modWindow_storeStates : (s.modWindow k f).storeStates = s.storeStates := rfl
@[simp] theorem State.modWindow_storeOutcome : (s.modWindow k f).storeOutcome = s.storeOutcome := rfl
@[simp] theorem State.modWindow_saving : (s.modWindow k f).saving = s.saving := rfl
@[simp] theorem State.modWindow_savePlace : (s.modWindow k f).savePlace = s.savePlace := rfl
@[simp] theorem State.modWindow_saveWritten : (s.modWindow k f).saveWritten = s.saveWritten := rfl
@[simp] theorem State.modWindow_store : (s.modWindow k f).store = s.store := rfl

end

/-! ## modCarrier -/

section
variable (s : State) (k : Nat) (f : Carrier → Carrier)

@[simp] theorem State.modCarrier_pending : (s.modCarrier k f).pending = s.pending := rfl
@[simp] theorem State.modCarrier_service : (s.modCarrier k f).service = s.service := rfl
@[simp] theorem State.modCarrier_load : (s.modCarrier k f).load = s.load := rfl
@[simp] theorem State.modCarrier_startCode : (s.modCarrier k f).startCode = s.startCode := rfl
@[simp] theorem State.modCarrier_snapshot : (s.modCarrier k f).snapshot = s.snapshot := rfl
@[simp] theorem State.modCarrier_badCodes : (s.modCarrier k f).badCodes = s.badCodes := rfl
@[simp] theorem State.modCarrier_upsets : (s.modCarrier k f).upsets = s.upsets := rfl
@[simp] theorem State.modCarrier_draws : (s.modCarrier k f).draws = s.draws := rfl
@[simp] theorem State.modCarrier_clock : (s.modCarrier k f).clock = s.clock := rfl
@[simp] theorem State.modCarrier_windows : (s.modCarrier k f).windows = s.windows := rfl
@[simp] theorem State.modCarrier_carriers : (s.modCarrier k f).carriers = s.carriers.modify k f := rfl
@[simp] theorem State.modCarrier_checkQueue : (s.modCarrier k f).checkQueue = s.checkQueue := rfl
@[simp] theorem State.modCarrier_engine : (s.modCarrier k f).engine = s.engine := rfl
@[simp] theorem State.modCarrier_stations : (s.modCarrier k f).stations = s.stations := rfl
@[simp] theorem State.modCarrier_galleries : (s.modCarrier k f).galleries = s.galleries := rfl
@[simp] theorem State.modCarrier_conferences : (s.modCarrier k f).conferences = s.conferences := rfl
@[simp] theorem State.modCarrier_operators : (s.modCarrier k f).operators = s.operators := rfl
@[simp] theorem State.modCarrier_freezeHolder : (s.modCarrier k f).freezeHolder = s.freezeHolder := rfl
@[simp] theorem State.modCarrier_settings : (s.modCarrier k f).settings = s.settings := rfl
@[simp] theorem State.modCarrier_units : (s.modCarrier k f).units = s.units := rfl
@[simp] theorem State.modCarrier_queue : (s.modCarrier k f).queue = s.queue := rfl
@[simp] theorem State.modCarrier_finals : (s.modCarrier k f).finals = s.finals := rfl
@[simp] theorem State.modCarrier_line : (s.modCarrier k f).line = s.line := rfl
@[simp] theorem State.modCarrier_sequence : (s.modCarrier k f).sequence = s.sequence := rfl
@[simp] theorem State.modCarrier_round : (s.modCarrier k f).round = s.round := rfl
@[simp] theorem State.modCarrier_lastDiscover : (s.modCarrier k f).lastDiscover = s.lastDiscover := rfl
@[simp] theorem State.modCarrier_turn : (s.modCarrier k f).turn = s.turn := rfl
@[simp] theorem State.modCarrier_port : (s.modCarrier k f).port = s.port := rfl
@[simp] theorem State.modCarrier_miso : (s.modCarrier k f).miso = s.miso := rfl
@[simp] theorem State.modCarrier_latched : (s.modCarrier k f).latched = s.latched := rfl
@[simp] theorem State.modCarrier_mask : (s.modCarrier k f).mask = s.mask := rfl
@[simp] theorem State.modCarrier_storeStates : (s.modCarrier k f).storeStates = s.storeStates := rfl
@[simp] theorem State.modCarrier_storeOutcome : (s.modCarrier k f).storeOutcome = s.storeOutcome := rfl
@[simp] theorem State.modCarrier_saving : (s.modCarrier k f).saving = s.saving := rfl
@[simp] theorem State.modCarrier_savePlace : (s.modCarrier k f).savePlace = s.savePlace := rfl
@[simp] theorem State.modCarrier_saveWritten : (s.modCarrier k f).saveWritten = s.saveWritten := rfl
@[simp] theorem State.modCarrier_store : (s.modCarrier k f).store = s.store := rfl

end

/-! ## modStation -/

section
variable (s : State) (k : Nat) (f : Station → Station)

@[simp] theorem State.modStation_pending : (s.modStation k f).pending = s.pending := rfl
@[simp] theorem State.modStation_service : (s.modStation k f).service = s.service := rfl
@[simp] theorem State.modStation_load : (s.modStation k f).load = s.load := rfl
@[simp] theorem State.modStation_startCode : (s.modStation k f).startCode = s.startCode := rfl
@[simp] theorem State.modStation_snapshot : (s.modStation k f).snapshot = s.snapshot := rfl
@[simp] theorem State.modStation_badCodes : (s.modStation k f).badCodes = s.badCodes := rfl
@[simp] theorem State.modStation_upsets : (s.modStation k f).upsets = s.upsets := rfl
@[simp] theorem State.modStation_draws : (s.modStation k f).draws = s.draws := rfl
@[simp] theorem State.modStation_clock : (s.modStation k f).clock = s.clock := rfl
@[simp] theorem State.modStation_windows : (s.modStation k f).windows = s.windows := rfl
@[simp] theorem State.modStation_carriers : (s.modStation k f).carriers = s.carriers := rfl
@[simp] theorem State.modStation_checkQueue : (s.modStation k f).checkQueue = s.checkQueue := rfl
@[simp] theorem State.modStation_engine : (s.modStation k f).engine = s.engine := rfl
@[simp] theorem State.modStation_stations : (s.modStation k f).stations = s.stations.modify k f := rfl
@[simp] theorem State.modStation_galleries : (s.modStation k f).galleries = s.galleries := rfl
@[simp] theorem State.modStation_conferences : (s.modStation k f).conferences = s.conferences := rfl
@[simp] theorem State.modStation_operators : (s.modStation k f).operators = s.operators := rfl
@[simp] theorem State.modStation_freezeHolder : (s.modStation k f).freezeHolder = s.freezeHolder := rfl
@[simp] theorem State.modStation_settings : (s.modStation k f).settings = s.settings := rfl
@[simp] theorem State.modStation_units : (s.modStation k f).units = s.units := rfl
@[simp] theorem State.modStation_queue : (s.modStation k f).queue = s.queue := rfl
@[simp] theorem State.modStation_finals : (s.modStation k f).finals = s.finals := rfl
@[simp] theorem State.modStation_line : (s.modStation k f).line = s.line := rfl
@[simp] theorem State.modStation_sequence : (s.modStation k f).sequence = s.sequence := rfl
@[simp] theorem State.modStation_round : (s.modStation k f).round = s.round := rfl
@[simp] theorem State.modStation_lastDiscover : (s.modStation k f).lastDiscover = s.lastDiscover := rfl
@[simp] theorem State.modStation_turn : (s.modStation k f).turn = s.turn := rfl
@[simp] theorem State.modStation_port : (s.modStation k f).port = s.port := rfl
@[simp] theorem State.modStation_miso : (s.modStation k f).miso = s.miso := rfl
@[simp] theorem State.modStation_latched : (s.modStation k f).latched = s.latched := rfl
@[simp] theorem State.modStation_mask : (s.modStation k f).mask = s.mask := rfl
@[simp] theorem State.modStation_storeStates : (s.modStation k f).storeStates = s.storeStates := rfl
@[simp] theorem State.modStation_storeOutcome : (s.modStation k f).storeOutcome = s.storeOutcome := rfl
@[simp] theorem State.modStation_saving : (s.modStation k f).saving = s.saving := rfl
@[simp] theorem State.modStation_savePlace : (s.modStation k f).savePlace = s.savePlace := rfl
@[simp] theorem State.modStation_saveWritten : (s.modStation k f).saveWritten = s.saveWritten := rfl
@[simp] theorem State.modStation_store : (s.modStation k f).store = s.store := rfl

end

/-! ## modGallery -/

section
variable (s : State) (k : Nat) (f : Gallery → Gallery)

@[simp] theorem State.modGallery_pending : (s.modGallery k f).pending = s.pending := rfl
@[simp] theorem State.modGallery_service : (s.modGallery k f).service = s.service := rfl
@[simp] theorem State.modGallery_load : (s.modGallery k f).load = s.load := rfl
@[simp] theorem State.modGallery_startCode : (s.modGallery k f).startCode = s.startCode := rfl
@[simp] theorem State.modGallery_snapshot : (s.modGallery k f).snapshot = s.snapshot := rfl
@[simp] theorem State.modGallery_badCodes : (s.modGallery k f).badCodes = s.badCodes := rfl
@[simp] theorem State.modGallery_upsets : (s.modGallery k f).upsets = s.upsets := rfl
@[simp] theorem State.modGallery_draws : (s.modGallery k f).draws = s.draws := rfl
@[simp] theorem State.modGallery_clock : (s.modGallery k f).clock = s.clock := rfl
@[simp] theorem State.modGallery_windows : (s.modGallery k f).windows = s.windows := rfl
@[simp] theorem State.modGallery_carriers : (s.modGallery k f).carriers = s.carriers := rfl
@[simp] theorem State.modGallery_checkQueue : (s.modGallery k f).checkQueue = s.checkQueue := rfl
@[simp] theorem State.modGallery_engine : (s.modGallery k f).engine = s.engine := rfl
@[simp] theorem State.modGallery_stations : (s.modGallery k f).stations = s.stations := rfl
@[simp] theorem State.modGallery_galleries : (s.modGallery k f).galleries = s.galleries.modify k f := rfl
@[simp] theorem State.modGallery_conferences : (s.modGallery k f).conferences = s.conferences := rfl
@[simp] theorem State.modGallery_operators : (s.modGallery k f).operators = s.operators := rfl
@[simp] theorem State.modGallery_freezeHolder : (s.modGallery k f).freezeHolder = s.freezeHolder := rfl
@[simp] theorem State.modGallery_settings : (s.modGallery k f).settings = s.settings := rfl
@[simp] theorem State.modGallery_units : (s.modGallery k f).units = s.units := rfl
@[simp] theorem State.modGallery_queue : (s.modGallery k f).queue = s.queue := rfl
@[simp] theorem State.modGallery_finals : (s.modGallery k f).finals = s.finals := rfl
@[simp] theorem State.modGallery_line : (s.modGallery k f).line = s.line := rfl
@[simp] theorem State.modGallery_sequence : (s.modGallery k f).sequence = s.sequence := rfl
@[simp] theorem State.modGallery_round : (s.modGallery k f).round = s.round := rfl
@[simp] theorem State.modGallery_lastDiscover : (s.modGallery k f).lastDiscover = s.lastDiscover := rfl
@[simp] theorem State.modGallery_turn : (s.modGallery k f).turn = s.turn := rfl
@[simp] theorem State.modGallery_port : (s.modGallery k f).port = s.port := rfl
@[simp] theorem State.modGallery_miso : (s.modGallery k f).miso = s.miso := rfl
@[simp] theorem State.modGallery_latched : (s.modGallery k f).latched = s.latched := rfl
@[simp] theorem State.modGallery_mask : (s.modGallery k f).mask = s.mask := rfl
@[simp] theorem State.modGallery_storeStates : (s.modGallery k f).storeStates = s.storeStates := rfl
@[simp] theorem State.modGallery_storeOutcome : (s.modGallery k f).storeOutcome = s.storeOutcome := rfl
@[simp] theorem State.modGallery_saving : (s.modGallery k f).saving = s.saving := rfl
@[simp] theorem State.modGallery_savePlace : (s.modGallery k f).savePlace = s.savePlace := rfl
@[simp] theorem State.modGallery_saveWritten : (s.modGallery k f).saveWritten = s.saveWritten := rfl
@[simp] theorem State.modGallery_store : (s.modGallery k f).store = s.store := rfl

end

/-! ## modConference -/

section
variable (s : State) (k : Nat) (f : Conference → Conference)

@[simp] theorem State.modConference_pending : (s.modConference k f).pending = s.pending := rfl
@[simp] theorem State.modConference_service : (s.modConference k f).service = s.service := rfl
@[simp] theorem State.modConference_load : (s.modConference k f).load = s.load := rfl
@[simp] theorem State.modConference_startCode : (s.modConference k f).startCode = s.startCode := rfl
@[simp] theorem State.modConference_snapshot : (s.modConference k f).snapshot = s.snapshot := rfl
@[simp] theorem State.modConference_badCodes : (s.modConference k f).badCodes = s.badCodes := rfl
@[simp] theorem State.modConference_upsets : (s.modConference k f).upsets = s.upsets := rfl
@[simp] theorem State.modConference_draws : (s.modConference k f).draws = s.draws := rfl
@[simp] theorem State.modConference_clock : (s.modConference k f).clock = s.clock := rfl
@[simp] theorem State.modConference_windows : (s.modConference k f).windows = s.windows := rfl
@[simp] theorem State.modConference_carriers : (s.modConference k f).carriers = s.carriers := rfl
@[simp] theorem State.modConference_checkQueue : (s.modConference k f).checkQueue = s.checkQueue := rfl
@[simp] theorem State.modConference_engine : (s.modConference k f).engine = s.engine := rfl
@[simp] theorem State.modConference_stations : (s.modConference k f).stations = s.stations := rfl
@[simp] theorem State.modConference_galleries : (s.modConference k f).galleries = s.galleries := rfl
@[simp] theorem State.modConference_conferences : (s.modConference k f).conferences = s.conferences.modify k f := rfl
@[simp] theorem State.modConference_operators : (s.modConference k f).operators = s.operators := rfl
@[simp] theorem State.modConference_freezeHolder : (s.modConference k f).freezeHolder = s.freezeHolder := rfl
@[simp] theorem State.modConference_settings : (s.modConference k f).settings = s.settings := rfl
@[simp] theorem State.modConference_units : (s.modConference k f).units = s.units := rfl
@[simp] theorem State.modConference_queue : (s.modConference k f).queue = s.queue := rfl
@[simp] theorem State.modConference_finals : (s.modConference k f).finals = s.finals := rfl
@[simp] theorem State.modConference_line : (s.modConference k f).line = s.line := rfl
@[simp] theorem State.modConference_sequence : (s.modConference k f).sequence = s.sequence := rfl
@[simp] theorem State.modConference_round : (s.modConference k f).round = s.round := rfl
@[simp] theorem State.modConference_lastDiscover : (s.modConference k f).lastDiscover = s.lastDiscover := rfl
@[simp] theorem State.modConference_turn : (s.modConference k f).turn = s.turn := rfl
@[simp] theorem State.modConference_port : (s.modConference k f).port = s.port := rfl
@[simp] theorem State.modConference_miso : (s.modConference k f).miso = s.miso := rfl
@[simp] theorem State.modConference_latched : (s.modConference k f).latched = s.latched := rfl
@[simp] theorem State.modConference_mask : (s.modConference k f).mask = s.mask := rfl
@[simp] theorem State.modConference_storeStates : (s.modConference k f).storeStates = s.storeStates := rfl
@[simp] theorem State.modConference_storeOutcome : (s.modConference k f).storeOutcome = s.storeOutcome := rfl
@[simp] theorem State.modConference_saving : (s.modConference k f).saving = s.saving := rfl
@[simp] theorem State.modConference_savePlace : (s.modConference k f).savePlace = s.savePlace := rfl
@[simp] theorem State.modConference_saveWritten : (s.modConference k f).saveWritten = s.saveWritten := rfl
@[simp] theorem State.modConference_store : (s.modConference k f).store = s.store := rfl

end

/-! ## modUnit -/

section
variable (s : State) (a : Nat) (f : LineUnit → LineUnit)

@[simp] theorem State.modUnit_pending : (s.modUnit a f).pending = s.pending := rfl
@[simp] theorem State.modUnit_service : (s.modUnit a f).service = s.service := rfl
@[simp] theorem State.modUnit_load : (s.modUnit a f).load = s.load := rfl
@[simp] theorem State.modUnit_startCode : (s.modUnit a f).startCode = s.startCode := rfl
@[simp] theorem State.modUnit_snapshot : (s.modUnit a f).snapshot = s.snapshot := rfl
@[simp] theorem State.modUnit_badCodes : (s.modUnit a f).badCodes = s.badCodes := rfl
@[simp] theorem State.modUnit_upsets : (s.modUnit a f).upsets = s.upsets := rfl
@[simp] theorem State.modUnit_draws : (s.modUnit a f).draws = s.draws := rfl
@[simp] theorem State.modUnit_clock : (s.modUnit a f).clock = s.clock := rfl
@[simp] theorem State.modUnit_windows : (s.modUnit a f).windows = s.windows := rfl
@[simp] theorem State.modUnit_carriers : (s.modUnit a f).carriers = s.carriers := rfl
@[simp] theorem State.modUnit_checkQueue : (s.modUnit a f).checkQueue = s.checkQueue := rfl
@[simp] theorem State.modUnit_engine : (s.modUnit a f).engine = s.engine := rfl
@[simp] theorem State.modUnit_stations : (s.modUnit a f).stations = s.stations := rfl
@[simp] theorem State.modUnit_galleries : (s.modUnit a f).galleries = s.galleries := rfl
@[simp] theorem State.modUnit_conferences : (s.modUnit a f).conferences = s.conferences := rfl
@[simp] theorem State.modUnit_operators : (s.modUnit a f).operators = s.operators := rfl
@[simp] theorem State.modUnit_freezeHolder : (s.modUnit a f).freezeHolder = s.freezeHolder := rfl
@[simp] theorem State.modUnit_settings : (s.modUnit a f).settings = s.settings := rfl
@[simp] theorem State.modUnit_queue : (s.modUnit a f).queue = s.queue := rfl
@[simp] theorem State.modUnit_finals : (s.modUnit a f).finals = s.finals := rfl
@[simp] theorem State.modUnit_line : (s.modUnit a f).line = s.line := rfl
@[simp] theorem State.modUnit_sequence : (s.modUnit a f).sequence = s.sequence := rfl
@[simp] theorem State.modUnit_round : (s.modUnit a f).round = s.round := rfl
@[simp] theorem State.modUnit_lastDiscover : (s.modUnit a f).lastDiscover = s.lastDiscover := rfl
@[simp] theorem State.modUnit_turn : (s.modUnit a f).turn = s.turn := rfl
@[simp] theorem State.modUnit_port : (s.modUnit a f).port = s.port := rfl
@[simp] theorem State.modUnit_miso : (s.modUnit a f).miso = s.miso := rfl
@[simp] theorem State.modUnit_latched : (s.modUnit a f).latched = s.latched := rfl
@[simp] theorem State.modUnit_mask : (s.modUnit a f).mask = s.mask := rfl
@[simp] theorem State.modUnit_storeStates : (s.modUnit a f).storeStates = s.storeStates := rfl
@[simp] theorem State.modUnit_storeOutcome : (s.modUnit a f).storeOutcome = s.storeOutcome := rfl
@[simp] theorem State.modUnit_saving : (s.modUnit a f).saving = s.saving := rfl
@[simp] theorem State.modUnit_savePlace : (s.modUnit a f).savePlace = s.savePlace := rfl
@[simp] theorem State.modUnit_saveWritten : (s.modUnit a f).saveWritten = s.saveWritten := rfl
@[simp] theorem State.modUnit_store : (s.modUnit a f).store = s.store := rfl

end

/-! ## answer -/

section
variable (s : State) (r : Reply)

@[simp] theorem State.answer_pending : (s.answer r).pending = s.pending := rfl
@[simp] theorem State.answer_service : (s.answer r).service = s.service := rfl
@[simp] theorem State.answer_load : (s.answer r).load = s.load := rfl
@[simp] theorem State.answer_startCode : (s.answer r).startCode = s.startCode := rfl
@[simp] theorem State.answer_snapshot : (s.answer r).snapshot = s.snapshot := rfl
@[simp] theorem State.answer_badCodes : (s.answer r).badCodes = s.badCodes := rfl
@[simp] theorem State.answer_upsets : (s.answer r).upsets = s.upsets := rfl
@[simp] theorem State.answer_draws : (s.answer r).draws = s.draws := rfl
@[simp] theorem State.answer_clock : (s.answer r).clock = s.clock := rfl
@[simp] theorem State.answer_windows : (s.answer r).windows = s.windows := rfl
@[simp] theorem State.answer_carriers : (s.answer r).carriers = s.carriers := rfl
@[simp] theorem State.answer_checkQueue : (s.answer r).checkQueue = s.checkQueue := rfl
@[simp] theorem State.answer_engine : (s.answer r).engine = s.engine := rfl
@[simp] theorem State.answer_stations : (s.answer r).stations = s.stations := rfl
@[simp] theorem State.answer_galleries : (s.answer r).galleries = s.galleries := rfl
@[simp] theorem State.answer_conferences : (s.answer r).conferences = s.conferences := rfl
@[simp] theorem State.answer_operators : (s.answer r).operators = s.operators := rfl
@[simp] theorem State.answer_freezeHolder : (s.answer r).freezeHolder = s.freezeHolder := rfl
@[simp] theorem State.answer_settings : (s.answer r).settings = s.settings := rfl
@[simp] theorem State.answer_units : (s.answer r).units = s.units := rfl
@[simp] theorem State.answer_queue : (s.answer r).queue = s.queue := rfl
@[simp] theorem State.answer_finals : (s.answer r).finals = s.finals := rfl
@[simp] theorem State.answer_line : (s.answer r).line = s.line := rfl
@[simp] theorem State.answer_sequence : (s.answer r).sequence = s.sequence := rfl
@[simp] theorem State.answer_round : (s.answer r).round = s.round := rfl
@[simp] theorem State.answer_lastDiscover : (s.answer r).lastDiscover = s.lastDiscover := rfl
@[simp] theorem State.answer_turn : (s.answer r).turn = s.turn := rfl
@[simp] theorem State.answer_port : (s.answer r).port = .pending ⟨r.status, r.detail, r.key, r.words⟩ := rfl
@[simp] theorem State.answer_miso : (s.answer r).miso = s.miso := rfl
@[simp] theorem State.answer_latched : (s.answer r).latched = s.latched := rfl
@[simp] theorem State.answer_mask : (s.answer r).mask = s.mask := rfl
@[simp] theorem State.answer_storeStates : (s.answer r).storeStates = s.storeStates := rfl
@[simp] theorem State.answer_storeOutcome : (s.answer r).storeOutcome = s.storeOutcome := rfl
@[simp] theorem State.answer_saving : (s.answer r).saving = s.saving := rfl
@[simp] theorem State.answer_savePlace : (s.answer r).savePlace = s.savePlace := rfl
@[simp] theorem State.answer_saveWritten : (s.answer r).saveWritten = s.saveWritten := rfl
@[simp] theorem State.answer_store : (s.answer r).store = s.store := rfl

end

end Sys2Proof.Machine
end

