-- ==== Sys2Proof/Laws/Tables.lean ====
section
/-! SUPPORT. Record tables and the Plan Store: what a read gives after a write, and the canonical forms. -/

namespace Sys2Proof.Machine

/-! ## Slots -/

section
variable {α : Type}

/-- A slot reads as the last one put there; every other slot reads as before. -/
theorem slotAt_slotPut (l : List (Nat × Slot α)) (j : Nat) (y : Slot α) (i : Nat) :
    slotAt (slotPut l j y) i = if i = j then some y else slotAt l i := by
  induction l with
  | nil => simp only [slotPut, slotAt]
  | cons p rest ih =>
    obtain ⟨k, x⟩ := p
    simp only [slotPut]
    split
    · rename_i h
      simp only [slotAt]
    · split
      · rename_i h
        subst h
        simp only [slotAt]
        split <;> rfl
      · rename_i h1 h2
        simp only [slotAt, ih]
        by_cases hi : i = k
        · have : i ≠ j := by omega
          simp [hi]
          omega
        · simp [hi]

/-- A second put at a key replaces the first. -/
theorem slotPut_slotPut (l : List (Nat × Slot α)) (j : Nat) (x y : Slot α) :
    slotPut (slotPut l j x) j y = slotPut l j y := by
  induction l with
  | nil => simp [slotPut]
  | cons p rest ih =>
    obtain ⟨k, z⟩ := p
    by_cases h1 : j < k
    · simp [slotPut, h1]
    · by_cases h2 : j = k
      · subst h2
        simp [slotPut]
      · simp [slotPut, h1, h2, ih]

/-- Filtering a key out leaves every other slot. -/
theorem slotAt_filter_ne (l : List (Nat × Slot α)) (j i : Nat) :
    slotAt (l.filter (fun p => p.1 != j)) i = if i = j then none else slotAt l i := by
  induction l with
  | nil => simp [slotAt]
  | cons p rest ih =>
    obtain ⟨k, x⟩ := p
    by_cases hk : k = j
    · subst hk
      by_cases hi : i = k
      · subst hi
        simpa using ih
      · simpa [slotAt, hi] using ih
    · by_cases hi : i = k
      · subst hi
        simp [slotAt, hk]
      · simpa [slotAt, hk, hi] using ih

@[simp] theorem Table.slot_put (t : Table α) (j : Nat) (r : α) (i : Nat) :
    (t.put j r).slot i = if i = j then some (.held r) else t.slot i := slotAt_slotPut _ _ _ _

@[simp] theorem Table.slot_damage (t : Table α) (j : Nat) (m : List Nat) (i : Nat) :
    (t.damage j m).slot i = if i = j then some (.damaged m) else t.slot i := slotAt_slotPut _ _ _ _

@[simp] theorem Table.slot_erase (t : Table α) (j i : Nat) :
    (t.erase j).slot i = if i = j then none else t.slot i := slotAt_filter_ne _ _ _

/-- The record at a key after a put. -/
theorem Table.get_put (t : Table α) (j : Nat) (r : α) (i : Nat) :
    (t.put j r).get i = if i = j then some r else t.get i := by
  simp only [Table.get, Table.slot_put]
  by_cases h : i = j <;> simp [h]

@[simp] theorem Table.get_put_self (t : Table α) (j : Nat) (r : α) : (t.put j r).get j = some r := by
  simp [Table.get_put]

/-- The record at a key after an erase. -/
theorem Table.get_erase (t : Table α) (j i : Nat) : (t.erase j).get i = if i = j then none else t.get i := by
  simp only [Table.get, Table.slot_erase]
  by_cases h : i = j <;> simp [h]

/-- The record at a key after its slot is Damaged. -/
theorem Table.get_damage (t : Table α) (j : Nat) (m : List Nat) (i : Nat) :
    (t.damage j m).get i = if i = j then none else t.get i := by
  simp only [Table.get, Table.slot_damage]
  by_cases h : i = j <;> simp [h]

@[simp] theorem Table.put_put (t : Table α) (j : Nat) (a b : α) : (t.put j a).put j b = t.put j b := by
  simp only [Table.put, slotPut_slotPut]

/-- The record at a key after a change of one record. -/
theorem Table.get_modify (t : Table α) (j : Nat) (f : α → α) (i : Nat) :
    (t.modify j f).get i = if i = j then (t.get i).map f else t.get i := by
  unfold Table.modify
  cases h : t.get j with
  | none =>
    simp only
    split
    · rename_i hi
      simp [hi, h]
    · rfl
  | some r =>
    simp only [Table.get_put]
    split
    · rename_i hi
      simp [hi, h]
    · rfl

@[simp] theorem Table.get_modify_self (t : Table α) (j : Nat) (f : α → α) :
    (t.modify j f).get j = (t.get j).map f := by simp [Table.get_modify]

/-- A change of a record that exists is a put. -/
theorem Table.modify_of_get {t : Table α} {j : Nat} {r : α} (h : t.get j = some r) (f : α → α) :
    t.modify j f = t.put j (f r) := by simp [Table.modify, h]

/-- A change of a record that does not exist is none. -/
theorem Table.modify_of_none {t : Table α} {j : Nat} (h : t.get j = none) (f : α → α) : t.modify j f = t := by
  simp [Table.modify, h]

/-- Two changes of one record are one. -/
theorem Table.modify_modify (t : Table α) (j : Nat) (f g : α → α) :
    (t.modify j f).modify j g = t.modify j (fun x => g (f x)) := by
  cases h : t.get j with
  | none => simp [Table.modify, h]
  | some r => simp [Table.modify, h]

/-- A slot after a change of one record: a slot that holds no record stays. -/
theorem Table.slot_modify_ne (t : Table α) (j : Nat) (f : α → α) {i : Nat} (h : i ≠ j) :
    (t.modify j f).slot i = t.slot i := by
  unfold Table.modify
  split
  · simp [h]
  · rfl

/-- The record at a key after a change of every record. -/
@[simp] theorem Table.get_map (t : Table α) (f : Nat → α → α) (i : Nat) :
    (t.map f).get i = (t.get i).map (f i) := by
  obtain ⟨l⟩ := t
  induction l with
  | nil => rfl
  | cons p rest ih =>
    obtain ⟨k, x⟩ := p
    simp only [Table.get, Table.slot, Table.map] at ih ⊢
    cases x with
    | held r =>
      simp only [List.map_cons, slotAt]
      by_cases h : i = k
      · subst h
        simp
      · simp only [h, if_false]
        exact ih
    | damaged m =>
      simp only [List.map_cons, slotAt]
      by_cases h : i = k
      · subst h
        simp
      · simp only [h, if_false]
        exact ih

/-! ## The canonical form of a table -/

/-- The keys after a put are the old ones and the new one. -/
theorem mem_keys_slotPut (l : List (Nat × Slot α)) (j : Nat) (y : Slot α) (i : Nat) :
    i ∈ (slotPut l j y).map (·.1) ↔ i = j ∨ i ∈ l.map (·.1) := by
  induction l with
  | nil => simp [slotPut]
  | cons p rest ih =>
    obtain ⟨k, x⟩ := p
    simp only [slotPut]
    split
    · simp
    · split
      · rename_i h
        subst h
        simp
      · simp only [List.map_cons, List.mem_cons, ih]
        tauto

/-- A put keeps the keys strictly rising. -/
theorem slotPut_rises (l : List (Nat × Slot α)) (j : Nat) (y : Slot α) (h : (l.map (·.1)).Pairwise (· < ·)) :
    ((slotPut l j y).map (·.1)).Pairwise (· < ·) := by
  induction l with
  | nil => simp [slotPut]
  | cons p rest ih =>
    obtain ⟨k, x⟩ := p
    simp only [List.map_cons, List.pairwise_cons] at h
    simp only [slotPut]
    split
    · rename_i hj
      simp only [List.map_cons, List.pairwise_cons]
      refine ⟨?_, h⟩
      intro a ha
      rcases List.mem_cons.1 ha with rfl | ha
      · exact hj
      · exact lt_trans hj (h.1 a ha)
    · split
      · simpa only [List.map_cons, List.pairwise_cons] using h
      · rename_i h1 h2
        simp only [List.map_cons, List.pairwise_cons]
        refine ⟨?_, ih h.2⟩
        intro a ha
        rcases (mem_keys_slotPut rest j y a).1 ha with rfl | ha
        · omega
        · exact h.1 a ha

/-- The canonical form: the keys strictly rise. -/
theorem Table.wf_iff (t : Table α) : t.wf = true ↔ (t.slots.map (·.1)).Pairwise (· < ·) := decide_eq_true_iff

theorem Table.wf_put {t : Table α} (h : t.wf) (k : Nat) (r : α) : (t.put k r).wf :=
  (Table.wf_iff _).2 (slotPut_rises _ _ _ ((Table.wf_iff _).1 h))

theorem Table.wf_damage {t : Table α} (h : t.wf) (k : Nat) (m : List Nat) : (t.damage k m).wf :=
  (Table.wf_iff _).2 (slotPut_rises _ _ _ ((Table.wf_iff _).1 h))

theorem Table.wf_modify {t : Table α} (h : t.wf) (k : Nat) (f : α → α) : (t.modify k f).wf := by
  unfold Table.modify
  split
  · exact Table.wf_put h _ _
  · exact h

theorem Table.wf_erase {t : Table α} (h : t.wf) (k : Nat) : (t.erase k).wf :=
  (Table.wf_iff _).2 (((Table.wf_iff _).1 h).sublist ((List.filter_sublist).map _))

theorem Table.wf_map {t : Table α} (h : t.wf) (f : Nat → α → α) : (t.map f).wf := by
  have e : (t.map f).slots.map (·.1) = t.slots.map (·.1) := by
    simp only [Table.map, List.map_map]
    apply List.map_congr_left
    intro p _
    obtain ⟨k, x⟩ := p
    cases x <;> rfl
  exact (Table.wf_iff _).2 (e ▸ (Table.wf_iff _).1 h)

theorem Table.wf_empty : (⟨[]⟩ : Table α).wf := rfl

/-- A slot of a table in canonical form is the one listed under its key. -/
theorem slotAt_of_mem {l : List (Nat × Slot α)} (h : (l.map (·.1)).Pairwise (· < ·)) {k : Nat} {x : Slot α}
    (hm : (k, x) ∈ l) : slotAt l k = some x := by
  induction l with
  | nil => simp at hm
  | cons p rest ih =>
    obtain ⟨j, y⟩ := p
    simp only [List.map_cons, List.pairwise_cons] at h
    rcases List.mem_cons.1 hm with he | hm
    · obtain ⟨rfl, rfl⟩ := Prod.mk.inj he
      simp [slotAt]
    · have : j < k := h.1 k (List.mem_map_of_mem (f := (·.1)) hm)
      have hne : k ≠ j := by omega
      simp only [slotAt, hne, if_false]
      exact ih h.2 hm

/-- A listed slot is found under its key or the key is listed before. -/
theorem mem_of_slotAt {l : List (Nat × Slot α)} {k : Nat} {x : Slot α} (h : slotAt l k = some x) : (k, x) ∈ l := by
  induction l with
  | nil => simp [slotAt] at h
  | cons p rest ih =>
    obtain ⟨j, y⟩ := p
    simp only [slotAt] at h
    split at h
    · rename_i hk
      obtain rfl := Option.some.inj h
      subst hk
      exact List.mem_cons_self
    · exact List.mem_cons_of_mem _ (ih h)

/-- A record of a table in canonical form is the record at its key. -/
theorem Table.mem_records {t : Table α} (h : t.wf) (k : Nat) (r : α) : (k, r) ∈ t.records ↔ t.get k = some r := by
  have h' := (Table.wf_iff _).1 h
  constructor
  · intro hm
    simp only [Table.records, List.mem_filterMap] at hm
    obtain ⟨⟨j, x⟩, hm, he⟩ := hm
    cases x with
    | damaged m => simp at he
    | held r' =>
      simp only [Option.some.injEq, Prod.mk.injEq] at he
      obtain ⟨rfl, rfl⟩ := he
      simp [Table.get, Table.slot, slotAt_of_mem h' hm]
  · intro hg
    simp only [Table.get, Table.slot] at hg
    cases hs : slotAt t.slots k with
    | none => rw [hs] at hg; simp at hg
    | some x =>
      rw [hs] at hg
      cases x with
      | damaged m => simp at hg
      | held r' =>
        simp only [Option.some.injEq] at hg
        subst hg
        simp only [Table.records, List.mem_filterMap]
        exact ⟨(k, .held r'), mem_of_slotAt hs, rfl⟩

end

/-! ## The Plan Store -/

/-- A word reads as the last one written; every other word reads as before. -/
theorem cellAt_cellPut (l : List (Nat × Word)) (hl : (l.map (·.1)).Pairwise (· < ·)) (a : Nat) (w : Word) (i : Nat) :
    cellAt (cellPut l a w) i = if i = a then w else cellAt l i := by
  have absent : ∀ (m : List (Nat × Word)) (b : Nat), (∀ c ∈ m.map (·.1), b < c) → cellAt m b = Config.blankStoreWord := by
    intro m
    induction m with
    | nil => intros; rfl
    | cons q rest ih =>
      intro b hb
      obtain ⟨c, y⟩ := q
      have hc : b < c := hb c (by simp)
      have hne : b ≠ c := by omega
      simp only [cellAt, hne, if_false]
      exact ih b (fun d hd => hb d (by simp only [List.map_cons, List.mem_cons]; exact Or.inr hd))
  induction l with
  | nil =>
    simp only [cellPut]
    by_cases hw : w = Config.blankStoreWord
    · simp only [hw, if_true, cellAt]
      split <;> rfl
    · simp only [hw, if_false, cellAt]
  | cons p rest ih =>
    obtain ⟨k, x⟩ := p
    simp only [List.map_cons, List.pairwise_cons] at hl
    simp only [cellPut]
    split
    · rename_i hak
      have hnone : ∀ c ∈ (((k, x) :: rest).map (·.1)), a < c := by
        intro c hc
        rcases List.mem_cons.1 hc with rfl | hc
        · exact hak
        · exact lt_trans hak (hl.1 c hc)
      split
      · rename_i hw
        by_cases hi : i = a
        · subst hi
          simp [absent _ _ hnone, hw]
        · simp [hi]
      · simp only [cellAt]
    · split
      · rename_i hk
        subst hk
        split
        · rename_i hw
          by_cases hi : i = a
          · subst hi
            simp [absent _ _ hl.1, hw]
          · simp [cellAt, hi]
        · simp only [cellAt]
          split <;> rfl
      · rename_i h1 h2
        simp only [cellAt, ih hl.2]
        by_cases hi : i = k
        · have : i ≠ a := by omega
          simp [hi]
          omega
        · simp [hi]

/-- The addresses after a write are old ones or the new one. -/
theorem mem_cellPut (l : List (Nat × Word)) (a : Nat) (w : Word) (p : Nat × Word) (h : p ∈ cellPut l a w) :
    p ∈ l ∨ (p = (a, w) ∧ w ≠ Config.blankStoreWord) := by
  induction l with
  | nil =>
    simp only [cellPut] at h
    split at h
    · simp at h
    · rename_i hw
      exact Or.inr ⟨by simpa using h, hw⟩
  | cons q rest ih =>
    obtain ⟨k, x⟩ := q
    simp only [cellPut] at h
    split at h
    · split at h
      · exact Or.inl h
      · rename_i hw
        rcases List.mem_cons.1 h with rfl | h
        · exact Or.inr ⟨rfl, hw⟩
        · exact Or.inl h
    · split at h
      · rename_i hk
        split at h
        · exact Or.inl (List.mem_cons_of_mem _ h)
        · rename_i hw
          rcases List.mem_cons.1 h with rfl | h
          · subst hk
            exact Or.inr ⟨rfl, hw⟩
          · exact Or.inl (List.mem_cons_of_mem _ h)
      · rcases List.mem_cons.1 h with rfl | h
        · exact Or.inl List.mem_cons_self
        · rcases ih h with h | h
          · exact Or.inl (List.mem_cons_of_mem _ h)
          · exact Or.inr h

/-- A write keeps the addresses strictly rising. -/
theorem cellPut_rises (l : List (Nat × Word)) (a : Nat) (w : Word) (h : (l.map (·.1)).Pairwise (· < ·)) :
    ((cellPut l a w).map (·.1)).Pairwise (· < ·) := by
  induction l with
  | nil =>
    simp only [cellPut]
    split <;> simp
  | cons p rest ih =>
    obtain ⟨k, x⟩ := p
    simp only [List.map_cons, List.pairwise_cons] at h
    have hc : (((k, x) :: rest).map (·.1)).Pairwise (· < ·) := by
      simpa only [List.map_cons, List.pairwise_cons] using h
    simp only [cellPut]
    split
    · rename_i hak
      split
      · exact hc
      · simp only [List.map_cons, List.pairwise_cons]
        refine ⟨?_, h⟩
        intro b hb
        rcases List.mem_cons.1 hb with rfl | hb
        · exact hak
        · exact lt_trans hak (h.1 b hb)
    · split
      · split
        · exact h.2
        · exact hc
      · rename_i h1 h2
        simp only [List.map_cons, List.pairwise_cons]
        refine ⟨?_, ih h.2⟩
        intro b hb
        obtain ⟨p, hp, rfl⟩ := List.mem_map.1 hb
        rcases mem_cellPut rest a w p hp with hp | ⟨rfl, _⟩
        · exact h.1 p.1 (List.mem_map_of_mem (f := (·.1)) hp)
        · show k < a
          omega

/-- Every memory operation keeps the canonical form. -/
theorem Memory.wf_write {m : Memory} (h : m.wf) (a : Nat) (w : Word) : (m.write a w).wf := by
  simp only [Memory.wf, Bool.and_eq_true, decide_eq_true_eq, List.all_eq_true, bne_iff_ne] at h ⊢
  refine ⟨cellPut_rises _ _ _ h.1, ?_⟩
  intro p hp
  rcases mem_cellPut _ _ _ p hp with hp | ⟨rfl, hw⟩
  · exact h.2 p hp
  · exact hw

theorem Memory.wf_writeAll {m : Memory} (h : m.wf) (ws : List (Nat × Word)) : (m.writeAll ws).wf := by
  unfold Memory.writeAll
  induction ws generalizing m with
  | nil => exact h
  | cons p rest ih => exact ih (Memory.wf_write h _ _)

/-- What a word of the store reads as after a write. -/
theorem Memory.read_write {m : Memory} (h : m.wf) (a : Nat) (w : Word) (i : Nat) :
    (m.write a w).read i = if i = a then w else m.read i := by
  simp only [Memory.wf, Bool.and_eq_true, decide_eq_true_eq] at h
  exact cellAt_cellPut _ h.1 _ _ _

end Sys2Proof.Machine
end

