-- ==== Sys2Proof/Laws/Orders.lean ====
section
/-! SUPPORT. What an activity can do; the taking of an order: what a busy port does, what a refusal leaves, what an accepted order is, and the tests that pass. -/

namespace Sys2Proof.Machine

/-- While no check code fails, no read finds a damaged record. -/
theorem State.firstBad_sound {s : State} (h : s.badCodes = []) (r : RecordId → Bool) : s.firstBad r = none := by
  unfold State.firstBad
  split
  · rfl
  · simp [h]

/-- While no check code fails, an activity is its effect. -/
theorem State.reading_sound {s : State} (h : s.badCodes = []) (a : Nat) (r : RecordId → Bool) (f : State → State) :
    s.reading a r f = f s := by
  simp [State.reading, State.firstBad_sound h]

/-- While no check code fails, a cascade that reads further records is its effect. -/
theorem State.touchingWith_sound {s : State} (h : s.badCodes = []) (a : Nat) (more : State → RecordId → Bool)
    (f : State → State) : s.touchingWith a more f = f s := by
  simp [State.touchingWith, h]

/-- While no check code fails, a cascade is its effect. -/
theorem State.touching_sound {s : State} (h : s.badCodes = []) (a : Nat) (f : State → State) : s.touching a f = f s :=
  State.touchingWith_sound h a _ f

/-- While no check code fails, an activity with its cascade is its effect. -/
theorem State.acting_sound {s : State} (h : s.badCodes = []) (a : Nat) (r : RecordId → Bool) (f : State → State) :
    s.acting a r f = f s := by
  rw [State.acting, State.reading_sound h, State.touching_sound h]

/-- While no check code fails, a read of a record does not. -/
theorem State.readFails_sound {s : State} (h : s.badCodes = []) (r : RecordId) : s.readFails r = false := by
  simp [State.readFails, State.firstBad_sound h]

/-- While no check code fails, an engine that looks for a candidate reads sound records. -/
theorem State.checkBegun_sound {s : State} (h : s.badCodes = []) : s.checkBegun = s := by
  unfold State.checkBegun
  repeat' split
  all_goals first | rfl | exact State.reading_sound h _ _ _

/-- An activity is its effect, or a check failure of a record that it reads. -/
theorem State.reading_cases (s : State) (a : Nat) (rs : RecordId → Bool) (f : State → State) :
    s.reading a rs f = f s ∨ ∃ r, s.firstBad rs = some r ∧ s.reading a rs f = s.checkFailure r a := by
  unfold State.reading
  split
  · next r h => exact .inr ⟨r, h, rfl⟩
  · exact .inl rfl

/-- An engine that has looked changes nothing more, or meets a check failure. -/
theorem State.checkBegun_cases (s : State) :
    s.checkBegun = s ∨ ∃ r, s.checkBegun = s.checkFailure r Activity.check := by
  unfold State.checkBegun
  repeat' split
  · rcases s.reading_cases Activity.check (fun r => r.table = .carrier) id with h | ⟨r, _, h⟩
    · exact .inl h
    · exact .inr ⟨r, h⟩
  · next k _ =>
    rcases s.reading_cases Activity.check (s.checkReads k.carrier) id with h | ⟨r, _, h⟩
    · exact .inl h
    · exact .inr ⟨r, h⟩
  · exact .inl rfl

/-- A cascade that reads further records is its effect, its effect with the failure of a check that it began, or a check
failure in its place. -/
theorem State.touchingWith_cases (s : State) (a : Nat) (more : State → RecordId → Bool) (f : State → State) :
    s.touchingWith a more f = f s ∨ (∃ r, s.touchingWith a more f = (f s).checkFailure r Activity.check) ∨
      ∃ r, s.touchingWith a more f = s.checkFailure r a := by
  unfold State.touchingWith
  repeat' split
  · exact .inl rfl
  · next r _ => exact .inr (.inr ⟨r, rfl⟩)
  · exact .inl rfl
  · rcases (f s).checkBegun_cases with h | ⟨r, h⟩
    · exact .inl h
    · exact .inr (.inl ⟨r, h⟩)

/-- A cascade is its effect, its effect with the failure of a check that it began, or a check failure in its place. -/
theorem State.touching_cases (s : State) (a : Nat) (f : State → State) :
    s.touching a f = f s ∨ (∃ r, s.touching a f = (f s).checkFailure r Activity.check) ∨
      ∃ r, s.touching a f = s.checkFailure r a :=
  s.touchingWith_cases a _ f

/-- A cascade that would read a damaged record among the further ones has no effect: the failure comes in its place (R181). -/
theorem State.touchingWith_interrupted {s : State} {more : State → RecordId → Bool} {f : State → State} {r : RecordId}
    (h : s.firstBad (fun q => s.cascadeReads (f s) q || more s q) = some r) (a : Nat) :
    s.touchingWith a more f = s.checkFailure r a := by
  unfold State.touchingWith
  rw [h, if_neg]
  intro hb
  rw [State.firstBad_sound (List.isEmpty_iff.mp hb)] at h
  cases h

/-- An activity with its cascade is its effect, its effect with the failure of a check that it began, or a check failure
in its place. -/
theorem State.acting_cases (s : State) (a : Nat) (rs : RecordId → Bool) (f : State → State) :
    s.acting a rs f = f s ∨ (∃ r, s.acting a rs f = (f s).checkFailure r Activity.check) ∨
      ∃ r, s.acting a rs f = s.checkFailure r a := by
  rcases s.reading_cases a rs (·.touching a f) with h | ⟨r, _, h⟩
  · rw [State.acting, h]
    exact s.touching_cases a f
  · exact .inr (.inr ⟨r, h⟩)

/-- A save that goes on moves its place, its words and the count of draws alone. -/
theorem State.saveGoesOn_frame (s : State) :
    ∃ p ws d, s.saveGoesOn = { s with savePlace := p, saveWritten := ws, draws := d } := by
  unfold State.saveGoesOn
  split
  · exact ⟨_, _, _, rfl⟩
  · exact ⟨s.savePlace, s.saveWritten, s.draws, rfl⟩

/-- While no check code fails, the engine's next candidate is the head of the Check Queue, else the first carrier that is
restore pending. -/
theorem State.nextCandidate_sound {s : State} (h : s.badCodes = []) :
    s.nextCandidate = match s.checkQueue with
      | c :: rest => some (c, { s with checkQueue := rest })
      | [] => (s.carriers.records.find? (fun p => p.2.restorePending)).map
          (fun p => (p.1, s.modCarrier p.1 (fun y => { y with restorePending := false }))) := by
  unfold State.nextCandidate
  simp only [State.readFails_sound h, Bool.or_false, Bool.false_eq_true, if_false]
  cases s.checkQueue with
  | cons c rest => rfl
  | nil =>
    cases s.carriers.records.find? (fun p => p.2.restorePending) with
    | none => rfl
    | some p => rfl

/-- While no check code fails, a check that begins is decided by its window stage. -/
theorem State.beginCheck_sound {s : State} (h : s.badCodes = []) {c : Nat} {y : Carrier} (hy : s.carrier c = some y) :
    s.beginCheck c = match s.windowStage y with
      | some kind => s.enterConflict c kind []
      | none => { s with engine := some ⟨c, s.laterStages c y⟩ } := by
  simp only [State.beginCheck, hy, State.firstBad_sound h]
  rfl

/-- A check failure in service, on a record but the Part record and while the tables stand, begins fault handling. -/
theorem State.checkFailure_inService {s : State} {r : RecordId} (hr : r.table ≠ .part) (hs : s.service = .inService)
    (hd : s.tablesDown = false) (a : Nat) : s.checkFailure r a = s.beginFault r a := by
  simp [State.checkFailure, hr, hs, hd]

/-- While no check code fails, no record is under quarantine. -/
theorem State.quarantined_sound {s : State} (h : s.badCodes = []) : s.quarantined = none := by
  unfold State.quarantined
  split <;> simp [h]

/-- While no record is under quarantine, an activity beside it is the activity. -/
theorem State.beside_none {s : State} (h : s.quarantined = none) (f : State → State) : s.beside f = f s := by
  simp [State.beside, h]

/-- While no check code fails, an activity beside the record under quarantine is the activity. -/
theorem State.beside_sound {s : State} (h : s.badCodes = []) (f : State → State) : s.beside f = f s :=
  State.beside_none (State.quarantined_sound h) f

/-- Outside Fault Handling no record is under quarantine. -/
theorem State.quarantined_service {s : State} (h : s.service ≠ .faultHandling) : s.quarantined = none := by
  unfold State.quarantined
  split
  · next hs _ => exact absurd hs h
  · rfl

/-- In Halted no read finds a damaged record. -/
theorem State.firstBad_halted {s : State} (h : s.service = .halted) (r : RecordId → Bool) : s.firstBad r = none := by
  simp [State.firstBad, h]

/-- A read of sound records finds none. -/
theorem State.firstBad_none {s : State} {reads : RecordId → Bool}
    (h : ∀ r ∈ s.badCodes, reads r = true → s.quarantined = some r) : s.firstBad reads = none := by
  unfold State.firstBad
  split
  · rfl
  · refine List.find?_eq_none.mpr fun r hr => ?_
    by_cases hq : reads r = true
    · simp [h r hr hq]
    · simp [hq]

/-- With no damaged record but the one under quarantine, an activity is its effect. -/
theorem State.reading_beside {s : State} (h : s.soundBeside) (a : Nat) (r : RecordId → Bool) (f : State → State) :
    s.reading a r f = f s := by
  simp [State.reading, State.firstBad_none (fun q hq _ => h q hq)]

/-- What reads a sound Part record is its effect; in Halted nothing is read. -/
theorem State.readingPart_sound {s : State} (h : ⟨.part, 0⟩ ∉ s.badCodes ∨ s.service = .halted) (a : Nat)
    (f : State → State) : s.readingPart a f = f s := by
  unfold State.readingPart State.reading
  rcases h with h | h
  · rw [State.firstBad_none]
    intro r hr hp
    exact absurd (of_decide_eq_true hp ▸ hr) h
  · rw [State.firstBad_halted h]

/-- Placing a record of an image damages none. -/
@[simp] theorem State.placeRecord_badCodes (s : State) (kind key : Nat) (ws : List Word) :
    (s.placeRecord kind key ws).badCodes = s.badCodes := by
  unfold State.placeRecord
  repeat' split
  all_goals rfl

/-- Reading the records of an image damages none. -/
theorem readRecords_badCodes (m : Memory) (limit : Option Nat) (fuel a : Nat) (sum : Word) (s : State) :
    (readRecords m limit fuel a sum s).state.badCodes = s.badCodes := by
  induction fuel generalizing a sum s with
  | zero => rfl
  | succ n ih =>
    unfold readRecords
    dsimp only
    repeat' split
    all_goals first | rfl | rw [ih, State.placeRecord_badCodes]

/-- Reading an image damages no record. -/
theorem State.readImage_badCodes (s : State) (limit : Option Nat) :
    (s.readImage limit).state.badCodes = s.badCodes := by
  unfold State.readImage
  repeat' split
  all_goals first | rfl | exact readRecords_badCodes ..

/-- A load leaves damaged the Unit records that were, and no other record. -/
theorem State.loadPlan_badCodes (s : State) (limit : Option Nat) :
    (s.loadPlan limit).badCodes = s.badCodes.filter (fun r => r.table = .unit) := by
  have h : (if (s.emptyPlan.readImage limit).code = 0 then (s.emptyPlan.readImage limit).state else s.emptyPlan).badCodes =
      s.badCodes := by
    split
    · exact State.readImage_badCodes _ _
    · rfl
  exact congrArg _ h

/-- A load of sound records is made, and the work after it follows. -/
theorem State.loadThen_sound {s : State} (h : s.badCodes = []) (n : Option Nat) (work : State → State) :
    s.loadThen n work = work (s.loadPlan n) := by
  unfold State.loadThen
  rw [State.readingPart_sound (.inl (by simp [h]))]
  exact State.reading_sound (by simp [State.loadPlan_badCodes, h]) _ _ _

/-- A sending leaves the send attempts at 3 at most. -/
theorem Entry.resent_attempts (e : Entry) : e.resent.attempts ≤ 3 := Nat.min_le_left _ _

/-- A sending changes nothing of an entry but that it is Sent and its attempts. -/
theorem Entry.resent_frame (e : Entry) :
    e.resent = { e with sent := true, attempts := e.resent.attempts } := rfl

/-- A quarantine does its next stage, or stops before it with a check failure. -/
theorem quarantineRuns_cases (p : List TableId × (State → State)) (rest : List (List TableId × (State → State)))
    (last : State → State) (s : State) :
    quarantineRuns (p :: rest) last s = quarantineRuns rest last (p.2 s) ∨
      ∃ r, quarantineRuns (p :: rest) last s = s.checkFailure r Activity.notice := by
  rcases s.reading_cases Activity.notice (s.stageReads p) (fun s => quarantineRuns rest last (p.2 s)) with h | ⟨r, _, h⟩
  · exact .inl h
  · exact .inr ⟨r, h⟩

/-- A save that goes on while none is running changes nothing. -/
theorem State.saveGoesOn_idle {s : State} (h : s.saving = false) : s.saveGoesOn = s := by
  simp [State.saveGoesOn, h]

/-- A timer whose records are sound runs out. -/
theorem State.timer_sound {s : State} (hr : s.running = true) (h : s.badCodes = []) (rs : List RecordId)
    (f : State → State) : s.timer rs f = f s := by
  simp [State.timer, hr, State.beside_sound h, State.acting_sound h]

/-! ## Tests -/

/-- No test fails exactly when every test passes. -/
theorem firstFailing_eq_none (ts : List Check1) : firstFailing ts = none ↔ ∀ t ∈ ts, t.1 = false := by
  induction ts with
  | nil => simp [firstFailing]
  | cons t rest ih =>
    obtain ⟨b, r⟩ := t
    cases b <;> simp [firstFailing, ih]

@[simp] theorem firstFailing_nil : firstFailing [] = none := rfl

@[simp] theorem firstFailing_cons (t : Check1) (ts : List Check1) :
    firstFailing (t :: ts) = if t.1 then some t.2 else firstFailing ts := by
  obtain ⟨b, r⟩ := t
  cases b <;> rfl

@[simp] theorem failIf_fst (b : Bool) (st : Status) (d : Nat) : (failIf b st d).1 = b := rfl

@[simp] theorem failIf_snd (b : Bool) (st : Status) (d : Nat) : (failIf b st d).2 = ⟨st, d, []⟩ := rfl

/-- Tests that pass, one list after the other. -/
theorem passes_append {a b : List Check1} (ha : firstFailing a = none) (hb : firstFailing b = none) :
    firstFailing (a ++ b) = none := by
  rw [firstFailing_eq_none] at *
  intro t ht
  rcases List.mem_append.1 ht with h | h
  · exact ha t h
  · exact hb t h

/-- A test that passes before tests that pass. -/
theorem passes_cons {a : Check1} {b : List Check1} (ha : a.1 = false) (hb : firstFailing b = none) :
    firstFailing (a :: b) = none := by
  rw [firstFailing_cons, ha]
  exact hb

/-- An order whose count of words lies between bounds has no more than the upper one. -/
theorem evenCount_le {lo hi : Nat} {ws : List Word} (h : evenCount lo hi ws = true) : ws.length ≤ hi := by
  unfold evenCount at h
  simp only [Bool.and_eq_true, decide_eq_true_eq] at h
  omega

/-- A right that is held passes. -/
theorem State.lacks_fst {s : State} {o : Order} {r : Right} (h : s.holdsRight o r) (d : Nat) :
    (s.lacks o r d).1 = false := by
  have : s.hasRight o.operator.val r = true := h
  simp [State.lacks, this]

/-- A free claim passes. -/
theorem claimHold_fst {o : Order} {c : Option Nat} (h : claimFree o c) : (claimHold o c).1 = false := by
  rcases h with h | h <;> subst h <;> simp [claimHold]

/-- A free plan passes the freeze. -/
theorem State.freezeHold_fst {s : State} {o : Order} (h : s.freezeFree o) : (s.freezeHold o).1 = false := by
  unfold State.freezeHold
  rcases h with h | h | h
  · simp [h]
  · simp [h]
  · split <;> simp [h]

/-- No running save passes the store-busy hold. -/
theorem State.saveHold_fst {s : State} (h : s.saving = false) : s.saveHold.1 = false := by
  simp [State.saveHold, h]

/-- A free plan passes the freeze and the store-busy hold. -/
theorem State.passes_holds {s : State} {o : Order} (h : s.planFree o) : firstFailing (s.holds o) = none :=
  passes_cons (State.freezeHold_fst h.1) (passes_cons (State.saveHold_fst h.2) firstFailing_nil)

/-- A station that is not on the air, or Force, passes the on-air hold. -/
theorem State.airHold_fst {s : State} {o : Order} {b : Bool} (h : b = false ∨ s.forced o = true) :
    (s.airHold o b).1 = false := by
  rcases h with h | h <;> simp [State.airHold, failIf, h]

/-! ## The gate -/

/-- A busy port discards an order and sets Overrun (R160). -/
theorem State.gate_busy {s : State} (h : s.port ≠ .idle) (o : Order) (a : Nat) (c : Bool) (d : Option Nat)
    (reads : RecordId → Bool) (ts : List Check1) (f : State → State) :
    s.gate o a c d reads ts f = (s.clockZeros (9 + 2 * o.params.length)).latchOverrun := by
  unfold State.gate
  cases hp : s.port with
  | idle => exact absurd hp h
  | processing k => rfl
  | pending k => rfl

/-- An order that the service state lets through and whose count fits is decided by its tests. -/
theorem State.gate_open {s : State} (hp : s.port = .idle) (hb : s.badCodes = []) {o : Order} (hl : o.params.length ≤ 16)
    (a : Nat) (reads : RecordId → Bool) (ts : List Check1) (f : State → State) :
    s.gate o a true none reads ts f =
      match firstFailing ts with
      | some r => s.answered o r.status r.detail r.words
      | none => f ((s.clockZeros (9 + 2 * o.params.length)).process o) := by
  have h16 : ¬ 16 < o.params.length := by omega
  have hs : ((s.clockZeros (9 + 2 * o.params.length)).process o).badCodes = [] := hb
  unfold State.gate
  simp only [hp, h16, if_false, Bool.not_true, Bool.false_eq_true, State.reading_sound hs]
  cases firstFailing ts <;> rfl

/-- The service state lets orders through. -/
theorem State.serviceDetail_inService {s : State} (h : s.service = .inService) : s.serviceDetail = none := by
  simp [State.serviceDetail, h]

/-- An order whose tests pass is accepted, whatever further records its cascade reads: its effect, then its answer. -/
theorem State.takeOrderWith_accept {s : State} (h : s.takes) {o : Order} (hl : o.params.length ≤ 16) {c : Bool}
    (hc : c = true) {ts : List Check1} (ht : firstFailing ts = none) (a : Nat) (reads : RecordId → Bool)
    (more : State → RecordId → Bool) (f : State → State × Reply) :
    s.takeOrderWith o a c reads ts more f =
      (f ((s.clockZeros (9 + 2 * o.params.length)).process o)).1.answer
        (f ((s.clockZeros (9 + 2 * o.params.length)).process o)).2 := by
  obtain ⟨h1, h2, h3⟩ := h
  subst hc
  rw [State.takeOrderWith, State.serviceDetail_inService h1, State.gate_open h2 h3 hl, ht]
  exact State.touchingWith_sound (s := (s.clockZeros _).process o) h3 _ _ _

/-- An order whose tests pass is accepted: its effect, then its answer. -/
theorem State.takeOrder_accept {s : State} (h : s.takes) {o : Order} (hl : o.params.length ≤ 16) {c : Bool} (hc : c = true)
    {ts : List Check1} (ht : firstFailing ts = none) (a : Nat) (reads : RecordId → Bool)
    (f : State → State × Reply) :
    s.takeOrder o a c reads ts f =
      (f ((s.clockZeros (9 + 2 * o.params.length)).process o)).1.answer
        (f ((s.clockZeros (9 + 2 * o.params.length)).process o)).2 :=
  State.takeOrderWith_accept h hl hc ht a reads _ f

/-- An order whose first failing test is known is refused with it, whatever further records its cascade would read. -/
theorem State.takeOrderWith_refuse {s : State} (h : s.takes) {o : Order} (hl : o.params.length ≤ 16) {c : Bool}
    (hc : c = true) {ts : List Check1} {r : Refuse} (ht : firstFailing ts = some r) (a : Nat) (reads : RecordId → Bool)
    (more : State → RecordId → Bool) (f : State → State × Reply) :
    s.takeOrderWith o a c reads ts more f = s.answered o r.status r.detail r.words := by
  obtain ⟨h1, h2, h3⟩ := h
  subst hc
  rw [State.takeOrderWith, State.serviceDetail_inService h1, State.gate_open h2 h3 hl, ht]

/-- An order whose first failing test is known is refused with it, and nothing else changes. -/
theorem State.takeOrder_refuse {s : State} (h : s.takes) {o : Order} (hl : o.params.length ≤ 16) {c : Bool} (hc : c = true)
    {ts : List Check1} {r : Refuse} (ht : firstFailing ts = some r) (a : Nat) (reads : RecordId → Bool)
    (f : State → State × Reply) :
    s.takeOrder o a c reads ts f = s.answered o r.status r.detail r.words :=
  State.takeOrderWith_refuse h hl hc ht a reads _ f

/-! ## The step -/

/-- A step runs the command at the front of the queue. -/
theorem step_cons {s : State} {c : Instr} {rest : List Instr} (h : s.pending = c :: rest) :
    step s = exec c { s with pending := rest } := by
  unfold step
  rw [h]

/-- A step on an empty queue is a millisecond. -/
theorem step_nil {s : State} (h : s.pending = []) : step s = .next s.tick := by
  unfold step
  rw [h]

end Sys2Proof.Machine
end

