-- ==== Sys2Proof/Laws/Cascade.lean ====
section
/-! SUPPORT. The cascades between the blocks, said once: a property of states that the changes of a cascade's records keep is kept by the cascade. -/

namespace Sys2Proof.Machine

/-- A property that the notices keep: changes of stations beside their core, of conferences, of the Directive Queue
within its capacity and of the final deliveries keep it. -/
structure Soft (P : State → Prop) : Prop where
  modStation : ∀ {s : State} {k : Nat} {f : Station → Station}, (∀ x, (f x).core = x.core) → P s → P (s.modStation k f)
  modConference : ∀ {s : State} {k : Nat} {f : Conference → Conference}, P s → P (s.modConference k f)
  withQueue : ∀ {s : State} {q : List Entry}, q.length ≤ max s.queue.length Config.directiveQueueSize → P s →
    P { s with queue := q }
  withFinals : ∀ {s : State} {q : List Final}, P s → P { s with finals := q }

/-- A property that every change of stations, carriers, conferences, the Directive Queue within its capacity and the
final deliveries keeps. -/
structure Broad (P : State → Prop) : Prop where
  modStation : ∀ {s : State} {k : Nat} {f : Station → Station}, P s → P (s.modStation k f)
  modCarrier : ∀ {s : State} {k : Nat} {f : Carrier → Carrier}, P s → P (s.modCarrier k f)
  modConference : ∀ {s : State} {k : Nat} {f : Conference → Conference}, P s → P (s.modConference k f)
  withQueue : ∀ {s : State} {q : List Entry}, q.length ≤ max s.queue.length Config.directiveQueueSize → P s →
    P { s with queue := q }
  withFinals : ∀ {s : State} {q : List Final}, P s → P { s with finals := q }

theorem Broad.soft {P : State → Prop} (hc : Broad P) : Soft P :=
  ⟨fun _ h => hc.modStation h, hc.modConference, hc.withQueue, hc.withFinals⟩

/-- A step of a fold that keeps a property keeps it to the end. -/
theorem State.forEach_keeps {P : State → Prop} {α : Type} {s : State} (h : P s) (xs : List α) {f : State → α → State}
    (hf : ∀ t x, P t → P (f t x)) : P (s.forEach xs f) := by
  unfold State.forEach
  induction xs generalizing s with
  | nil => exact h
  | cons x rest ih => exact ih (hf s x h)

section
variable {P : State → Prop}

theorem Soft.markStation (hc : Soft P) {s : State} (h : P s) (k x : Nat) : P (s.markStation k x) :=
  hc.modStation (fun _ => rfl) h
theorem Soft.markConference (hc : Soft P) {s : State} (h : P s) (k x : Nat) : P (s.markConference k x) :=
  hc.modConference h
theorem Broad.markCarrier (hc : Broad P) {s : State} (h : P s) (k x : Nat) : P (s.markCarrier k x) := hc.modCarrier h

/-! ## Deliveries -/

theorem Soft.modFinal (hc : Soft P) {s : State} (h : P s) (kd : DeliveryKind) (k : Nat) (f : Final → Final) :
    P (s.modFinal kd k f) :=
  hc.withFinals h

theorem Soft.dropFinal (hc : Soft P) {s : State} (h : P s) (kd : DeliveryKind) (k : Nat) : P (s.dropFinal kd k) :=
  hc.withFinals h

theorem Soft.setBase (hc : Soft P) {s : State} (h : P s) (kd : DeliveryKind) (k : Nat) (b : DeliveryBase) :
    P (s.setBase kd k b) := by
  unfold State.setBase
  repeat' split
  all_goals repeat' with_reducible first
    | exact h
    | (intro _; rfl)
    | apply hc.modStation
    | apply hc.modConference
    | apply hc.dropFinal
    | apply hc.modFinal

theorem Soft.appendEntry (hc : Soft P) {s : State} (h : P s) (hq : s.queue.length < Config.directiveQueueSize) (u : Nat)
    (kd : DeliveryKind) (k : Nat) (x : Content) : P (s.appendEntry u kd k x) :=
  hc.withQueue (by rw [List.length_append]; exact le_trans hq (le_max_right _ _)) h

theorem Soft.replaceEntry (hc : Soft P) {s : State} (h : P s) (u : Nat) (kd : DeliveryKind) (k : Nat) (x : Content) :
    P (s.replaceEntry u kd k x) := hc.withQueue (by rw [List.length_map]; exact le_max_left _ _) h

theorem State.setBase_queue (s : State) (kd : DeliveryKind) (k : Nat) (b : DeliveryBase) :
    (s.setBase kd k b).queue = s.queue := by
  unfold State.setBase
  repeat' split
  all_goals rfl

theorem Soft.decideDelivery (hc : Soft P) {s : State} (h : P s) (kd : DeliveryKind) (k : Nat) :
    P (s.decideDelivery kd k) := by
  unfold State.decideDelivery
  split
  · exact h
  · split
    · exact hc.replaceEntry (hc.setBase h _ _ _) _ _ _ _
    · split
      · exact hc.setBase h _ _ _
      · split
        · exact hc.setBase h _ _ _
        · split
          · rename_i hq
            simp only [Bool.and_eq_true, decide_eq_true_eq] at hq
            exact hc.appendEntry (hc.setBase h _ _ _) (by rw [State.setBase_queue]; exact hq.2) _ _ _ _
          · exact hc.setBase h _ _ _

theorem Soft.hand (hc : Soft P) {s : State} (h : P s) (kd : DeliveryKind) (k : Nat) : P (s.hand kd k) := by
  unfold State.hand
  repeat' split
  all_goals repeat' with_reducible first
    | exact h
    | apply hc.decideDelivery

theorem Soft.fillQueue (hc : Soft P) {s : State} (h : P s) : P s.fillQueue := by
  refine State.forEach_keeps h _ (fun t p ht => ?_)
  unfold State.scanOne
  repeat' split
  all_goals repeat' with_reducible first
    | exact ht
    | apply hc.decideDelivery

theorem Soft.removeEntries (hc : Soft P) {s : State} (h : P s) (p : Entry → Bool) : P (s.removeEntries p) := by
  unfold State.removeEntries
  split
  · exact hc.fillQueue (hc.withQueue (le_trans (List.length_filter_le _ _) (le_max_left _ _)) h)
  · exact h

theorem Soft.withdraw (hc : Soft P) {s : State} (h : P s) (p : Entry → Bool) : P (s.withdraw p) :=
  hc.removeEntries (hc.withQueue (by simp) h) _

theorem Soft.takeOver (hc : Soft P) {s : State} (h : P s) (f : Final) (b : Bool) : P (s.takeOver f b) := by
  have e : P { s.dropFinal f.kind f.target with finals := (s.dropFinal f.kind f.target).finals ++ [f] } :=
    hc.withFinals (hc.dropFinal h _ _)
  unfold State.takeOver
  dsimp only
  generalize ({ s.dropFinal f.kind f.target with finals := (s.dropFinal f.kind f.target).finals ++ [f] } : State) = t
    at e ⊢
  repeat' split
  all_goals repeat' with_reducible first
    | exact e
    | apply hc.dropFinal
    | apply hc.decideDelivery

/-! ## Conferences -/

theorem Soft.recomputeRouting (hc : Soft P) {s : State} (h : P s) (cc : Nat) : P (s.recomputeRouting cc) := by
  unfold State.recomputeRouting
  repeat' split
  all_goals repeat' with_reducible first
    | exact h
    | apply hc.modConference
    | apply hc.hand

theorem Soft.presenceNotice (hc : Soft P) {s : State} (h : P s) (k : Nat) (b : Bool) : P (s.presenceNotice k b) := by
  refine State.forEach_keeps h _ (fun t c ht => ?_)
  repeat' split
  all_goals repeat' with_reducible first
    | exact ht
    | apply hc.modConference
    | apply hc.recomputeRouting

theorem Soft.serveList (hc : Soft P) {s : State} (h : P s) (ov : FollowOverride) (b : Bool) (k : Nat) (ps : List Nat) :
    P (Machine.serveList ov b k ps s) := by
  induction ps generalizing s with
  | nil => exact h
  | cons p rest ih =>
    unfold Machine.serveList
    dsimp only
    split
    · exact ih (hc.markConference (hc.modConference h) _ _)
    · split
      · exact hc.modConference (hc.modConference h)
      · exact hc.markConference (hc.modConference (hc.modConference h)) _ _

theorem Soft.serveWaitList (hc : Soft P) {s : State} (h : P s) (ov : FollowOverride) (b : Bool) (cc : Nat) :
    P (s.serveWaitList ov b cc) := by
  unfold State.serveWaitList
  split
  · exact h
  · exact hc.serveList h _ _ _ _

theorem Soft.recomputeFollow (hc : Soft P) {s : State} (h : P s) (ov : FollowOverride) (p cc : Nat) :
    P (s.recomputeFollow ov p cc) := by
  unfold State.recomputeFollow State.followLeaves State.followJoins
  dsimp only
  repeat' split
  all_goals repeat' with_reducible first
    | exact h
    | apply hc.modConference
    | apply hc.markConference
    | apply hc.serveWaitList
    | apply hc.recomputeRouting
    | apply hc.markStation

theorem Soft.contributionNotice (hc : Soft P) {s : State} (h : P s) (k : Nat) (gs : List Nat) :
    P (s.contributionNotice k gs) := by
  unfold State.contributionNotice
  split
  · exact h
  · refine State.forEach_keeps h _ (fun t _ ht => ?_)
    split
    · exact hc.recomputeFollow ht _ _ _
    · exact ht

theorem Soft.followNotice (hc : Soft P) {s : State} (h : P s) (g : Nat) (a b : Option Nat) : P (s.followNotice g a b) := by
  unfold State.followNotice
  split
  · exact h
  · refine State.forEach_keeps h _ (fun t k ht => ?_)
    dsimp only
    repeat' split
    all_goals repeat' with_reducible first
      | exact ht
      | apply hc.recomputeFollow

theorem Soft.recomputeEverywhere (hc : Soft P) {s : State} (h : P s) (ov : FollowOverride) (p : Nat)
    (also : State → Nat → Bool) : P (s.recomputeEverywhere ov p also) := by
  refine State.forEach_keeps h _ (fun t c ht => ?_)
  repeat' split
  all_goals repeat' with_reducible first
    | exact ht
    | apply hc.recomputeFollow

theorem Soft.pairNotice (hc : Soft P) {s : State} (h : P s) (k : Nat) (a b : Option Nat) : P (s.pairNotice k a b) := by
  unfold State.pairNotice
  dsimp only
  cases a <;> cases b
  all_goals repeat' with_reducible first
    | exact h
    | apply hc.recomputeEverywhere

theorem Soft.talkPress (hc : Soft P) {s : State} (h : P s) (cc : Nat) (id : Source) : P (s.talkPress cc id) := by
  unfold State.talkPress
  dsimp only
  repeat' split
  all_goals repeat' with_reducible first
    | exact h
    | apply hc.modConference
    | apply hc.markConference
    | apply hc.recomputeRouting

theorem Soft.talkRelease (hc : Soft P) {s : State} (h : P s) (cc : Nat) (id : Source) : P (s.talkRelease cc id) := by
  unfold State.talkRelease
  repeat' split
  all_goals repeat' with_reducible first
    | exact h
    | apply hc.modConference
    | apply hc.recomputeRouting

theorem Soft.dropTalkers (hc : Soft P) {s : State} (h : P s) : P s.dropTalkers := by
  refine State.forEach_keeps h _ (fun t c ht => ?_)
  repeat' split
  all_goals repeat' with_reducible first
    | exact ht
    | apply hc.modConference
    | apply hc.markConference
    | apply hc.recomputeRouting

/-! ## Tally and lamps -/

theorem Soft.recomputeLamp (hc : Soft P) {s : State} (h : P s) (k : Nat) : P (s.recomputeLamp k) := by
  unfold State.recomputeLamp
  dsimp only
  repeat' split
  all_goals repeat' with_reducible first
    | exact h
    | (intro _; rfl)
    | apply hc.modStation
    | apply hc.hand

theorem Soft.recomputeLamps (hc : Soft P) {s : State} (h : P s) (k : Nat) : P (s.recomputeLamps k) := by
  unfold State.recomputeLamps
  dsimp only
  repeat' split
  all_goals repeat' with_reducible first
    | exact h
    | apply hc.recomputeLamp

theorem Soft.lampOff (hc : Soft P) {s : State} (h : P s) (k : Nat) : P (s.lampOff k) :=
  hc.withdraw (hc.modStation (f := fun x => { x with deliveredLamp := none }) (fun _ => rfl) h) _

theorem Soft.lampOn (hc : Soft P) {s : State} (h : P s) (k : Nat) : P (s.lampOn k) :=
  hc.decideDelivery (hc.modStation (f := fun x => { x with deliveredLamp := none }) (fun _ => rfl) h) _ _

theorem Broad.derivedActs (hc : Broad P) {s : State} (h : P s) (d : Derived) : P (s.derivedActs d) := by
  unfold State.derivedActs
  dsimp only
  repeat' split
  all_goals repeat' with_reducible first
    | exact h
    | apply hc.soft.markStation
    | apply hc.soft.recomputeLamps
    | apply hc.soft.contributionNotice

theorem Broad.derive (hc : Broad P) {s : State} (h : P s) (ks : List Nat) : P (s.derive ks) := by
  unfold State.derive
  exact State.forEach_keeps (State.forEach_keeps h _ (fun t d ht => hc.modStation ht)) _ (fun t d ht => hc.derivedActs ht d)

theorem Broad.startCall (hc : Broad P) {s : State} (h : P s) (k : Nat) : P (s.startCall k) :=
  hc.soft.recomputeLamps (hc.modStation h) _

theorem Broad.endCallMarked (hc : Broad P) {s : State} (h : P s) (k x : Nat) : P (s.endCallMarked k x) := by
  unfold State.endCallMarked State.endCall
  split
  · exact hc.soft.markStation (hc.modStation h) _ _
  · exact h

theorem Broad.callPress (hc : Broad P) {s : State} (h : P s) (k : Nat) : P (s.callPress k) := by
  unfold State.callPress
  repeat' split
  all_goals repeat' with_reducible first
    | exact h
    | apply hc.startCall
    | apply hc.soft.markStation

theorem Broad.answerPress (hc : Broad P) {s : State} (h : P s) (k : Nat) : P (s.answerPress k) := by
  unfold State.answerPress
  dsimp only
  repeat' split
  all_goals repeat' with_reducible first
    | exact h
    | apply hc.endCallMarked
    | apply hc.soft.recomputeLamps

theorem Soft.pairsChanged (hc : Soft P) {s : State} (h : P s) (cs : List (Nat × Option Nat × Option Nat)) :
    P (s.pairsChanged cs) := by
  unfold State.pairsChanged
  refine State.forEach_keeps (State.forEach_keeps h _ (fun t _ ht => hc.recomputeLamp ht _)) _ (fun t _ ht => ?_)
  repeat' split
  all_goals repeat' with_reducible first
    | exact ht
    | apply hc.pairNotice

/-! ## Cues -/

theorem Soft.setStack (hc : Soft P) {s : State} (h : P s) (k : Nat) (l : List CueEntry) (b : Bool) :
    P (s.setStack k l b) := by
  unfold State.setStack
  dsimp only
  repeat' split
  all_goals repeat' with_reducible first
    | exact h
    | (intro _; rfl)
    | apply hc.modStation
    | apply hc.hand
    | apply hc.recomputeLamps

theorem Soft.cueRelease (hc : Soft P) {s : State} (h : P s) (k : Nat) (x : Source) : P (s.cueRelease k x) := by
  unfold State.cueRelease
  dsimp only
  repeat' split
  all_goals repeat' with_reducible first
    | exact h
    | apply hc.setStack

theorem Soft.cuePush (hc : Soft P) {s : State} (h : P s) (k : Nat) (x : Source) (l : CueLevel) : P (s.cuePush k x l) := by
  unfold State.cuePush
  split
  · exact h
  · exact hc.setStack h _ _ _

theorem Soft.cueKey (hc : Soft P) {s : State} (h : P s) (k : Nat) (x : Source) (l : CueLevel) (b : Bool) :
    P (s.cueKey k x l b) := by
  unfold State.cueKey State.cueKeyPress
  dsimp only
  repeat' split
  all_goals repeat' with_reducible first
    | exact h
    | apply hc.cuePush
    | apply hc.markStation
    | apply hc.cueRelease

theorem Soft.releaseWhere (hc : Soft P) {s : State} (h : P s) (k : Nat) (p : CueEntry → Bool) : P (s.releaseWhere k p) := by
  unfold State.releaseWhere
  split
  · exact h
  · exact State.forEach_keeps h _ (fun t _ ht => hc.cueRelease ht _ _)

theorem Soft.releaseAllCues (hc : Soft P) {s : State} (h : P s) (k : Nat) : P (s.releaseAllCues k) :=
  hc.releaseWhere h _ _

theorem Soft.releaseKeyCues (hc : Soft P) {s : State} (h : P s) : P s.releaseKeyCues := by
  refine State.forEach_keeps h _ (fun t k ht => ?_)
  repeat' split
  all_goals repeat' with_reducible first
    | exact ht
    | apply hc.releaseWhere
    | apply hc.markStation

theorem Soft.releaseSourced (hc : Soft P) {s : State} (h : P s) (k : Nat) : P (s.releaseSourced k) := by
  refine State.forEach_keeps h _ (fun t k ht => ?_)
  repeat' split
  all_goals repeat' with_reducible first
    | exact ht
    | apply hc.cueRelease
    | apply hc.markStation

theorem Soft.matrixLost (hc : Soft P) {s : State} (h : P s) : P s.matrixLost :=
  hc.releaseKeyCues (hc.dropTalkers h)

/-! ## Links -/

theorem Soft.linkNotices (hc : Soft P) {s : State} (h : P s) (k : Nat) (a b : Link) : P (s.linkNotices k a b) := by
  unfold State.linkNotices
  dsimp only
  repeat' split
  all_goals repeat' with_reducible first
    | exact h
    | apply hc.releaseAllCues
    | apply hc.lampOn
    | apply hc.presenceNotice
    | apply hc.lampOff

theorem Broad.setLink (hc : Broad P) {s : State} (h : P s) (k : Nat) (l : Link) : P (s.setLink k l) := by
  unfold State.setLink
  split
  · exact h
  · exact hc.soft.linkNotices (hc.modStation h) _ _ _

theorem Broad.tuneTo (hc : Broad P) {s : State} (h : P s) (k cc a : Nat) (b : Bool) : P (s.tuneTo k cc a b) := by
  unfold State.tuneTo
  dsimp only
  split
  · exact hc.soft.hand (hc.modStation h) _ _
  · exact h

theorem Broad.blockAbandoned (hc : Broad P) {s : State} (h : P s) (x : Station) : P (s.blockAbandoned x) := by
  unfold State.blockAbandoned
  split
  · exact hc.markCarrier h _ _
  · exact h

theorem Broad.parkStation (hc : Broad P) {s : State} (h : P s) (k : Nat) : P (s.parkStation k) := by
  unfold State.parkStation
  dsimp only
  split
  · exact h
  · exact hc.setLink (hc.blockAbandoned (hc.soft.hand (hc.modStation h) _ _) _) _ _

theorem Broad.startTune (hc : Broad P) {s : State} (h : P s) (k : Nat) : P (s.startTune k) := by
  unfold State.startTune
  dsimp only
  split
  · exact h
  · exact hc.setLink (hc.modStation (hc.tuneTo h _ _ _ _)) _ _

theorem Broad.tuneDone (hc : Broad P) {s : State} (h : P s) (k : Nat) : P (s.tuneDone k) :=
  hc.soft.markStation (hc.setLink (hc.modStation h) _ _) _ _

theorem Broad.tuneFailed (hc : Broad P) {s : State} (h : P s) (k : Nat) : P (s.tuneFailed k) :=
  hc.soft.markStation (hc.parkStation h _) _ _

theorem Broad.recover (hc : Broad P) {s : State} (h : P s) (k : Nat) : P (s.recover k) := by
  unfold State.recover State.stopRecovery
  dsimp only
  repeat' split
  all_goals repeat' with_reducible first
    | exact h
    | apply hc.modCarrier
    | apply hc.markCarrier
    | apply hc.modStation

theorem Broad.startSwitch (hc : Broad P) {s : State} (h : P s) (k : Nat) (x : SwitchKind) (b : Bool) :
    P (s.startSwitch k x b) := by
  unfold State.startSwitch
  dsimp only
  split
  · exact h
  · exact hc.setLink (hc.tuneTo (hc.modStation h) _ _ _ _) _ _

theorem Broad.switchDone (hc : Broad P) {s : State} (h : P s) (k : Nat) : P (s.switchDone k) := by
  unfold State.switchDone State.beginRecovery
  dsimp only
  repeat' split
  all_goals repeat' with_reducible first
    | exact h
    | apply hc.soft.markStation
    | apply hc.setLink
    | apply hc.modStation
    | apply hc.markCarrier
    | apply hc.modCarrier

theorem Broad.switchFail (hc : Broad P) {s : State} (h : P s) (k : Nat) : P (s.switchFail k) := by
  unfold State.switchFail
  dsimp only
  repeat' split
  all_goals repeat' with_reducible first
    | exact h
    | apply hc.tuneTo
    | apply hc.modStation
    | apply hc.blockAbandoned
    | apply hc.soft.markStation
    | apply hc.setLink

theorem Broad.tunedItem (hc : Broad P) {s : State} (h : P s) (k a n : Nat) (b : Bool) : P (s.tunedItem k a n b) := by
  unfold State.tunedItem
  repeat' split
  all_goals repeat' with_reducible first
    | exact h
    | apply hc.tuneDone
    | apply hc.tuneFailed
    | apply hc.switchDone
    | apply hc.switchFail

theorem Broad.tuneTimeout (hc : Broad P) {s : State} (h : P s) (k : Nat) : P (s.tuneTimeout k) := by
  unfold State.tuneTimeout
  repeat' split
  all_goals repeat' with_reducible first
    | exact h
    | apply hc.tuneTo
    | apply hc.tuneFailed
    | apply hc.switchFail

theorem Broad.watchRunsOut (hc : Broad P) {s : State} (h : P s) (k : Nat) : P (s.watchRunsOut k) := by
  unfold State.watchRunsOut
  dsimp only
  repeat' split
  all_goals repeat' with_reducible first
    | exact h
    | apply hc.modStation
    | apply hc.setLink
    | apply hc.soft.markStation

theorem Broad.hysteresis (hc : Broad P) {s : State} (h : P s) (k : Nat) (l : Link) (n : Nat) : P (s.hysteresis k l n) := by
  unfold State.hysteresis
  repeat' split
  all_goals repeat' with_reducible first
    | exact h
    | apply hc.setLink
    | apply hc.soft.markStation

theorem Broad.qualityItem (hc : Broad P) {s : State} (h : P s) (k cc n : Nat) : P (s.qualityItem k cc n) := by
  unfold State.qualityItem
  dsimp only
  repeat' split
  all_goals repeat' with_reducible first
    | exact h
    | apply hc.modStation
    | apply hc.startSwitch
    | apply hc.hysteresis
    | apply hc.setLink
    | apply hc.soft.markStation

theorem Broad.cleanItem (hc : Broad P) {s : State} (h : P s) (cc n : Nat) : P (s.cleanItem cc n) := by
  unfold State.cleanItem
  dsimp only
  repeat' split
  all_goals repeat' with_reducible first
    | exact h
    | apply hc.modCarrier
    | apply hc.modStation

theorem Broad.cleanAgePasses (hc : Broad P) {s : State} (h : P s) (cc : Nat) : P (s.cleanAgePasses cc) := by
  unfold State.cleanAgePasses State.stopRecovery
  dsimp only
  repeat' split
  all_goals repeat' with_reducible first
    | exact h
    | apply hc.modCarrier
    | apply hc.modStation

theorem Broad.closingNotice (hc : Broad P) {s : State} (h : P s) (w : Nat) : P (s.closingNotice w) := by
  refine State.forEach_keeps h _ (fun t k ht => ?_)
  repeat' split
  all_goals repeat' with_reducible first
    | exact ht
    | apply hc.startSwitch

theorem Broad.parkExpired (hc : Broad P) {s : State} (h : P s) (w : Nat) : P (s.parkExpired w) := by
  refine State.forEach_keeps h _ (fun t k ht => ?_)
  dsimp only
  repeat' split
  all_goals repeat' with_reducible first
    | exact ht
    | apply hc.parkStation
    | apply hc.soft.markStation

theorem Broad.loseSlot (hc : Broad P) {s : State} (h : P s) (k : Nat) (x : Role) (m : Nat) : P (s.loseSlot k x m) := by
  unfold State.loseSlot
  dsimp only
  repeat' split
  all_goals repeat' with_reducible first
    | exact h
    | apply hc.parkStation
    | apply hc.modStation
    | apply hc.soft.markStation
    | apply hc.switchFail

theorem Broad.bindCarrier (hc : Broad P) {s : State} (h : P s) (k cc : Nat) (x : Role) : P (s.bindCarrier k cc x) :=
  hc.modStation (hc.markCarrier (hc.modCarrier h) _ _)

theorem Broad.unbindCarrier (hc : Broad P) {s : State} (h : P s) (k cc : Nat) (x : Role) : P (s.unbindCarrier k cc x) :=
  hc.modStation (hc.markCarrier (hc.modCarrier h) _ _)

theorem Broad.expireCarriers (hc : Broad P) {s : State} (h : P s) (w : Nat) : P (s.expireCarriers w) := by
  refine State.forEach_keeps h _ (fun t c ht => ?_)
  unfold State.expireCarrier
  dsimp only
  repeat' split
  all_goals repeat' with_reducible first
    | exact ht
    | apply hc.loseSlot
    | apply hc.modCarrier
    | apply hc.markCarrier

theorem Broad.alternateGone (hc : Broad P) {s : State} (h : P s) (cc : Nat) : P (s.alternateGone cc) :=
  State.forEach_keeps h _ (fun _ _ ht => hc.markCarrier (hc.modCarrier ht) _ _)

theorem Broad.setPair (hc : Broad P) {s : State} (h : P s) (k : Nat) (a b : Option Nat) : P (s.setPair k a b) := by
  unfold State.setPair State.repair
  dsimp only
  repeat' split
  all_goals repeat' with_reducible first
    | exact h
    | apply hc.soft.pairsChanged
    | apply hc.soft.markStation
    | apply hc.modStation

end

/-! ## What a cascade can change -/

/-- Nothing but the carriers, the stations, the conferences, the Directive Queue and the final deliveries differs. -/
def Only (s t : State) : Prop :=
  t = { s with
    carriers := t.carriers
    stations := t.stations
    conferences := t.conferences
    queue := t.queue
    finals := t.finals }

theorem Only.refl (s : State) : Only s s := rfl

/-- Every cascade changes only the carriers, the stations, the conferences, the queue and the final deliveries. -/
theorem Only.broad (r : State) : Broad (Only r) where
  modStation h := by unfold Only at *; rw [h]; rfl
  modCarrier h := by unfold Only at *; rw [h]; rfl
  modConference h := by unfold Only at *; rw [h]; rfl
  withQueue _ h := by unfold Only at *; rw [h]
  withFinals h := by unfold Only at *; rw [h]

theorem Only.sameMachine {s t : State} (h : Only s t) : s.sameMachine t := by
  unfold Only at h
  rw [h]
  constructor <;> rfl

theorem Only.windows {s t : State} (h : Only s t) : t.windows = s.windows := by rw [h]
theorem Only.galleries {s t : State} (h : Only s t) : t.galleries = s.galleries := by rw [h]
theorem Only.settings {s t : State} (h : Only s t) : t.settings = s.settings := by rw [h]
theorem Only.checkQueue {s t : State} (h : Only s t) : t.checkQueue = s.checkQueue := by rw [h]
theorem Only.engine {s t : State} (h : Only s t) : t.engine = s.engine := by rw [h]
theorem Only.storeStates {s t : State} (h : Only s t) : t.storeStates = s.storeStates := by rw [h]
theorem Only.port {s t : State} (h : Only s t) : t.port = s.port := by rw [h]

theorem Only.trans {s t u : State} (h1 : Only s t) (h2 : Only t u) : Only s u := by
  unfold Only at *
  rw [h1] at h2
  exact h2

/-- A notice beside the links: the carriers are as they were, and the core of every station. -/
def Quiet (s t : State) : Prop :=
  Only s t ∧ t.carriers = s.carriers ∧ ∀ k, (t.station k).map Station.core = (s.station k).map Station.core

theorem Quiet.refl (s : State) : Quiet s s := ⟨rfl, rfl, fun _ => rfl⟩

/-- The notices keep the carriers and the core of every station. -/
theorem Quiet.soft (r : State) : Soft (Quiet r) where
  modStation := by
    intro s k f hf ⟨h1, h2, h3⟩
    refine ⟨(Only.broad r).modStation h1, h2, fun j => ?_⟩
    rw [← h3 j]
    simp only [State.station, State.modStation_stations, Table.get_modify]
    split
    · cases s.stations.get j <;> simp [hf]
    · rfl
  modConference := fun ⟨h1, h2, h3⟩ => ⟨(Only.broad r).modConference h1, h2, h3⟩
  withQueue := fun hq ⟨h1, h2, h3⟩ => ⟨(Only.broad r).withQueue hq h1, h2, h3⟩
  withFinals := fun ⟨h1, h2, h3⟩ => ⟨(Only.broad r).withFinals h1, h2, h3⟩

end Sys2Proof.Machine
end

