-- ==== Sys2Proof/Laws/Deliver.lean ====
section
/-! SUPPORT. What handing on a wanted state does to the record that owns it: its delivery base, and the Directive Queue, and nothing else. -/

namespace Sys2Proof.Machine

/-- A delivery base set on a station. -/
def Station.withBase (x : Station) (kind : DeliveryKind) (b : DeliveryBase) : Station :=
  match kind with
  | .tune => { x with tuneBase := b }
  | .lamp => { x with lampBase := b }
  | .cueRoute => { x with cueBase := b }
  | .routing => x

/-- The base of a station's own delivery is set in its record alone. -/
theorem State.setBase_station {s : State} {k : Nat} {x : Station} (hx : s.station k = some x) {kind : DeliveryKind}
    (hk : kind ≠ .routing) (hc : kind = .cueRoute → x.kind.hasCue = true) (b : DeliveryBase) :
    s.setBase kind k b = s.modStation k (·.withBase kind b) := by
  unfold State.setBase State.owned
  cases kind with
  | routing => exact absurd rfl hk
  | tune => simp only [hx, Option.isSome_some, if_true]; rfl
  | lamp => simp only [hx, Option.isSome_some, if_true]; rfl
  | cueRoute => simp only [hx, hc rfl, if_true]; rfl

/-- Deciding a station's own delivery changes its base and the queue alone, or nothing. -/
theorem State.decideDelivery_station {s : State} {k : Nat} {x : Station} (hx : s.station k = some x)
    {kind : DeliveryKind} (hk : kind ≠ .routing) (hc : kind = .cueRoute → x.kind.hasCue = true) :
    s.decideDelivery kind k = s ∨
      ∃ b q, s.decideDelivery kind k = { s.modStation k (·.withBase kind b) with queue := q } := by
  unfold State.decideDelivery
  split
  · exact Or.inl rfl
  · simp only [State.setBase_station hx hk hc]
    refine Or.inr ?_
    split
    · exact ⟨_, _, rfl⟩
    · split
      · exact ⟨_, _, rfl⟩
      · split
        · exact ⟨_, _, rfl⟩
        · split
          · exact ⟨_, _, rfl⟩
          · exact ⟨_, _, rfl⟩

/-- Handing on a station's own wanted state changes its base and the queue alone, or nothing. -/
theorem State.hand_station {s : State} {k : Nat} {x : Station} (hx : s.station k = some x)
    {kind : DeliveryKind} (hk : kind ≠ .routing) (hc : kind = .cueRoute → x.kind.hasCue = true) :
    s.hand kind k = s ∨ ∃ b q, s.hand kind k = { s.modStation k (·.withBase kind b) with queue := q } := by
  unfold State.hand
  split
  · exact Or.inl rfl
  · split
    · exact State.decideDelivery_station hx hk hc
    · exact Or.inl rfl

/-- A property that the deciding of deliveries keeps: a base set, the queue and the final deliveries changed. -/
structure Decides (P : State → Prop) : Prop where
  station : ∀ {s : State} (k : Nat) (kd : DeliveryKind) (b : DeliveryBase), P s → P (s.modStation k (·.withBase kd b))
  conference : ∀ {s : State} (k : Nat) (b : DeliveryBase), P s → P (s.modConference k (fun x => { x with routingBase := b }))
  withQueue : ∀ {s : State} {q : List Entry}, P s → P { s with queue := q }
  withFinals : ∀ {s : State} {q : List Final}, P s → P { s with finals := q }

section
variable {P : State → Prop}

theorem Decides.setBase (hc : Decides P) {s : State} (h : P s) (kd : DeliveryKind) (k : Nat) (b : DeliveryBase) :
    P (s.setBase kd k b) := by
  unfold State.setBase
  split
  · cases kd with
    | tune => exact hc.station k .tune b h
    | lamp => exact hc.station k .lamp b h
    | cueRoute => exact hc.station k .cueRoute b h
    | routing => exact hc.conference k b h
  · split
    · exact hc.withFinals h
    · exact hc.withFinals h

theorem Decides.decideDelivery (hc : Decides P) {s : State} (h : P s) (kd : DeliveryKind) (k : Nat) :
    P (s.decideDelivery kd k) := by
  have hb := fun b => hc.setBase h kd k b
  unfold State.decideDelivery
  split
  · exact h
  · split
    · exact hc.withQueue (hb _)
    · split
      · exact hb _
      · split
        · exact hb _
        · split
          · exact hc.withQueue (hb _)
          · exact hb _

theorem Decides.hand (hc : Decides P) {s : State} (h : P s) (kd : DeliveryKind) (k : Nat) : P (s.hand kd k) := by
  unfold State.hand
  split
  · exact h
  · split
    · exact hc.decideDelivery h _ _
    · exact h

theorem Decides.fillQueue (hc : Decides P) {s : State} (h : P s) : P s.fillQueue := by
  refine State.forEach_keeps h _ (fun t p ht => ?_)
  unfold State.scanOne
  split
  · exact ht
  · split
    · exact hc.decideDelivery ht _ _
    · exact ht

/-- The scan makes a Waiting delivery Current whose wanted state equals its delivered state, whatever room the queue has, and
takes no place for it (R152). -/
theorem State.scanOne_current {s : State} {p : DeliveryKind × Nat} {d : Delivery} (hd : s.delivery p.1 p.2 = some d)
    (hb : d.base = .waiting) (he : s.entryOf d p.1 p.2 = none) (hr : s.reachable p.1 d.destination = true)
    (hc : d.delivered = some d.wanted) : s.scanOne p = s.setBase p.1 p.2 .current := by
  simp [State.scanOne, State.decideDelivery, hd, hb, he, hr, hc]

theorem Decides.removeEntries (hc : Decides P) {s : State} (h : P s) (p : Entry → Bool) : P (s.removeEntries p) := by
  unfold State.removeEntries
  split
  · exact hc.fillQueue (hc.withQueue h)
  · exact h

theorem Decides.withdraw (hc : Decides P) {s : State} (h : P s) (p : Entry → Bool) : P (s.withdraw p) :=
  hc.removeEntries (hc.withQueue h) _

end

/-- A fact about one station that no delivery base bears on is kept where deliveries are decided. -/
theorem Decides.ofStation (k : Nat) {F : Station → Prop} (hF : ∀ x kd b, F x → F (x.withBase kd b)) :
    Decides (fun t => ∃ z, t.station k = some z ∧ F z) where
  station j kd b := by
    rintro ⟨z, hz, h⟩
    by_cases hj : k = j
    · subst hj
      refine ⟨z.withBase kd b, ?_, hF _ _ _ h⟩
      simp only [State.station, State.modStation_stations, Table.get_modify_self] at hz ⊢
      rw [hz]
      rfl
    · refine ⟨z, ?_, h⟩
      simp only [State.station, State.modStation_stations, Table.get_modify, if_neg hj] at hz ⊢
      exact hz
  conference _ _ h := h
  withQueue h := h
  withFinals h := h

end Sys2Proof.Machine
end

