-- ==== Sys2Proof/Laws/Links.lean ====
section
/-! SUPPORT. What the operations on a station's link do: the station's core, the other stations, the carriers, and the rest of the state. -/

namespace Sys2Proof.Machine

theorem Only.pending {s t : State} (h : Only s t) : t.pending = s.pending := h.sameMachine.pending

/-- What is quiet beside a change of one station: the station's core is the changed one's. -/
structure Changed (s t : State) (k : Nat) (f : Station → Station) : Prop where
  only : Only s t
  marks : s.carriersKeep t
  others : s.othersKeep t k
  core : ∀ x, s.station k = some x → ∃ z, t.station k = some z ∧ z.core = (f x).core

theorem Changed.refl (s : State) (k : Nat) : Changed s s k id :=
  ⟨rfl, fun _ => rfl, fun _ _ => rfl, fun x h => ⟨x, h, rfl⟩⟩

theorem State.station_modStation (s : State) (k : Nat) (f : Station → Station) (j : Nat) :
    (s.modStation k f).station j = if j = k then (s.station j).map f else s.station j := by
  simp only [State.station, State.modStation_stations, Table.get_modify]

/-- A station that is changed. -/
theorem State.station_of_mod {s : State} {k : Nat} {x : Station} (h : s.station k = some x) (f : Station → Station) :
    (s.modStation k f).station k = some (f x) := by rw [State.station_modStation, if_pos rfl, h]; rfl

theorem State.carrier_modCarrier (s : State) (k : Nat) (f : Carrier → Carrier) (j : Nat) :
    (s.modCarrier k f).carrier j = if j = k then (s.carrier j).map f else s.carrier j := by
  simp only [State.carrier, State.modCarrier_carriers, Table.get_modify]

theorem State.window_modWindow (s : State) (k : Nat) (f : Window → Window) (j : Nat) :
    (s.modWindow k f).window j = if j = k then (s.window j).map f else s.window j := by
  simp only [State.window, State.modWindow_windows, Table.get_modify]

/-- A change of the station. -/
theorem Changed.modStation {s t : State} {k : Nat} {f : Station → Station} (h : Changed s t k f) {g : Station → Station}
    (hg : ∀ x y, x.core = y.core → (g x).core = (g y).core) : Changed s (t.modStation k g) k (fun x => g (f x)) where
  only := (Only.broad s).modStation h.only
  marks := h.marks
  others := fun j hj => by rw [State.station_modStation, if_neg hj]; exact h.others j hj
  core := fun x hx => by
    obtain ⟨z, hz, hc⟩ := h.core x hx
    refine ⟨g z, ?_, hg _ _ hc⟩
    rw [State.station_modStation, if_pos rfl, hz]; rfl

/-- Notices beside the links. -/
theorem Changed.quiet {s t u : State} {k : Nat} {f : Station → Station} (h : Changed s t k f) (q : Quiet t u) :
    Changed s u k f where
  only := h.only.trans q.1
  marks := fun c => by rw [State.carrier, q.2.1]; exact h.marks c
  others := fun j hj => by rw [q.2.2 j]; exact h.others j hj
  core := fun x hx => by
    obtain ⟨z, hz, hc⟩ := h.core x hx
    have := q.2.2 k
    rw [hz] at this
    obtain ⟨v, hv, e⟩ := Option.map_eq_some_iff.1 (this.trans rfl)
    exact ⟨v, hv, e.trans hc⟩

/-- A mark of a carrier. -/
theorem Changed.markCarrier {s t : State} {k : Nat} {f : Station → Station} (h : Changed s t k f) (c r : Nat) :
    Changed s (t.markCarrier c r) k f where
  only := (Only.broad s).markCarrier h.only _ _
  marks := fun d => by
    rw [← h.marks d]
    unfold State.markCarrier
    rw [State.carrier_modCarrier]
    split
    · cases t.carrier d <;> rfl
    · rfl
  others := h.others
  core := h.core

theorem Changed.congr {s t : State} {k : Nat} {f g : Station → Station} (h : Changed s t k f)
    (e : ∀ x, s.station k = some x → (f x).core = (g x).core) : Changed s t k g :=
  ⟨h.only, h.marks, h.others, fun x hx => by
    obtain ⟨z, hz, hc⟩ := h.core x hx
    exact ⟨z, hz, hc.trans (e x hx)⟩⟩

/-- A mark of a station is no part of its core. -/
theorem Changed.markStation {s t : State} {k : Nat} {f : Station → Station} (h : Changed s t k f) (j r : Nat) :
    Changed s (t.markStation j r) k f := h.quiet ((Quiet.soft t).markStation (Quiet.refl t) j r)

theorem Changed.hand {s t : State} {k : Nat} {f : Station → Station} (h : Changed s t k f) (kd : DeliveryKind) (j : Nat) :
    Changed s (t.hand kd j) k f := h.quiet ((Quiet.soft t).hand (Quiet.refl t) kd j)

theorem Changed.blockAbandoned {s t : State} {k : Nat} {f : Station → Station} (h : Changed s t k f) (x : Station) :
    Changed s (t.blockAbandoned x) k f := by
  unfold State.blockAbandoned
  split
  · exact h.markCarrier _ _
  · exact h

/-- A link is set, with the notices of the change. -/
theorem Changed.setLink {s t : State} {k : Nat} {f : Station → Station} (h : Changed s t k f) (l : Link) :
    Changed s (t.setLink k l) k (fun x => { f x with link := l }) := by
  unfold State.setLink
  cases hx : t.station k with
  | none =>
    refine ⟨h.only, h.marks, h.others, fun x hs => ?_⟩
    obtain ⟨z, hz, _⟩ := h.core x hs
    rw [hx] at hz
    cases hz
  | some y =>
    have e := h.modStation (g := fun x => { x with link := l }) (fun x y hc => by
      simp only [Station.core, Station.mk.injEq] at hc ⊢
      simp [hc])
    exact e.quiet ((Quiet.soft _).linkNotices (Quiet.refl _) _ _ _)

/-- A new tune of the station towards a carrier that exists. -/
theorem Changed.tuneTo {s t : State} {k : Nat} {f : Station → Station} (h : Changed s t k f) {c : Nat} {y : Carrier}
    (hy : t.carrier c = some y) (n : Nat) (b : Bool) :
    Changed s (t.tuneTo k c n b) k (fun x => { f x with
      token := nextToken (f x).token
      attempts := n
      tuneTimer := if b then some 0 else none
      wanted := ⟨some y.frequency, y.cls, (f x).power, false, nextToken (f x).token⟩ }) := by
  unfold State.tuneTo
  cases hx : t.station k with
  | none =>
    refine ⟨h.only, h.marks, h.others, fun x hs => ?_⟩
    obtain ⟨z, hz, _⟩ := h.core x hs
    rw [hx] at hz
    cases hz
  | some v =>
    simp only [hy]
    refine Changed.hand ?_ _ _
    refine ⟨(Only.broad s).modStation h.only, h.marks,
      fun j hj => by rw [State.station_modStation, if_neg hj]; exact h.others j hj, fun x hs => ?_⟩
    obtain ⟨z, hz, hc⟩ := h.core x hs
    rw [hx] at hz
    cases hz
    refine ⟨_, by rw [State.station_modStation, if_pos rfl, hx]; rfl, ?_⟩
    simp only [Station.core, Station.mk.injEq] at hc ⊢
    simp [hc]

theorem Changed.parkStation {s t : State} {k : Nat} {f : Station → Station} (h : Changed s t k f) :
    Changed s (t.parkStation k) k (fun x => (f x).parked) := by
  unfold State.parkStation
  cases hx : t.station k with
  | none =>
    refine ⟨h.only, h.marks, h.others, fun x hs => ?_⟩
    obtain ⟨z, hz, _⟩ := h.core x hs
    rw [hx] at hz
    cases hz
  | some v =>
    refine (((Changed.modStation h ?_).hand _ _).blockAbandoned _).setLink _
    intro x y hc
    simp only [Station.core, Station.mk.injEq] at hc ⊢
    simp [hc]

end Sys2Proof.Machine
end

