-- ==== Sys2Proof/Laws/Calm.lean ====
section
/-! SUPPORT. The notices of lamps and cues, said once: they change stations beside their core and their delivered lamp, the queue and the final deliveries. The notices of routings change no station. -/

namespace Sys2Proof.Machine

/-- A property that lamp and cue notices keep. -/
structure Calm (P : State → Prop) : Prop where
  modStation : ∀ {s : State} {k : Nat} {f : Station → Station},
    (∀ x, (f x).core = x.core ∧ (f x).deliveredLamp = x.deliveredLamp) → P s → P (s.modStation k f)
  withQueue : ∀ {s : State} {q : List Entry}, P s → P { s with queue := q }
  withFinals : ∀ {s : State} {q : List Final}, P s → P { s with finals := q }

section
variable {P : State → Prop}

theorem Calm.markStation (hc : Calm P) {s : State} (h : P s) (k r : Nat) : P (s.markStation k r) :=
  hc.modStation (fun _ => ⟨rfl, rfl⟩) h

theorem Calm.setBase (hc : Calm P) {s : State} (h : P s) {kd : DeliveryKind} (hk : kd ≠ .routing) (k : Nat)
    (b : DeliveryBase) : P (s.setBase kd k b) := by
  unfold State.setBase
  split
  · cases kd with
    | routing => exact absurd rfl hk
    | tune => exact hc.modStation (fun _ => ⟨rfl, rfl⟩) h
    | lamp => exact hc.modStation (fun _ => ⟨rfl, rfl⟩) h
    | cueRoute => exact hc.modStation (fun _ => ⟨rfl, rfl⟩) h
  · split
    · exact hc.withFinals h
    · exact hc.withFinals h

theorem Calm.decideDelivery (hc : Calm P) {s : State} (h : P s) {kd : DeliveryKind} (hk : kd ≠ .routing) (k : Nat) :
    P (s.decideDelivery kd k) := by
  have hb := fun b => hc.setBase h hk k b
  unfold State.decideDelivery
  split
  · exact h
  · split
    · exact hc.withQueue (hb _)
    · split
      · exact hb _
      · split
        · exact hb _
        · split
          · exact hc.withQueue (hb _)
          · exact hb _

theorem Calm.hand (hc : Calm P) {s : State} (h : P s) {kd : DeliveryKind} (hk : kd ≠ .routing) (k : Nat) :
    P (s.hand kd k) := by
  unfold State.hand
  repeat' split
  all_goals repeat' with_reducible first
    | exact h
    | exact hc.decideDelivery h hk _

theorem Calm.recomputeLamp (hc : Calm P) {s : State} (h : P s) (k : Nat) : P (s.recomputeLamp k) := by
  unfold State.recomputeLamp
  dsimp only
  repeat' split
  all_goals first
    | exact h
    | refine hc.hand (kd := .lamp) ?_ (by decide) _
      exact hc.modStation (fun _ => ⟨rfl, rfl⟩) h

theorem Calm.recomputeLamps (hc : Calm P) {s : State} (h : P s) (k : Nat) : P (s.recomputeLamps k) := by
  unfold State.recomputeLamps
  dsimp only
  repeat' split
  all_goals repeat' with_reducible first
    | exact h
    | apply hc.recomputeLamp

theorem Calm.setStack (hc : Calm P) {s : State} (h : P s) (k : Nat) (st : List CueEntry) (a : Bool) :
    P (s.setStack k st a) := by
  unfold State.setStack
  split
  · exact h
  · dsimp only
    split <;> split
    all_goals repeat' with_reducible first
      | exact h
      | exact (by decide : DeliveryKind.cueRoute ≠ .routing)
      | exact fun _ => ⟨rfl, rfl⟩
      | apply hc.recomputeLamps
      | apply hc.hand
      | apply hc.modStation

theorem Calm.cueRelease (hc : Calm P) {s : State} (h : P s) (k : Nat) (src : Source) : P (s.cueRelease k src) := by
  unfold State.cueRelease
  split
  · exact h
  · split
    · exact hc.setStack h _ _ _
    · exact h

theorem Calm.releaseWhere (hc : Calm P) {s : State} (h : P s) (k : Nat) (p : CueEntry → Bool) :
    P (s.releaseWhere k p) := by
  unfold State.releaseWhere
  split
  · exact h
  · exact State.forEach_keeps h _ (fun _ _ ht => hc.cueRelease ht _ _)

end

/-- What lamp and cue notices leave as it was. -/
structure Hushed (s t : State) : Prop where
  quiet : Quiet s t
  conferences : t.conferences = s.conferences
  lamps : ∀ k, (t.station k).map Station.deliveredLamp = (s.station k).map Station.deliveredLamp

theorem Hushed.refl (s : State) : Hushed s s := ⟨Quiet.refl s, rfl, fun _ => rfl⟩

/-- Lamp and cue notices leave the carriers, the conferences, the cores and the delivered lamps as they were. -/
theorem Hushed.calm (r : State) : Calm (Hushed r) where
  modStation := by
    intro s k f hf h
    refine ⟨(Quiet.soft r).modStation (fun x => (hf x).1) h.quiet, h.conferences, fun j => ?_⟩
    rw [← h.lamps j, State.station_modStation]
    split
    · cases s.station j <;> simp [hf]
    · rfl
  withQueue h := by
    obtain ⟨⟨h1, h2, h3⟩, h4, h5⟩ := h
    exact ⟨⟨by unfold Only at *; rw [h1], h2, h3⟩, h4, h5⟩
  withFinals h := by
    obtain ⟨⟨h1, h2, h3⟩, h4, h5⟩ := h
    exact ⟨⟨by unfold Only at *; rw [h1], h2, h3⟩, h4, h5⟩

/-- A conference's routing decided or handed on changes no station. -/
theorem State.decideDelivery_routing_stations (s : State) (c : Nat) : (s.decideDelivery .routing c).stations = s.stations := by
  have hb : ∀ b, (s.setBase .routing c b).stations = s.stations := by
    intro b
    unfold State.setBase
    repeat' split
    all_goals first | rfl | contradiction
  unfold State.decideDelivery
  repeat' split
  all_goals first
    | rfl
    | exact hb _

theorem State.hand_routing_stations (s : State) (c : Nat) : (s.hand .routing c).stations = s.stations := by
  unfold State.hand
  repeat' split
  all_goals first
    | rfl
    | exact State.decideDelivery_routing_stations _ _

theorem State.recomputeRouting_stations (s : State) (c : Nat) : (s.recomputeRouting c).stations = s.stations := by
  unfold State.recomputeRouting
  repeat' split
  all_goals first
    | rfl
    | exact State.hand_routing_stations _ _

/-- A presence notice changes no station. -/
theorem State.presenceNotice_stations (s : State) (k : Nat) (b : Bool) : (s.presenceNotice k b).stations = s.stations := by
  refine State.forEach_keeps (P := fun t => t.stations = s.stations) rfl _ (fun t c ht => ?_)
  split
  · exact ht
  · split
    · rw [State.recomputeRouting_stations]; exact ht
    · exact ht

/-- A release of a cue leaves the stack that the rule of releases gives, and the accept. -/
theorem State.setStack_station {s : State} {k : Nat} {x : Station} (hx : s.station k = some x) (st : List CueEntry)
    (a : Bool) : ∃ z, (s.setStack k st a).station k = some z ∧ z.stack = st ∧ z.accept = a ∧
      z.cueRoute = currentSource st := by
  let F : State → Prop := fun t => ∃ z, t.station k = some z ∧ z.stack = st ∧ z.accept = a ∧ z.cueRoute = currentSource st
  have keep : ∀ (t : State) (j : Nat) (f : Station → Station),
      (∀ x, (f x).stack = x.stack ∧ (f x).accept = x.accept ∧ (f x).cueRoute = x.cueRoute) → F t → F (t.modStation j f) := by
    rintro t j f hf ⟨z, hz, h1, h2, h3⟩
    by_cases hj : k = j
    · subst hj
      exact ⟨f z, by rw [State.station_modStation, if_pos rfl, hz]; rfl, by rw [(hf z).1, h1], by rw [(hf z).2.1, h2],
        by rw [(hf z).2.2, h3]⟩
    · exact ⟨z, by rw [State.station_modStation, if_neg hj, hz], h1, h2, h3⟩
  have base : ∀ (t : State) (kd : DeliveryKind) (j : Nat) (b : DeliveryBase), F t → F (t.setBase kd j b) := by
    intro t kd j b h
    unfold State.setBase
    repeat' split
    all_goals first
      | exact h
      | exact keep _ _ _ (fun _ => ⟨rfl, rfl, rfl⟩) h
  have hand : ∀ (t : State) (kd : DeliveryKind) (j : Nat), F t → F (t.hand kd j) := by
    intro t kd j h
    unfold State.hand State.decideDelivery
    repeat' split
    all_goals first
      | exact h
      | exact base _ _ _ _ h
  have lamp : ∀ (t : State) (j : Nat), F t → F (t.recomputeLamp j) := by
    intro t j h
    unfold State.recomputeLamp
    dsimp only
    repeat' split
    all_goals first
      | exact h
      | exact hand _ _ _ (keep _ _ _ (fun _ => ⟨rfl, rfl, rfl⟩) h)
  have lamps : ∀ (t : State) (j : Nat), F t → F (t.recomputeLamps j) := by
    intro t j h
    unfold State.recomputeLamps
    dsimp only
    repeat' split
    all_goals first
      | exact h
      | exact lamp _ _ (lamp _ _ h)
      | exact lamp _ _ h
  show F _
  have start : F (s.modStation k (fun x => { x with stack := st, accept := a, cueRoute := currentSource st })) :=
    ⟨{ x with stack := st, accept := a, cueRoute := currentSource st },
      by rw [State.station_modStation, if_pos rfl, hx]; rfl, rfl, rfl, rfl⟩
  unfold State.setStack
  simp only [hx]
  split <;> split
  all_goals first
    | exact start
    | exact lamps _ _ start
    | exact hand _ _ _ start
    | exact lamps _ _ (hand _ _ _ start)

/-- A release leaves the stack and the accept that R119 gives. -/
theorem State.cueRelease_station {s : State} {k : Nat} {x : Station} (hx : s.station k = some x) {src : Source}
    (hs : holdsEntry x.stack src = true) : ∃ z, (s.cueRelease k src).station k = some z ∧
      z.stack = (releaseFrom x.stack x.accept src).1 ∧ z.accept = (releaseFrom x.stack x.accept src).2 ∧
      z.cueRoute = currentSource z.stack := by
  unfold State.cueRelease
  simp only [hx, hs, if_true]
  obtain ⟨z, h1, h2, h3, h4⟩ := State.setStack_station hx (releaseFrom x.stack x.accept src).1
    (releaseFrom x.stack x.accept src).2
  exact ⟨z, h1, h2, h3, by rw [h4, h2]⟩

/-- Releasing every entry of a stack of at most two leaves it empty, with the accept that its bottom entry saved. -/
theorem State.releaseAllCues_station {s : State} {k : Nat} {x : Station} (hx : s.station k = some x)
    (hl : x.stack.length ≤ 2) : ∃ z, (s.releaseAllCues k).station k = some z ∧ z.stack = [] ∧
      z.accept = (match x.stack with | [] => x.accept | e :: _ => e.saved) ∧
      (x.stack ≠ [] → z.cueRoute = none) := by
  unfold State.releaseAllCues State.releaseWhere
  simp only [hx]
  match hst : x.stack, hl with
  | [], _ => exact ⟨x, by simpa [State.forEach] using hx, hst, rfl, by simp⟩
  | [e], _ =>
    obtain ⟨z, h1, h2, h3, h4⟩ := State.cueRelease_station hx (src := e.source) (by simp [hst, holdsEntry])
    rw [hst] at h2 h3
    simp only [releaseFrom, if_true] at h2 h3
    exact ⟨z, by simpa [State.forEach] using h1, h2, h3, fun _ => by rw [h4, h2]; rfl⟩
  | [b, t], _ =>
    obtain ⟨z, h1, h2, h3, h4⟩ := State.cueRelease_station hx (src := t.source) (by simp [hst, holdsEntry])
    rw [hst] at h2 h3
    simp only [releaseFrom, if_true] at h2 h3
    obtain ⟨w, g1, g2, g3, g4⟩ := State.cueRelease_station h1 (src := b.source) (by simp [h2, holdsEntry])
    rw [h2] at g2 g3
    simp only [releaseFrom, if_true] at g2 g3
    exact ⟨w, by simpa [State.forEach] using g1, g2, g3, fun _ => by rw [g4, g2]; rfl⟩

end Sys2Proof.Machine
end

