-- ==== Sys2Proof/Laws/Frames.lean ====
section
/-! SUPPORT. Frames: the words of their bytes, their check byte, and the unit frame that matches a transaction. -/

namespace Sys2Proof.Machine

/-- Words survive their bytes. -/
theorem wordsOfBytes_bytesOfWords (ws : List Word) : wordsOfBytes (bytesOfWords ws) = ws := by
  induction ws with
  | nil => rfl
  | cons w rest ih =>
    have : bytesOfWords (w :: rest) = highByte w :: lowByte w :: bytesOfWords rest := rfl
    rw [this, wordsOfBytes, ih]
    congr 1
    apply BitVec.eq_of_toNat_eq
    have := w.isLt
    simp [wordOfBytes, wordOf, highByte, lowByte]
    omega

/-- Two bytes a word. -/
theorem length_bytesOfWords (ws : List Word) : (bytesOfWords ws).length = 2 * ws.length := by
  induction ws with
  | nil => rfl
  | cons w rest ih =>
    have : bytesOfWords (w :: rest) = highByte w :: lowByte w :: bytesOfWords rest := rfl
    rw [this]; simp [ih]; omega

/-- A closed frame sums to 0. -/
theorem byteSum_close (bs : List Byte) : byteSum (closeFrame bs) = 0#8 := by
  simp only [byteSum, closeFrame, List.foldl_append, List.foldl_cons, List.foldl_nil]
  generalize List.foldl (fun a b => a + b) 0#8 bs = x
  bv_omega

/-- The unit frame of a transaction matches it, and carries the kind that its kind byte codes and its body (R141). -/
theorem Transaction.matching_unitFrameOf (ask : Ask) (seq : Nat) (kind : Byte) (body : List Word)
    (ha : ask.address ≤ 32) (hs : seq < 256) (hb : body.length ≤ 255) :
    (⟨ask, seq⟩ : Transaction).matching (unitFrameOf ask seq kind body) = some ⟨unitKindOf kind.toNat, body⟩ := by
  have hf : unitFrameOf ask seq kind body =
      0x2D#8 :: BitVec.ofNat 8 ask.address :: BitVec.ofNat 8 ask.typeByte :: BitVec.ofNat 8 seq ::
        kind :: BitVec.ofNat 8 body.length :: (bytesOfWords body ++
          [0#8 - byteSum ([0x2D#8, BitVec.ofNat 8 ask.address, BitVec.ofNat 8 ask.typeByte, BitVec.ofNat 8 seq,
            kind, BitVec.ofNat 8 body.length] ++ bytesOfWords body)]) := by
    simp [unitFrameOf, closeFrame]
  have hsum : byteSum (unitFrameOf ask seq kind body) = 0#8 := byteSum_close _
  have ht : ask.typeByte < 256 := by cases ask <;> simp [Ask.typeByte]
  rw [hf] at hsum ⊢
  have e1 : (BitVec.ofNat 8 ask.address).toNat = ask.address := by rw [BitVec.toNat_ofNat]; omega
  have e2 : (BitVec.ofNat 8 ask.typeByte).toNat = ask.typeByte := by rw [BitVec.toNat_ofNat]; omega
  have e3 : (BitVec.ofNat 8 seq).toNat = seq := by rw [BitVec.toNat_ofNat]; omega
  have e5 : (BitVec.ofNat 8 body.length).toNat = body.length := by rw [BitVec.toNat_ofNat]; omega
  have hl := length_bytesOfWords body
  simp only [Transaction.matching, e1, e2, e3, e5, hsum]
  have htake : ∀ b : Byte, (bytesOfWords body ++ [b]).take (2 * body.length) = bytesOfWords body := by
    intro b; rw [← hl]; exact List.take_left
  simp [hl, htake, wordsOfBytes_bytesOfWords]

/-- A unit frame whose kind byte codes a kind matches its transaction. -/
theorem Transaction.matching_unitFrame (ask : Ask) (seq : Nat) (kind : UnitKind) (body : List Word)
    (ha : ask.address ≤ 32) (hs : seq < 256) (hb : body.length ≤ 255) :
    (⟨ask, seq⟩ : Transaction).matching (unitFrame ask seq kind body) = some ⟨some kind, body⟩ := by
  have hk : unitKindOf (BitVec.ofNat 8 kind.code).toNat = some kind := by cases kind <;> rfl
  rw [unitFrame, Transaction.matching_unitFrameOf ask seq _ body ha hs hb, hk]

end Sys2Proof.Machine
end

