-- ==== Sys2Proof/Laws/Items.lean ====
section
/-! SUPPORT. What an answered Poll does: the frame is read, the unit noted, and its one item is taken. -/

namespace Sys2Proof.Machine

/-- The change of a unit that exists, written as a set. -/
theorem State.modUnit_set {s : State} {a : Nat} {u : LineUnit} (h : s.unitAt a = some u) (f : LineUnit → LineUnit) :
    s.modUnit a f = { s with units := s.units.set (a - 1) (f u) } := by
  unfold State.unitAt at h
  unfold State.modUnit
  by_cases h0 : a = 0
  · simp [h0] at h
  · simp only [h0, if_false] at h ⊢
    congr 1
    rw [List.modify_eq_set_getElem?, h]; rfl

/-- A unit that is noted is read back. -/
theorem State.unitAt_set {s : State} {a : Nat} {u : LineUnit} (h : s.unitAt a = some u) (v : LineUnit) :
    ({ s with units := s.units.set (a - 1) v } : State).unitAt a = some v := by
  unfold State.unitAt at h ⊢
  by_cases h0 : a = 0
  · simp [h0] at h
  · simp only [h0, if_false] at h ⊢
    have hl := (List.getElem?_eq_some_iff.1 h).1
    simp [hl]

/-- A frame that matches the Poll on the line ends it (R145, R147). -/
theorem State.pollAnswer_eq {s : State} {a seq : Nat} {u : LineUnit} (h : s.onLine (.poll a) seq u) (kind : UnitKind)
    {body : List Word} (hb : body.length ≤ 104)
    (hl : (State.pollIsAnswered s.endTransaction a ⟨some kind, body⟩).load = .none) :
    exec (.pollAnswered (unitFrame (.poll a) seq kind body)) s =
      .next (State.pollIsAnswered s.endTransaction a ⟨some kind, body⟩) := by
  obtain ⟨h1, h2, h3, h4, h5, h6, h7, h8⟩ := h
  simp only [exec, execPollAnswered, State.pollAnswer, h7]
  rw [Transaction.matching_unitFrame _ _ _ _ h5 h6 (by omega)]
  dsimp only
  rw [State.reading_sound (s := s.endTransaction) h3]
  unfold State.afterLine
  rw [hl]

/-- A Present unit of the kind that answers has its missed polls set to 0, and its items are taken. -/
theorem State.pollIsAnswered_present {s : State} {a seq : Nat} {u : LineUnit} (h : s.onLine (.poll a) seq u)
    (hp : u.state = .present) {kind : UnitKind} (hk : u.kind = some kind) (body : List Word) :
    State.pollIsAnswered s.endTransaction a ⟨some kind, body⟩ = takeItems a 8 body (s.unitNoted a { u with missed := 0 }) := by
  obtain ⟨h1, h2, h3, h4, h5, h6, h7, h8⟩ := h
  have hu : s.endTransaction.unitAt a = some u := h8
  have hs : s.endTransaction.unitState a = .present := by simp only [State.unitState, hu, hp]
  have hn : s.endTransaction.unitKind a = some kind := by simp only [State.unitKind, hu, Option.bind_some, hk]
  have hq : s.endTransaction.quarantined = none := State.quarantined_sound (s := s.endTransaction) h3
  unfold State.pollIsAnswered
  rw [if_neg (by rw [hq]; nofun), hs]
  dsimp only
  rw [if_pos hn, State.modUnit_set hu]
  rfl

/-- A body that is one item: the item is taken. -/
theorem State.oneItem {s : State} {a seq : Nat} {u : LineUnit} (h : s.onLine (.poll a) seq u)
    (hp : u.state = .present) {kind : UnitKind} (hk : u.kind = some kind) {body : List Word} (hb : body.length ≤ 104)
    {act : State → State} (hi : parseItem a body = some (act, []))
    (hl : (act (s.unitNoted a { u with missed := 0 })).load = .none) :
    exec (.pollAnswered (unitFrame (.poll a) seq kind body)) s = .next (act (s.unitNoted a { u with missed := 0 })) := by
  have e : takeItems a 8 body (s.unitNoted a { u with missed := 0 }) = act (s.unitNoted a { u with missed := 0 }) := by
    cases body with
    | nil => exact absurd hi (by simp [parseItem])
    | cons w ws =>
      simp only [takeItems, hi, State.beside_sound (s := s.unitNoted a { u with missed := 0 }) h.2.2.1]
      split <;> rfl
  rw [State.pollAnswer_eq h kind hb (by rw [State.pollIsAnswered_present h hp hk, e]; exact hl),
    State.pollIsAnswered_present h hp hk, e]

/-- The noted state as the items meet it. -/
theorem State.onLine_noted {s : State} {a seq : Nat} {u : LineUnit} (h : s.onLine (.poll a) seq u) (v : LineUnit) :
    (s.unitNoted a v).badCodes = [] ∧ (s.unitNoted a v).load = .none ∧ (s.unitNoted a v).unitAt a = some v := by
  obtain ⟨h1, h2, h3, h4, h5, h6, h7, h8⟩ := h
  exact ⟨h3, h2, State.unitAt_set (s := s.endTransaction) h8 v⟩

end Sys2Proof.Machine
end

