-- ==== Sys2Proof/Tests/Slice0.lean ====
section
/-! SUPPORT. The model's own tests: the smoke test of well-formedness, one small test per command, and a witness for the hypotheses of every statement. -/

namespace Sys2Proof.Tests

open Sys2Proof Sys2Proof.Machine

set_option Elab.async false

/-! ## Sample data -/

/-- An order of operator 0. -/
def order (key : Word) (ps : List Word) : Order := ⟨0, key, false, false, false, ps⟩

/-- An order of operator 0 with Force. -/
def forced (key : Word) (ps : List Word) : Order := ⟨0, key, true, false, false, ps⟩

/-- The command goes to a next state with a property. -/
def leaves (c : Instr) (s : State) (p : State → Bool) : Bool :=
  match exec c s with
  | .next t => p t
  | .fault _ | .refused _ => false

/-- An answer of this class and detail is pending. -/
def answers (st : Status) (detail : Nat) (t : State) : Bool :=
  match t.port with
  | .pending a => a.status = st && a.detail = detail
  | .idle | .processing _ => false

/-- The part in service with an empty plan. -/
def bare : State := { State.reset with service := .inService, load := .none }

/-- An Open window over the whole range. -/
def win : Window := { Window.blank with state := .opened, enabled := true }

/-- A carrier of window 1. -/
def car (frequency : Nat) (state : CarrierState) (bound : Option (Nat × Role)) : Carrier :=
  { Carrier.blank with frequency := frequency, window := some 1, state := state, bound := bound, intent := bound }

/-- A Parked station of a kind, on control unit 2. -/
def parkedStation (kind : StationKind) : Station :=
  { Station.ofWords stationDefaults with
    kind := kind
    power := kind.defaultPower
    controlUnit := some 2
    lamp := if kind.hasLamp then some ⟨.off, false, false⟩ else none }

/-- Station 1: a Mic that is Up, on carrier 1, with the standby 2. -/
def mic : Station :=
  { parkedStation .mic with
    primary := some 1
    standby := some 2
    link := .up
    token := 5
    wanted := ⟨some 20000, .audio, 10, false, 5⟩
    watch := .running 100 }

/-- Station 2: a Parked Mic with the primary 5. -/
def spare : Station := { parkedStation .mic with primary := some 5 }

/-- Station 3: a Beltpack that is Up. -/
def pack : Station := { parkedStation .beltpack with primary := some 6, link := .up, watch := .running 0 }

/-- Gallery 1: tally unit 3; source 1 is station 3. -/
def gal : Gallery := { Gallery.blank with tallyUnit := some 3, sources := [some 3] ++ List.replicate 31 none }

/-- A Fixed member that may listen and talk. -/
def memberOf (id : Source) (priority : Nat) : Member := ⟨id, true, true, priority, .fixed, [], false⟩

/-- Conference 1: station 3 and panel port 1. -/
def conf : Conference :=
  { Conference.blank with
    members := [memberOf (.station 3) 0, memberOf (.port 1) 1]
    routing := ⟨[⟨.station 3, true, true⟩, ⟨.port 1, true, true⟩], []⟩ }

/-- The part in service with a small plan; units 1 to 4 are Present, one of each kind, and the TKM unit is 4. -/
def plan : State :=
  { bare with
    windows := ⟨[(1, .held win)]⟩
    carriers := ⟨[(1, .held (car 20000 .assigned (some (1, .primary)))),
      (2, .held (car 30000 .standby (some (1, .standby)))), (3, .held (car 40000 .cleared none)),
      (4, .held (car 51300 .proposed none)), (5, .held (car 60000 .assigned (some (2, .primary)))),
      (6, .held (car 70000 .assigned (some (3, .primary))))]⟩
    stations := ⟨[(1, .held mic), (2, .held spare), (3, .held pack), (4, .held (parkedStation .camera))]⟩
    galleries := ⟨[(1, .held gal)]⟩
    conferences := ⟨[(1, .held conf)]⟩
    units := [⟨some .rx, .present, 0, []⟩, ⟨some .txc, .present, 0, []⟩, ⟨some .tgi, .present, 0, []⟩,
      ⟨some .tkm, .present, 0, []⟩] ++ List.replicate 28 LineUnit.reset
    settings := { Settings.defaults with matrixUnit := some 4 } }

/-- The plan with one station changed. -/
def planStation (k : Nat) (f : Station → Station) : State := plan.modStation k f

/-- The plan with a transaction on the line. -/
def asking (ask : Ask) : State := { plan with line := some ⟨ask, 7⟩ }

/-- Conference 1 with station 3's pair, the camera 4, on gallery 1, which follows the conference. -/
def following : State :=
  { (planStation 3 (fun x => { x with pair := some 4 })).modStation 4
      (fun x => { x with pair := some 3, tally := .live, contributing := [1] }) with
    galleries := ⟨[(1, .held { gal with follow := some 1 })]⟩ }

/-- The plan in Fault Handling, with this record under quarantine. -/
def quarantining (r : RecordId) : State :=
  { plan with service := .faultHandling, snapshot := some ⟨r, 5⟩, badCodes := [r] }

/-! ## Well-formedness: what the check refuses -/

theorem test_wf_order : (Instr.park (order 1 (List.replicate 17 0))).wf = false := by decide
theorem test_wf_order_store : (Instr.savePlan (order 1 (List.replicate 17 0)) true).wf = false := by decide
theorem test_wf_read_table : (Instr.read .part (order 0 [])).wf = false := by decide
theorem test_wf_read_order : (Instr.read .window (order 0 (List.replicate 17 0))).wf = false := by decide
theorem test_wf_claim_table : (Instr.claim .unit (order 1 [])).wf = false := by decide
theorem test_wf_claim_order : (Instr.claim .window (order 1 (List.replicate 17 0))).wf = false := by decide
theorem test_wf_release_table : (Instr.release .operator (order 1 [])).wf = false := by decide
theorem test_wf_nextMarked_table : (Instr.nextMarked .operator (order 1 [])).wf = false := by decide
theorem test_wf_nextMarked_order : (Instr.nextMarked .unit (order 1 (List.replicate 17 0))).wf = false := by decide
theorem test_wf_load : (Instr.load (some 4096)).wf = false := by decide
theorem test_wf_window : (Instr.graceExpiry 17).wf = false ∧ (Instr.graceExpiry 0).wf = false := by decide
theorem test_wf_station : (Instr.tuneTimeout 97).wf = false ∧ (Instr.callTimeout 0).wf = false := by decide
theorem test_wf_carrier :
    (Instr.cleanAgePassingLinkWatch 129).wf = false ∧ (Instr.cleanAgePassingLinkWatch 0).wf = false := by decide
theorem test_wf_cueTimeout : (Instr.cueTimeout 1 97).wf = false ∧ (Instr.cueTimeout 97 1).wf = false := by decide
theorem test_wf_unitFrame : (Instr.pollAnswered (List.replicate 216 0)).wf = false := by decide +kernel
theorem test_wf_write :
    (Instr.orderFrame [] true).wf = false ∧ (Instr.orderFrame [0x3A] true).wf = false ∧
      (Instr.overrun [0x3A]).wf = false := by decide
theorem test_wf_answerRead : (Instr.answerRead 0).wf = false := by decide
theorem test_wf_saveFailed : (Instr.saveFailed 0).wf = false := by decide
theorem test_wf_accepts : (Instr.park (order 1 (List.replicate 16 0))).wf = true ∧ (Instr.load (some 4095)).wf = true :=
  by decide

/-! ## The queue -/

theorem test_step_front :
    (match step { plan with pending := [.readPart (order 0 []), .poll] } with
      | .next t => t.pending = [.poll] && answers .done 0 t
      | _ => false) = true := by decide +kernel

/-! ## One step of each command -/

theorem test_powerOn :
    leaves .powerOn plan (fun t => t.service = .starting ∧ t.load = .memoryTest ∧ t.carriers.slots = []) = true := by
  decide +kernel
theorem test_reset :
    leaves .reset { plan with snapshot := some ⟨⟨.window, 1⟩, 5⟩ }
      (fun t => t.service = .starting ∧ t.snapshot = some ⟨⟨.window, 1⟩, 5⟩ ∧ t.latched.clock) = true := by
  decide +kernel
theorem test_memoryTest :
    leaves (.memoryTest true) State.reset (fun t => t.load = .loading) = true ∧
      leaves (.memoryTest false) State.reset (fun t => t.service = .halted ∧ t.startCode = 6) = true := by
  decide +kernel
theorem test_load :
    leaves (.load (some 0)) { State.reset with load := .loading }
      (fun t => t.service = .inService ∧ t.startCode = 1 ∧ t.storeOutcome = 2) = true := by
  decide +kernel
/-- A load reads the Part record before it writes it: a damaged one halts the part with the start code of before. -/
theorem test_loadDamagedPart :
    leaves (.load (some 0)) { State.reset with load := .loading, startCode := 9, badCodes := [⟨.part, 0⟩] }
      (fun t => t.service = .halted ∧ t.startCode = 9 ∧ t.snapshot = some ⟨⟨.part, 0⟩, Activity.notice⟩) = true := by
  decide +kernel
theorem test_showClockAdvance :
    leaves .showClockAdvance { plan with clock := ⟨false, 2024, 2, 28, 86399, 0⟩ }
      (fun t => t.clock = ⟨false, 2024, 2, 29, 0, 0⟩) = true := by
  decide +kernel
theorem test_graceExpiry :
    leaves (.graceExpiry 1) { plan with windows := ⟨[(1, .held { win with state := .closing, grace := some 0 })]⟩ }
      (fun t => (t.carrier 1).map Carrier.state = some .proposed ∧ (t.station 1).map Station.link = some .parked ∧
        (t.window 1).map Window.state = some .closed) = true := by
  decide +kernel
/-- In Fault Handling the expiry falls due without a read, and the grace of the window under quarantine stands (R17). -/
theorem test_graceInFault :
    let s : State := { plan with
      windows := ⟨[(1, .held { win with state := .closing, grace := some 3 })]⟩
      service := .faultHandling
      badCodes := [⟨.window, 1⟩] }
    leaves (.graceExpiry 1) { s with snapshot := some ⟨⟨.window, 1⟩, 3⟩ }
        (fun t => t.service = .faultHandling ∧ (t.window 1).map Window.grace = some (some 3)) = true ∧
      leaves (.graceExpiry 1) { s with snapshot := some ⟨⟨.carrier, 1⟩, 3⟩ }
        (fun t => t.service = .faultHandling ∧ (t.window 1).map Window.grace = some (some 0)) = true := by
  decide +kernel
theorem test_endOfCheck :
    leaves .endOfCheck { plan.modCarrier 4 (fun y => { y with state := .checking }) with engine := some ⟨4, none⟩ }
      (fun t => (t.carrier 4).map Carrier.state = some .cleared ∧ t.engine = none) = true := by
  decide +kernel
theorem test_tuneTimeout :
    leaves (.tuneTimeout 1) (planStation 1 (fun x => { x with link := .tuning, attempts := 1, tuneTimer := some 3000 }))
      (fun t => (t.station 1).map Station.attempts = some 2 ∧ (t.station 1).map Station.token = some 6) = true := by
  decide +kernel
theorem test_watchRunsOut :
    leaves (.watchRunsOut 1) plan (fun t => (t.station 1).map Station.link = some .lost) = true := by decide +kernel
theorem test_recovery :
    leaves (.recovery 1)
      (State.modCarrier (planStation 1 (fun x => { x with recoveryRun := some 10000 })) 2
        (fun y => { y with state := .blocked }))
      (fun t => (t.carrier 2).map Carrier.state = some .standby) = true := by
  decide +kernel
theorem test_cleanAgePassingLinkWatch :
    leaves (.cleanAgePassingLinkWatch 2)
      (State.modCarrier (planStation 1 (fun x => { x with recoveryRun := some 9 })) 2
        (fun y => { y with state := .blocked, cleanScore := some 90, cleanAge := some 500 }))
      (fun t => (t.station 1).map Station.recoveryRun = some none ∧
        (t.carrier 2).map Carrier.cleanAge = some (some 501)) = true := by
  decide +kernel
theorem test_callTimeout :
    leaves (.callTimeout 3) (planStation 3 (fun x => { x with call := some .single, callRemaining := some 0 }))
      (fun t => (t.station 3).map Station.call = some none ∧ (t.station 3).map Station.mark = some [16]) = true := by
  decide +kernel
theorem test_cueTimeout :
    leaves (.cueTimeout 3 512)
      (planStation 3 (fun x => { x with stack := [⟨.operator 0, .floor, true, 0⟩], accept := false }))
      (fun t => (t.station 3).map Station.stack = some [] ∧ (t.station 3).map Station.accept = some true) = true := by
  decide +kernel
theorem test_poll : leaves .poll plan (fun t => t.line = some ⟨.poll 1, 1⟩) = true := by decide +kernel
theorem test_discover :
    leaves .discover { plan with round := [.discover 5] } (fun t => t.line = some ⟨.discover 5, 1⟩) = true := by
  decide +kernel

/-- A TALLY item reads its gallery before it compares the tally unit with the sender. -/
theorem test_tallyReads :
    leaves (.pollAnswered (unitFrame (.poll 3) 7 .tgi [4#16, 1#16, 1#16, 0#16, 0#16]))
      { (asking (.poll 3)).modGallery 1 (fun g => { g with tallyUnit := some 9 }) with badCodes := [⟨.gallery, 1⟩] }
      (fun t => t.service = .faultHandling ∧ t.snapshot = some ⟨⟨.gallery, 1⟩, Activity.item⟩) = true := by
  decide +kernel

/-- A lamp entry of unit 2 for station 3. -/
def lampEntry : Entry := ⟨2, .lamp, 3, .lamp ⟨.live, false, false⟩, false, 0, false⟩

theorem test_directiveTurn :
    leaves .directiveTurn { plan with queue := [lampEntry], turn := .directive }
      (fun t => t.queue = [{ lampEntry with sent := true, attempts := 1 }] ∧ t.line ≠ none) = true := by
  decide +kernel

/-- An entry whose third end was not taken goes out again with 3 attempts. -/
theorem test_directiveAgain :
    leaves .directiveTurn { plan with queue := [{ lampEntry with sent := true, attempts := 3 }], turn := .directive }
      (fun t => t.queue = [{ lampEntry with sent := true, attempts := 3 }]) = true := by
  decide +kernel

/-- The answer of RX unit 1 to the poll 7, written out: a QUALITY item of station 1, carrier 1, quality 30. -/
theorem test_pollAnswered :
    leaves (.pollAnswered [0x2D, 1, 1, 7, 0, 4, 0, 1, 0, 1, 0, 1, 0, 30, 0xA5]) (asking (.poll 1))
      (fun t => (t.station 1).map Station.quality = some (some 30) ∧ (t.station 1).map Station.link = some .weak ∧
        t.line = none) = true := by
  decide +kernel
theorem test_pollMissed :
    leaves .pollMissed (asking (.poll 1)) (fun t => t.unitAt 1 = some ⟨some .rx, .present, 1, []⟩) = true := by
  decide +kernel

/-- The Discover answer of an RX unit 5, written out, matches the Discover 7 of address 5 and no other transaction. -/
theorem test_discoverAnswered :
    (Transaction.mk (.discover 5) 7).matching [0x2D, 5, 2, 7, 0, 0, 0xC5] = some ⟨some .rx, []⟩ ∧
      leaves (.discoverAnswered [0x2D, 5, 2, 7, 0, 0, 0xC5]) { plan with line := some ⟨.discover 5, 8⟩ }
        (fun t => t.line = some ⟨.discover 5, 8⟩ ∧ t.units = plan.units) = true := by
  decide +kernel
theorem test_discoverMissed :
    leaves .discoverMissed (asking (.discover 5)) (fun t => t.line = none ∧ t.units = plan.units) = true := by
  decide +kernel

/-- The lamp directive has been sent once. -/
def lampSent (attempts : Nat) : State :=
  { planStation 3 (fun x => { x with lamp := some ⟨.live, false, false⟩ }) with
    queue := [{ lampEntry with sent := true, attempts := attempts }]
    line := some ⟨.directive 2 .lamp 3 (.lamp ⟨.live, false, false⟩), 7⟩ }

/-- The acknowledgement of TXC unit 2, written out: directive code 3 (LAMP), target 3. -/
theorem test_acknowledgement :
    leaves (.acknowledgement (unitFrame (.directive 2 .lamp 3 (.lamp ⟨.live, false, false⟩)) 7 .txc
        [wordOf (Content.code (.lamp ⟨.live, false, false⟩)), 3])) (lampSent 1)
      (fun t => t.queue = [] ∧ (t.station 3).map Station.deliveredLamp = some (some ⟨.live, false, false⟩)) = true := by
  decide +kernel
theorem test_acknowledgementMissed :
    leaves .acknowledgementMissed (lampSent 3)
      (fun t => (t.unitAt 2).map LineUnit.state = some .lost ∧ t.queue = []) = true := by
  decide +kernel

/-- FREEZE PLAN of operator 0, written out. -/
theorem test_orderFrame :
    leaves (.orderFrame [0xC5, 0, 8, 20, 0, 0, 0, 0, 0x1F] true) plan
      (fun t => t.freezeHolder = some 0 ∧ answers .done 0 t) = true := by
  decide +kernel
theorem test_overrun :
    leaves (.overrun [0xC5]) { plan with port := .processing 0 } (fun t => t.latched.overrun) = true := by
  decide +kernel
theorem test_answerRead :
    leaves (.answerRead 8) { plan with port := .pending ⟨.done, 0, 1, []⟩ }
      (fun t => t.port = .idle ∧ t.miso = [0, 0x5C, 0, 0, 0, 1, 0, 0xA3]) = true := by
  decide +kernel
theorem test_read :
    leaves (.read .carrier (order 3 [1])) plan
      (fun t => match t.port with
        | .pending a => a.status = .done ∧ a.words.take 5 = [0, 40000, 1, 1, 0xFFFF]
        | _ => false) = true := by
  decide +kernel
theorem test_readConference :
    leaves (.readConference (order 1 [0])) plan (answers .done 0) = true := by decide +kernel
theorem test_readPart :
    leaves (.readPart (order 0 [])) { plan with service := .halted }
      (fun t => match t.port with | .pending a => a.status = .done ∧ a.words.length = 38 | _ => false) = true := by
  decide +kernel
theorem test_claim :
    leaves (.claim .carrier (order 3 [])) plan (fun t => (t.carrier 3).map Carrier.claim = some (some 0)) = true := by
  decide +kernel
theorem test_release :
    leaves (.release .carrier (order 3 [])) plan (answers .state 30) = true := by decide +kernel
theorem test_nextMarked :
    leaves (.nextMarked .station (order 0 [])) (plan.markStation 2 4)
      (fun t => t.port = .pending ⟨.done, 0, 2, [4]⟩ ∧ (t.station 2).map Station.mark = some []) = true := by
  decide +kernel
theorem test_defineWindow :
    leaves (.defineWindow (order 2 [18, 1, 19, 7])) plan
      (fun t => answers .doneAdjusted 1 t ∧ (t.window 2).map Window.state = some .opened ∧
        (t.window 2).map Window.vacateGrace = some 5) = true := by
  decide +kernel
theorem test_editWindow :
    leaves (.editWindow (order 1 [18, 0])) plan
      (fun t => (t.window 1).map Window.state = some .closing ∧ (t.window 1).map Window.grace = some (some 60000)) =
      true := by
  decide +kernel
theorem test_retireWindow :
    leaves (.retireWindow (order 1 [])) { plan with carriers := ⟨[]⟩ } (fun t => t.window 1 = none) = true := by
  decide +kernel
theorem test_defineCarrier :
    leaves (.defineCarrier (order 7 [1, 1, 2, 0, 4, 1])) plan
      (fun t => (t.carrier 7).map Carrier.frequency = some 65536 ∧ (t.carrier 7).map Carrier.state = some .proposed) =
      true := by
  decide +kernel
theorem test_editCarrier :
    leaves (.editCarrier (order 3 [2, 41000])) plan
      (fun t => (t.carrier 3).map Carrier.frequency = some 41000 ∧ (t.carrier 3).map Carrier.state = some .proposed) =
      true := by
  decide +kernel
/-- The intent's station and a newly mapped station are read, though no word of the old records names them. -/
theorem test_wordsRead :
    leaves (.defineCarrier (order 7 [4, 1, 5, 4, 6, 0])) { plan with badCodes := [⟨.station, 4⟩] }
        (fun t => answers .notInService 2 t ∧ t.snapshot = some ⟨⟨.station, 4⟩, 0x8201⟩ ∧ t.carrier 7 = none) = true ∧
      leaves (.editGallery (order 1 [17, 4])) { plan with badCodes := [⟨.station, 4⟩] }
        (fun t => answers .notInService 2 t ∧ t.snapshot = some ⟨⟨.station, 4⟩, 0x8402⟩ ∧
          t.galleries = plan.galleries) = true := by
  decide +kernel
/-- A Waiting delivery that the scan meets in a full queue: equal to what is delivered it becomes Current, else it stays (R152). -/
theorem test_scanFullQueue :
    ∀ equal ∈ [true, false],
      let s : State := { planStation 2 (fun x => { x with
          tuneBase := .waiting, delivered := if equal then some x.wanted else none }) with
        queue := List.replicate 64 ⟨2, .tune, 3, .cueRoute none, false, 0, false⟩ }
      (s.scanOne (.tune, 2)).deliveryCode .tune 2 = some (if equal then 0 else 3) ∧
        (s.scanOne (.tune, 2)).queue.length = 64 := by
  decide +kernel
theorem test_retireCarrier :
    leaves (.retireCarrier (order 3 [])) plan (fun t => t.carrier 3 = none ∧ t.storeStates.carrier) = true := by
  decide +kernel
theorem test_checkCarrier :
    leaves (.checkCarrier (order 4 [])) plan
      (fun t => (t.carrier 4).map Carrier.state = some .checking ∧ t.engine = some ⟨4, none⟩) = true := by
  decide +kernel
theorem test_cancelCheck :
    leaves (.cancelCheck (order 4 []))
      { plan.modCarrier 4 (fun y => { y with state := .checking }) with engine := some ⟨4, none⟩ }
      (fun t => (t.carrier 4).map Carrier.state = some .proposed ∧ t.engine = none) = true := by
  decide +kernel
/-- The engine takes its next candidate before the answer (R22, R32): a damaged carrier that it meets, at the head of the
Check Queue or in the search for restore pending, interrupts the order, which has no effect (R181). -/
theorem test_engineLooks :
    ∀ queue ∈ [[5], []], leaves (.cancelCheck (order 4 []))
      { (plan.modCarrier 4 (fun y => { y with state := .checking })).modCarrier 5 (fun y => { y with window := none }) with
        engine := some ⟨4, none⟩
        checkQueue := queue
        badCodes := [⟨.carrier, 5⟩] }
      (fun t => answers .notInService 2 t ∧ t.engine = some ⟨4, none⟩ ∧ t.checkQueue = queue ∧
        (t.carrier 4).map Carrier.state = some .checking ∧ t.service = .faultHandling ∧
        t.snapshot = some ⟨⟨.carrier, 5⟩, 0x8211⟩) = true := by
  decide +kernel
theorem test_blockCarrier :
    leaves (.blockCarrier (order 1 [])) plan
      (fun t => (t.station 1).map Station.link = some .switching ∧
        (t.station 1).map Station.blockOutgoing = some (some true)) = true := by
  decide +kernel
theorem test_unblockCarrier :
    leaves (.unblockCarrier (order 2 [])) (plan.modCarrier 2 (fun y => { y with state := .blocked }))
      (fun t => (t.carrier 2).map Carrier.state = some .standby ∧ !t.storeStates.carrier) = true := by
  decide +kernel
theorem test_setCoordination :
    leaves (.setCoordination (order 0 [4, 2, 0])) plan (fun t => answers .done 0 t ∧ !t.storeStates.part) = true := by
  decide +kernel
theorem test_defineStation :
    leaves (.defineStation (order 5 [7, 3, 10, 30])) plan
      (fun t => answers .doneAdjusted 1 t ∧ (t.station 5).map Station.power = some 25 ∧
        (t.station 5).map Station.link = some .parked) = true := by
  decide +kernel
theorem test_editStation :
    leaves (.editStation (order 1 [10, 25])) plan
      (fun t => (t.station 1).map Station.link = some .tuning ∧ (t.station 1).map Station.power = some 25) = true := by
  decide +kernel
theorem test_retireStation :
    leaves (.retireStation (order 2 [])) plan
      (fun t => t.station 2 = none ∧ (t.carrier 5).map Carrier.state = some .cleared) = true := by
  decide +kernel
theorem test_bindStation :
    leaves (.bindStation (order 2 [3, 1])) plan
      (fun t => (t.station 2).map Station.standby = some (some 3) ∧ (t.carrier 3).map Carrier.state = some .standby) =
      true := by
  decide +kernel
theorem test_unbindStation :
    leaves (.unbindStation (order 1 [1])) plan
      (fun t => (t.station 1).map Station.standby = some none ∧ (t.carrier 2).map Carrier.state = some .cleared) =
      true := by
  decide +kernel
/-- A role word that is no role concerns no carrier (R47). -/
theorem test_unbindRole :
    leaves (.unbindStation (order 1 [2])) (plan.modCarrier 1 (fun y => { y with claim := some 3 })) (answers .range 2) =
      true := by
  decide +kernel
theorem test_goLive :
    leaves (.goLive (order 2 [])) plan
      (fun t => (t.station 2).map Station.link = some .tuning ∧ (t.station 2).map Station.token = some 1 ∧
        t.queue.map Entry.unit = [2]) = true := by
  decide +kernel
theorem test_park :
    leaves (.park (order 1 [])) plan
      (fun t => (t.station 1).map Station.link = some .parked ∧
        (t.station 1).map (fun x => x.wanted.muted) = some true) = true := by
  decide +kernel
theorem test_swap :
    leaves (.swap (order 1 [])) plan
      (fun t => (t.station 1).map Station.link = some .switching ∧
        (t.station 1).map (fun x => x.wanted.frequency) = some (some 30000)) = true := by
  decide +kernel
theorem test_setLink :
    leaves (.setLink (order 0 [520, 40, 15, 10, 10])) plan
      (fun t => answers .doneAdjusted 1 t ∧ t.settings.linkWatch = 500) = true := by
  decide +kernel
theorem test_callStation :
    leaves (.callStation (order 3 [])) plan
      (fun t => (t.station 3).map Station.call = some (some .single) ∧
        (t.station 3).map Station.lamp = some (some ⟨.off, false, true⟩)) = true := by
  decide +kernel
theorem test_clearCall :
    leaves (.clearCall (order 3 [])) (planStation 3 (fun x => { x with call := some .latched }))
      (fun t => (t.station 3).map Station.call = some none) = true := by
  decide +kernel
theorem test_defineGallery :
    leaves (.defineGallery (order 2 [7, 3])) plan
      (fun t => (t.gallery 2).map Gallery.tallyUnit = some (some 3)) = true := by
  decide +kernel
theorem test_editGallery :
    leaves (.editGallery (order 1 [16, 0xFFFF])) plan
      (fun t => (t.gallery 1).map (fun g => g.stationOf 1) = some none ∧ t.storeStates.gallery) = true := by
  decide +kernel
theorem test_retireGallery :
    leaves (.retireGallery (order 1 [])) plan (fun t => t.gallery 1 = none) = true := by decide +kernel
theorem test_defineConference :
    leaves (.defineConference (order 2 [])) plan (fun t => (t.conference 2).isSome) = true := by decide +kernel
theorem test_editConference :
    leaves (.editConference (order 1 [1, 0x4142])) plan
      (fun t => (t.conference 1).map (fun x => x.label.head?) = some (some 0x4142)) = true := by
  decide +kernel
theorem test_retireConference :
    leaves (.retireConference (order 1 [])) plan (fun t => t.conference 1 = none) = true := by decide +kernel
theorem test_addMember :
    leaves (.addMember (order 1 [258, 1, 2])) plan
      (fun t => (t.conference 1).map (fun x => x.members.getLast?) =
        some (some ⟨.port 2, true, false, 2, .fixed, [], false⟩)) = true := by
  decide +kernel
theorem test_removeMember :
    leaves (.removeMember (order 1 [257])) plan
      (fun t => (t.conference 1).map Conference.members = some [memberOf (.station 3) 0]) = true := by
  decide +kernel
theorem test_setCueAccept :
    leaves (.setCueAccept (order 3 [0])) plan (fun t => (t.station 3).map Station.accept = some false) = true := by
  decide +kernel
theorem test_cue :
    leaves (.cue (order 3 [1, 1])) plan
      (fun t => (t.station 3).map Station.stack = some [⟨.operator 0, .director, true, 30000⟩] ∧
        (t.station 3).map Station.accept = some false) = true := by
  decide +kernel
theorem test_clearCues :
    leaves (.clearCues (order 3 []))
      (planStation 3 (fun x => { x with stack := [⟨.port 1, .floor, true, 5⟩], accept := false }))
      (fun t => (t.station 3).map Station.stack = some [] ∧ (t.station 3).map Station.accept = some true) = true := by
  decide +kernel
theorem test_setCue :
    leaves (.setCue (order 0 [20, 7, 3, 7])) plan
      (fun t => t.settings.cueLimit = 20 ∧ t.settings.directorPorts = [3, 7]) = true := by
  decide +kernel
theorem test_editOperator :
    leaves (.editOperator (order 1 [1, 3, 2, 1])) plan (fun t => t.operatorAt 1 = ⟨3, 1⟩) = true := by decide +kernel
theorem test_defineOperator : leaves (.defineOperator (order 1 [])) plan (answers .key 2) = true := by decide +kernel
theorem test_retireOperator : leaves (.retireOperator (order 1 [])) plan (answers .state 2) = true := by decide +kernel
theorem test_releaseAll :
    leaves (.releaseAll (order 0 [])) (plan.modCarrier 3 (fun y => { y with claim := some 0 }))
      (fun t => t.port = .pending ⟨.done, 0, 0, [1]⟩ ∧ (t.carrier 3).map Carrier.claim = some none) = true := by
  decide +kernel
/-- RELEASE ALL tests the claim of every record, the unclaimed ones too. -/
theorem test_releaseAllReads :
    leaves (.releaseAll (order 0 [])) { plan with badCodes := [⟨.carrier, 3⟩] } (answers .notInService 2) = true := by
  decide +kernel
theorem test_freezePlan : leaves (.freezePlan (order 0 [])) plan (fun t => t.freezeHolder = some 0) = true := by
  decide +kernel
theorem test_thawPlan :
    leaves (.thawPlan (forced 0 [])) { plan with freezeHolder := some 3 }
      (fun t => t.freezeHolder = none ∧ t.port = .pending ⟨.done, 0, 0, [3]⟩) = true := by
  decide +kernel
theorem test_setClock :
    leaves (.setClock (order 0 [2024, 2, 29, 12, 30, 15])) plan
      (fun t => t.clock = ⟨false, 2024, 2, 29, 45015, 0⟩) = true := by
  decide +kernel
theorem test_setMatrixUnit :
    leaves (.setMatrixUnit (order 0 [6])) plan (fun t => t.settings.matrixUnit = some 6) = true := by decide +kernel
theorem test_forgetUnit :
    leaves (.forgetUnit (order 1 [])) (plan.modUnit 1 (fun u => { u with state := .lost }))
      (fun t => t.unitAt 1 = some ⟨none, .absent, 0, []⟩) = true := by
  decide +kernel
theorem test_lineReset :
    leaves (.lineReset (order 0 [])) (asking (.poll 1))
      (fun t => t.line = none ∧ t.units.all (fun u => u.state = .absent)) = true := by
  decide +kernel
theorem test_readAttention :
    leaves (.readAttention ⟨0, 0, false, false, true, []⟩) plan
      (fun t => t.port = .pending ⟨.done, 0, 0, [0x0800, 0x0F3F]⟩ ∧ !t.latched.clock) = true := by
  decide +kernel
theorem test_savePlan :
    leaves (.savePlan (order 0 []) true) plan (fun t => t.saving ∧ t.store.read 0 = 0) = true := by decide +kernel
theorem test_saveEnd :
    leaves .saveEnd { bare with saving := true, store := Memory.write ⟨[]⟩ 0 0 }
      (fun t => t.store.read 0 = 0x7A31 ∧ t.storeOutcome = 3 ∧ !t.saving) = true := by
  decide +kernel
theorem test_saveFailed :
    leaves (.saveFailed 1) { bare with saving := true, store := Memory.write ⟨[]⟩ 0 0 }
      (fun t => t.store.read 0 = 0 ∧ t.storeOutcome = 4 ∧ t.storeStates = StoreStates.changed) = true := by
  decide +kernel
theorem test_reloadPlan :
    leaves (.reloadPlan (forced 9 [])) plan (fun t => t.port = .processing 9 ∧ t.stations.slots = []) = true := by
  decide +kernel
theorem test_restart :
    leaves (.restart (forced 0 [1])) plan (fun t => t.service = .starting ∧ t.load = .loading) = true := by
  decide +kernel
theorem test_storeRead :
    leaves (.storeRead (order 0 [4095]) true) plan (fun t => t.port = .pending ⟨.done, 0, 0, [0xFFFF]⟩) = true := by
  decide +kernel
theorem test_storeWrite :
    leaves (.storeWrite (order 0 [4095, 7]) true) plan
      (fun t => t.store.read 4095 = 7 ∧ t.storeStates = StoreStates.changed) = true := by
  decide +kernel
theorem test_quarantine :
    leaves .quarantine
      { plan with
        service := .faultHandling
        snapshot := some ⟨⟨.gallery, 1⟩, 5⟩
        badCodes := [⟨.gallery, 1⟩] }
      (fun t => t.service = .inService ∧ t.galleries.slot 1 = some (.damaged [6]) ∧ t.badCodes = []) = true := by
  decide +kernel

/-- A quarantine stops at the stage whose reads meet a second damaged record, with the earlier stages done (R183). -/
theorem test_quarantineStops :
    let s : State := { quarantining ⟨.carrier, 3⟩ with badCodes := [⟨.carrier, 3⟩, ⟨.station, 2⟩] }
    leaves .quarantine s
      (fun t => t.service = .halted ∧ t.snapshot = s.snapshot ∧ t.carriers.slot 3 = s.carriers.slot 3) = true := by
  decide +kernel

/-- The quarantine of a member serves the wait list of its conference, and stops where a waiting beltpack is damaged too. -/
theorem test_quarantineServes :
    let s : State := State.modConference { quarantining ⟨.station, 1⟩ with badCodes := [⟨.station, 1⟩, ⟨.station, 3⟩] } 1
      (fun x => { x with members := [memberOf (.station 1) 0], waiting := [3] })
    leaves .quarantine s
      (fun t => t.service = .halted ∧ t.snapshot = s.snapshot ∧ t.stations.slot 1 = some (.damaged []) ∧
        t.conference 1 = s.conference 1) = true := by
  decide +kernel

/-- What the record under quarantine named is not read: a damaged Operator in its cue stack does not halt the part. -/
theorem test_quarantineNames :
    let s := planStation 3 (fun x => { x with stack := [⟨.operator 2, .floor, true, 5⟩] })
    leaves .quarantine
        { s with service := .faultHandling, snapshot := some ⟨⟨.station, 3⟩, 5⟩, badCodes := [⟨.station, 3⟩, ⟨.operator, 2⟩] }
        (fun t => t.service = .inService ∧ t.badCodes = [⟨.operator, 2⟩]) = true ∧
      leaves .directiveTurn
        { s with
          service := .faultHandling
          snapshot := some ⟨⟨.station, 3⟩, 5⟩
          badCodes := [⟨.station, 3⟩, ⟨.operator, 2⟩]
          queue := [lampEntry]
          turn := .directive }
        (fun t => t.service = .faultHandling ∧ t.line ≠ none) = true := by
  decide +kernel

/-- A tally that would move the lamp of the station under quarantine leaves its record as it stands. -/
theorem test_besideQuarantine :
    let s := following.modGallery 1 (fun g => { g with sources := [some 4] ++ List.replicate 31 none })
    leaves (.pollAnswered (unitFrame (.poll 3) 7 .tgi [4#16, 1#16, 1#16, 1#16, 0#16, 1#16]))
      { s with
        line := some ⟨.poll 3, 7⟩
        service := .faultHandling
        snapshot := some ⟨⟨.station, 4⟩, 5⟩
        badCodes := [⟨.station, 4⟩] }
      (fun t => t.service = .faultHandling ∧ t.station 4 = s.station 4 ∧ (t.gallery 1).map Gallery.program = some [1]) =
      true := by
  decide +kernel

/-- After a failed memory test a READ PART that finds the Part record damaged leaves its snapshot and the Fault flag. -/
theorem test_readPartFinds :
    leaves (.readPart (order 0 [])) { plan with service := .halted, startCode := 6, badCodes := [⟨.part, 0⟩] }
      (fun t => t.snapshot = some ⟨⟨.part, 0⟩, 0x8804⟩ ∧ t.latched.fault ∧ answers .done 0 t) = true := by
  decide +kernel

/-- The timers that a millisecond makes due: the clock, a grace, a tuning and a cue. -/
theorem test_tickDue :
    ({ (planStation 3 (fun x => { x with tuneTimer := some 2999, stack := [⟨.port 1, .floor, true, 1⟩] })) with
        clock := ⟨false, 2024, 1, 1, 0, 999⟩
        windows := ⟨[(1, .held { win with state := .closing, grace := some 1 })]⟩ } : State).tickClock.tickTimers.pending =
      [.showClockAdvance, .graceExpiry 1, .tuneTimeout 3, .cueTimeout 3 257] := by
  decide +kernel

/-! ## Witnesses: states and operands that meet the hypotheses of each statement -/

/-- What leaves says. -/
theorem next_of_leaves {c : Instr} {s : State} {p : State → Bool} (h : leaves c s p = true) :
    ∃ t, exec c s = .next t ∧ p t = true := by
  unfold leaves at h
  split at h
  · exact ⟨_, by assumption, h⟩
  · exact absurd h (by decide)
  · exact absurd h (by decide)

/-- A window mask lets an operator change a carrier of a window. -/
theorem maskPermits_some {s : State} {o : Order} {w : Nat} (h : s.permitsWindow o.operator.val w = true) :
    s.maskPermits o (some w) := by
  intro v e; cases e; exact h

/-- A set clock at 23:59:00. -/
def lateClock : Clock := ⟨false, 2099, 12, 31, 86340, 999⟩

theorem meets_IdleStepTicks :
    (plan.pending = [] ∧ plan.clock.unset = true ∧ plan.service = .inService) ∧
      (State.pending { plan with clock := lateClock, service := .halted } = [] ∧ lateClock.unset = false) ∧
      plan.tablesInOrder := by
  decide +kernel

/-- Each kind of command that a millisecond makes due at a station. -/
theorem meets_comesDue :
    Station.comesDue { mic with tuneTimer := some 2999 } plan.settings 1 (.tuneTimeout 1) ∧
      Station.comesDue { mic with watch := .running 499 } plan.settings 1 (.watchRunsOut 1) ∧
      Station.comesDue { mic with recoveryRun := some 9999 } plan.settings 1 (.recovery 1) ∧
      Station.comesDue { pack with callRemaining := some 1 } plan.settings 3 (.callTimeout 3) ∧
      Station.comesDue { pack with stack := [⟨.port 1, .floor, true, 1⟩] } plan.settings 3 (.cueTimeout 3 257) :=
  ⟨.inl ⟨rfl, 2999, rfl, by decide⟩, .inr (.inl ⟨rfl, 499, rfl, by decide⟩),
    .inr (.inr (.inl ⟨rfl, 9999, rfl, by decide⟩)), .inr (.inr (.inr (.inl ⟨rfl, 1, rfl, by decide⟩))),
    .inr (.inr (.inr (.inr ⟨_, .head _, by decide, by decide⟩)))⟩

theorem meets_StepKeepsInv :
    ∃ t, State.Inv { plan with pending := [.thawPlan (order 0 [])] } ∧
      step { plan with pending := [.thawPlan (order 0 [])] } = .next t :=
  ⟨_, by unfold State.Inv State.queuesFit State.fixedRecords; decide +kernel, rfl⟩

/-- In service, with no record: every hypothesis of the three clauses. -/
theorem meets_StepKeepsListsFit :
    ∃ t, State.conferencesFit { bare with pending := [.thawPlan (order 0 [])] } ∧
      State.stacksFit { bare with pending := [.thawPlan (order 0 [])] } ∧
      State.Inv { bare with pending := [.thawPlan (order 0 [])] } ∧
      State.recordLaws { bare with pending := [.thawPlan (order 0 [])] } ∧
      State.committedLaws { bare with pending := [.thawPlan (order 0 [])] } ∧
      step { bare with pending := [.thawPlan (order 0 [])] } = .next t := by
  have none_ne {α : Type} {x : α} : ¬ (none = some x) := nofun
  refine ⟨_, fun k x h => absurd h none_ne, fun k x h => absurd h none_ne, ?_,
    fun _ => ⟨?_, ⟨?_, ?_⟩, ⟨?_, ?_, ?_, ?_⟩, ?_, ?_⟩, fun _ => ⟨⟨?_, ?_⟩, ?_, ?_⟩, rfl⟩
  · unfold State.Inv State.queuesFit State.fixedRecords; decide +kernel
  · exact fun k x b h => absurd h none_ne
  · exact fun k x r c h => absurd h none_ne
  · exact fun c y h => absurd h none_ne
  · exact List.nodup_nil
  · exact fun c h => absurd h (List.not_mem_nil)
  · exact fun k h => absurd h none_ne
  · exact fun c y h => absurd h none_ne
  · exact fun c x _ _ h => absurd h none_ne
  · exact fun k x h => absurd h none_ne
  · exact fun a b y z _ h => absurd h none_ne
  · exact fun a b c x y z _ _ _ h => absurd h none_ne
  · exact fun c y h => absurd h none_ne
  · exact fun k _ h => absurd h none_ne

/-- Carriers that keep the laws of the committed set, and two that do not. -/
theorem meets_apart :
    bare.spaced (car 20000 .assigned none) (car 20012 .cleared none) ∧
      ¬ bare.spaced (car 20000 .assigned none) (car 20011 .cleared none) ∧
      ¬ (2 < ((2 : Int) * 20000 - (2 - 1) * 30000 - 10002).natAbs) ∧ 2 < ((2 : Int) * 20000 - (2 - 1) * 30000 - 10003).natAbs := by
  unfold State.spaced
  decide

/-- A count that PARK does not take, the counts that PARK and RESTART take, and the three service states. -/
theorem meets_OutOfServiceRefusesOrder :
    orderIn (.park (order 1 (List.replicate 16 0))) = some (order 1 (List.replicate 16 0)) ∧
      (order 1 (List.replicate 16 0)).params.length ≤ 16 ∧ countTakes 3 19 16 = false ∧
      orderIn (.park (order 1 [])) = some (order 1 []) ∧ countTakes 3 19 0 = true ∧
      Instr.park (order 1 []) ≠ .readPart (order 1 []) ∧ Instr.park (order 1 []) ≠ .restart (order 1 []) ∧
      orderIn (.restart (order 0 [1])) = some (order 0 [1]) ∧ countTakes 8 26 1 = true ∧
      Instr.restart (order 0 [1]) ≠ .readPart (order 0 [1]) ∧
      ∀ v ∈ [Service.starting, .faultHandling, .halted],
        State.port { plan with service := v } = .idle ∧ State.service { plan with service := v } = v := by
  decide +kernel

theorem meets_RefusalChangesNothing :
    orderIn (.park (order 9 [])) = some (order 9 []) ∧ storeAnswers (.park (order 9 [])) = true ∧ plan.port = .idle ∧
      plan.badCodes = [] ∧ ∃ t a, exec (.park (order 9 [])) plan = .next t ∧ t.port = .pending a ∧ 2 ≤ a.status.code := by
  refine ⟨by decide, by decide, by decide +kernel, by decide +kernel, ?_⟩
  obtain ⟨t, h1, h2⟩ := next_of_leaves (c := .park (order 9 [])) (s := plan)
    (p := fun t => decide (t.port = .pending ⟨.key, 1, 9, []⟩)) (by decide +kernel)
  exact ⟨t, _, h1, of_decide_eq_true h2, by decide⟩

theorem meets_FrameRunsItsOrder :
    orderIn (.bindStation (order 2 [3, 1])) = some (order 2 [3, 1]) ∧ (order 2 [3, 1]).wf = true ∧ plan.port = .idle ∧
      plan.takes ∧ plan.holdsRight (order 0 []) .plan ∧ claimFree (order 0 []) plan.freezeHolder := by
  decide +kernel

/-- A frame per failing test, in the order of R162: the first verb that a table does not take, and a PARK of one word. -/
theorem meets_MalformedFrameIsAnswered :
    plan.port = .idle ∧ (∀ bs ∈ ([[0x00], [0xC5], [0xC5, 0, 1, 1, 0, 1, 0, 0, 0], [0xC5, 8, 1, 1, 0, 1, 0, 0, 0x30],
      [0xC5, 7, 9, 1, 0, 1, 0, 0, 0x29], [0xC5, 7, 8, 1, 0, 0, 0, 0, 0x2B],
      [0xC5, 7, 3, 19, 0, 1, 0, 1, 0, 0, 0x1C]] : List (List Byte)), writeWf bs = true) ∧
      ([0x00] : List Byte).head? ≠ some 0xC5 ∧
      (([0xC5] : List Byte).head? = some 0xC5 ∧ ([0xC5] : List Byte).length ≠ 9) ∧
      byteSum [0xC5, 0, 1, 1, 0, 1, 0, 0, 0] ≠ 0 ∧ byteSum [0xC5, 8, 1, 1, 0, 1, 0, 0, 0x30] = 0 ∧
      byteSum [0xC5, 7, 9, 1, 0, 1, 0, 0, 0x29] = 0 ∧ byteSum [0xC5, 7, 8, 1, 0, 0, 0, 0, 0x2B] = 0 ∧ 1 ∉ verbsOf 8 ∧
      byteSum [0xC5, 7, 3, 19, 0, 1, 0, 1, 0, 0, 0x1C] = 0 ∧ 19 ∈ verbsOf 3 ∧ countTakes 3 19 1 = false := by
  decide +kernel

theorem meets_ReadsAndOverruns :
    State.port { plan with port := .pending ⟨.done, 0, 0, []⟩ } = .pending ⟨.done, 0, 0, []⟩ ∧
      (∀ a, plan.port ≠ .pending a) ∧ writeWf [0xC5] = true ∧ State.port { plan with port := .processing 0 } ≠ .idle ∧
      orderIn (.park (order 1 [])) = some (order 1 []) :=
  ⟨rfl, fun _ h => (nomatch h), by decide, by decide, rfl⟩

theorem meets_DefineAndRetireWindow :
    (plan.admits (order 16 []) .plan ∧ plan.window (keyOf (order 16 [])) = none ∧ keyOf (order 16 []) = 16 ∧
      evenCount 0 16 [] = true ∧ badField (fieldIndex 19) (pairsOf []) = false ∧ windowRangeBad windowDefaults = false ∧
      labelBad windowDefaults = false ∧ edgesBad windowDefaults = false) ∧
    (State.admits { plan with carriers := ⟨[]⟩ } (order 1 []) .plan ∧ plan.window (keyOf (order 1 [])) = some win ∧
      claimFree (order 1 []) win.claim ∧ State.carriers { plan with carriers := ⟨[]⟩ } = ⟨[]⟩) ∧
    (State.windows { plan with windows := ⟨[(16, .damaged [6])]⟩ }).slot 16 = some (.damaged [6]) := by
  decide +kernel

/-- An edit that closes the window, and one of the longest grace that leaves it open. -/
theorem meets_EditWindow :
    ∀ ps ∈ ([[18, 0], [19, 600]] : List (List Word)),
      let words := applyPairs (fieldIndex 19) (windowWords win) (pairsOf ps)
      plan.admits (order 1 ps) .plan ∧ plan.window (keyOf (order 1 ps)) = some win ∧ claimFree (order 1 ps) win.claim ∧
        evenCount 2 16 ps = true ∧ badField (fieldIndex 19) (pairsOf ps) = false ∧ windowRangeBad words = false ∧
        labelBad words = false ∧ edgesBad words = false ∧ (win.withWords words).lowEdge = win.lowEdge ∧
        (win.withWords words).highEdge = win.highEdge ∧ (win.withWords words).classes = win.classes ∧
        win.state = .opened ∧ (win.withWords words).shouldBeOpen plan.clock = (ps != [18, 0]) := by
  decide +kernel

/-- A station that the Closing notice of window 1 finds eligible: its standby is in the Open window 2. -/
theorem meets_closingNoticed :
    let s : State := { plan with
      windows := ⟨[(1, .held win), (2, .held win)]⟩
      carriers := plan.carriers.put 2 { car 30000 .standby (some (1, .standby)) with window := some 2 } }
    s.vacatesTo s (fun j => j = 1) mic 2 { car 30000 .standby (some (1, .standby)) with window := some 2 } ∧
      win.vacateGrace ≠ 0 :=
  ⟨⟨⟨1, _, 1, rfl, rfl, rfl, rfl⟩, .inl rfl, rfl, rfl, rfl, ⟨2, _, rfl, rfl, rfl⟩⟩, by decide⟩

theorem meets_ShowClockAdvances :
    plan.clock.unset = true ∧ lateClock.unset = false ∧
      (Clock.second { lateClock with second := 86398 } + 1) % 60 ≠ 0 ∧
      (Clock.second { lateClock with second := 86399 } + 1) % 60 = 0 ∧ plan.service = .inService ∧ plan.load = .none ∧
      plan.badCodes = [] ∧ (∀ v ∈ [Service.starting, .inService, .faultHandling], v ≠ .halted) ∧
      ⟨.part, 0⟩ ∉ State.badCodes { plan with badCodes := [⟨.carrier, 1⟩] } := by
  decide +kernel

theorem meets_ShowClockAdvances_calendar :
    ∀ c ∈ [lateClock, ⟨false, 2000, 1, 1, 0, 0⟩, ⟨false, 2096, 2, 29, 0, 0⟩],
      2000 ≤ c.year ∧ c.year ≤ 2099 ∧ 1 ≤ c.month ∧ c.month ≤ 12 ∧ 1 ≤ c.day ∧ c.day ≤ monthLength c.year c.month := by
  decide +kernel

theorem meets_SetClockEvaluates :
    plan.takes ∧ plan.holdsRight (order 0 [2099, 12, 31, 23, 59, 59]) .plan ∧
      plan.freezeFree (order 0 [2099, 12, 31, 23, 59, 59]) ∧ plan.load = .none ∧
      clockBad [2099, 12, 31, 23, 59, 59] = false := by
  decide +kernel

theorem meets_GraceExpires :
    State.window { plan with windows := ⟨[(1, .held { win with state := .closing })]⟩ } 1 =
        some { win with state := .closing } ∧ plan.service = .inService ∧ plan.badCodes = [] ∧
      State.service { plan with service := .faultHandling, snapshot := some ⟨⟨.window, 1⟩, 3⟩ } = .faultHandling ∧
      State.snapshot { plan with service := .faultHandling, snapshot := some ⟨⟨.window, 2⟩, 3⟩ } = some ⟨⟨.window, 2⟩, 3⟩ := by
  decide +kernel

/-- A window that is none, and one that names an empty slot, both ends of the window numbers apart from the one held. -/
theorem meets_DefineCarrierWithoutWindow :
    ∀ ps ∈ ([[4, 0xFFFF], [4, 2], [4, 16]] : List (List Word)),
      let words := applyPairs (fieldIndex 6) carrierDefaults (pairsOf ps)
      plan.admits (order 128 ps) .carrier ∧ plan.carrier (keyOf (order 128 ps)) = none ∧ evenCount 0 16 ps = true ∧
        badField (fieldIndex 6) (pairsOf ps) = false ∧ carrierRangeBad words = false ∧
        ((Carrier.blank.withWords words).window = none ∨
          (∃ w ∈ [2, 16], (Carrier.blank.withWords words).window = some w ∧ plan.window w = none ∧
            plan.permitsWindow 0 w = true)) := by
  decide +kernel

theorem meets_DefineAndRetireCarrier :
    let words := applyPairs (fieldIndex 6) carrierDefaults (pairsOf [4, 1])
    let y := Carrier.blank.withWords words
    (plan.admits (order 128 [4, 1]) .carrier ∧ plan.carrier (keyOf (order 128 [4, 1])) = none ∧
      evenCount 0 16 [(4 : Word), 1] = true ∧ badField (fieldIndex 6) (pairsOf [4, 1]) = false ∧
      carrierRangeBad words = false ∧ plan.permitsWindow 0 1 = true ∧ y.window = some 1 ∧ plan.window 1 = some win ∧
      y.intent = none) ∧
    (plan.admits (order 3 []) .carrier ∧ plan.carriers.wf = true ∧
      plan.carrier (keyOf (order 3 [])) = some (car 40000 .cleared none)) ∧
    (State.carriers { plan with carriers := ⟨[(128, .damaged [15])]⟩ }).slot 128 = some (.damaged [15]) := by
  decide +kernel

/-- An edit that leaves the placement, and one that changes it. -/
theorem meets_EditCarrier :
    ∀ ps ∈ ([[2, 40000], [2, 41000]] : List (List Word)),
      let old := car 40000 .cleared none
      let words := applyPairs (fieldIndex 6) (carrierWords old) (pairsOf ps)
      let new := old.withWords words
      plan.admits (order 3 ps) .carrier ∧ plan.carrier (keyOf (order 3 ps)) = some old ∧ claimFree (order 3 ps) old.claim ∧
        evenCount 2 16 ps = true ∧ badField (fieldIndex 6) (pairsOf ps) = false ∧ carrierRangeBad words = false ∧
        new.window = some 1 ∧ plan.permitsWindow 0 1 = true ∧ plan.window 1 = some win ∧ new.intent = none ∧
        (new.frequency != old.frequency) = (ps != [2, 40000]) ∧ plan.carriers.wf = true := by
  decide +kernel

theorem meets_CheckAndCancel :
    let y := car 51300 .proposed none
    plan.admits (order 4 []) .carrier ∧ plan.carrier (keyOf (order 4 [])) = some y ∧ claimFree (order 4 []) y.claim ∧
      plan.permitsWindow 0 1 = true ∧ plan.checkQueue = [] ∧ plan.engine = none ∧ plan.load = .none ∧
      plan.windowStage y = none ∧ State.engine { plan with engine := some ⟨3, none⟩ } ≠ none ∧
      State.windowStage { plan with windows := ⟨[(1, .held { win with lowEdge := 51297 })]⟩ } y = some .edge ∧
      State.windowStage { plan with windows := ⟨[(1, .held { win with lowEdge := 51296 })]⟩ } y = none ∧
      plan.carriers.wf = true ∧ y.restorePending = false ∧
      (plan.modCarrier 4 (fun y => { y with state := .checking })).carrier 4 = some { y with state := .checking } := by
  decide +kernel

/-- The plan with carrier 4, not yet checked, at a frequency. -/
def candidateAt (frequency : Nat) : State := plan.modCarrier 4 (fun y => { y with frequency := frequency })

/-- A check of the candidate runs its later stages where its window stage passes. -/
theorem checkable_candidateAt {f : Nat} (h : (candidateAt f).windowStage (car f .proposed none) = none)
    (hw : (candidateAt f).carriers.wf = true) : (candidateAt f).checkable (order 4 []) (car f .proposed none) := by
  have right : plan.holdsRight (order 4 []) .carrier := by decide +kernel
  have mask : plan.permitsWindow (order 4 []).operator.val 1 = true := by decide +kernel
  exact ⟨⟨⟨rfl, rfl, rfl⟩, right, .inl rfl, rfl⟩, rfl, .inl rfl, fun w hw => by cases hw; exact mask, rfl, .inl rfl, rfl,
    rfl, rfl, rfl, h, hw⟩

/-- Both sides of the required separation of 12 steps from carrier 3 at 40000. -/
theorem meets_SpacingStage :
    ((candidateAt 40011).checkable (order 4 []) (car 40011 .proposed none) ∧
      (candidateAt 40012).checkable (order 4 []) (car 40012 .proposed none)) ∧
    (candidateAt 40011).carrier 3 = some (car 40000 .cleared none) ∧ (candidateAt 40012).settings.spacingGuard = 4 :=
  ⟨⟨checkable_candidateAt (by decide +kernel) (by decide +kernel),
    checkable_candidateAt (by decide +kernel) (by decide +kernel)⟩, by decide +kernel, by decide +kernel⟩

/-- The candidate of the worked sequence 2.9: carriers 1 and 2 at 24100 and 24140, the candidate 4 at a frequency. -/
def workedAt (frequency : Nat) : State :=
  { plan with
    carriers := ⟨[(1, .held (car 24100 .cleared none)), (2, .held (car 24140 .cleared none)),
      (4, .held (car frequency .proposed none))]⟩ }

/-- The candidate's state and conflict after its check. -/
def checkedState (s : State) : Option (CarrierState × Option (ConflictKind × List Nat)) :=
  match exec (.checkCarrier (order 4 [])) s with
  | .next t =>
    match exec .endOfCheck t with
    | .next u => (u.carrier 4).map (fun z => (z.state, z.conflict))
    | .fault _ | .refused _ => none
  | .fault _ | .refused _ => none

/-- The worked sequence 2.9, and the separation of 2.2's default guard (R34). -/
theorem test_stages :
    checkedState (workedAt 24180) = some (.conflict, some (.intermod, [1, 2])) ∧
      checkedState (workedAt 24200) = some (.cleared, none) ∧
      checkedState (workedAt 24151) = some (.conflict, some (.spacing, [2])) := by
  decide +kernel

theorem meets_IntermodStage :
    (∀ f ∈ [24180, 24200], (workedAt f).windowStage (car f .proposed none) = none ∧ (workedAt f).carriers.wf = true ∧
      ∀ c ∈ [1, 2], ∃ x, (workedAt f).carrier c = some x ∧ x.state.committed = true ∧
        (8 + 8) / 2 + (workedAt f).settings.spacingGuard ≤ ((f : Int) - (x.frequency : Int)).natAbs) ∧
      (workedAt 24180).checkable (order 4 []) (car 24180 .proposed none) := by
  have mask : (workedAt 24180).permitsWindow (order 4 []).operator.val 1 = true := by decide +kernel
  refine ⟨?_, ⟨⟨rfl, rfl, rfl⟩, by decide +kernel, .inl rfl, rfl⟩, rfl, .inl rfl, fun w hw => by cases hw; exact mask, rfl,
    .inl rfl, rfl, rfl, rfl, rfl, by decide +kernel, by decide +kernel⟩
  intro f hf
  fin_cases hf
  all_goals
    refine ⟨by decide +kernel, by decide +kernel, fun c hc => ?_⟩
    fin_cases hc <;> exact ⟨_, rfl, by decide, by decide⟩

theorem meets_BlockCarrier :
    plan.admits (order 1 []) .carrier ∧ plan.admits (order 2 []) .carrier ∧ plan.admits (order 3 []) .carrier ∧
      plan.permitsWindow 0 1 = true ∧ plan.carrier 3 = some (car 40000 .cleared none) ∧
      plan.carrier 2 = some (car 30000 .standby (some (1, .standby))) ∧
      plan.carrier 1 = some (car 20000 .assigned (some (1, .primary))) ∧ plan.station 1 = some mic ∧
      mic.link = .up ∧ mic.standby = some 2 ∧ mic.tally ≠ .live := by
  decide +kernel

theorem meets_UnblockCarrier :
    let s := (plan.modCarrier 2 (fun y => { y with state := .blocked })).modCarrier 3 (fun y => { y with state := .blocked })
    s.admits (order 1 []) .carrier ∧ s.admits (order 2 []) .carrier ∧ s.admits (order 3 []) .carrier ∧
      s.permitsWindow 0 1 = true ∧ s.carrier 3 = some (car 40000 .blocked none) ∧ s.carrier 2 = some (car 30000 .blocked (some (1, .standby))) ∧
      s.station 1 = some mic ∧ s.carrier 1 = some (car 20000 .assigned (some (1, .primary))) := by
  decide +kernel

/-- A candidate without an intent, one whose intent can be met, and one whose slot is taken; an open and a closed window. -/
theorem meets_EndOfCheck :
    let y := { car 51300 .checking none with intent := some (2, .standby) }
    let s := { plan.modCarrier 4 (fun _ => y) with engine := some ⟨4, none⟩ }
    s.service = .inService ∧ s.load = .none ∧ s.badCodes = [] ∧ s.carrier 4 = some y ∧ y.restorePending = false ∧
      4 ∉ s.checkQueue ∧ s.carriers.wf = true ∧ s.windowStage y = none ∧ s.canBind y 2 .standby = true ∧
      s.canBind y 1 .standby = false ∧
      State.windowStage { s with windows := ⟨[(1, .held { win with state := .closed })]⟩ } y = some .window ∧
      (car 51300 .checking none).intent = none ∧ s.checkQueue = [] ∧
      (∀ p ∈ s.carriers.records, p.2.restorePending = false) ∧ s.carrier 3 = some (car 40000 .cleared none) ∧
      s.windowStage (car 40000 .cleared none) = none ∧ 4 ∉ State.checkQueue { s with checkQueue := [3] } ∧
      (s.modCarrier 3 (fun y => { y with restorePending := true })).carrier 3 =
        some { car 40000 .cleared none with restorePending := true } := by
  decide +kernel

theorem meets_SettingsOrders :
    (bare.admits (order 0 [40, 20, 1]) .plan ∧ coordinationBad [40, 20, 1] = false ∧ bare.coordinationInUse = false) ∧
      (bare.admits (order 0 [120, 1, 2, 3, 4, 5, 6, 7, 48]) .plan ∧
        cueSettingsBad [120, 1, 2, 3, 4, 5, 6, 7, 48] = false) ∧
      (bare.admits (order 0 [5000, 100, 50, 50, 300]) .plan ∧ linkBad [5000, 100, 50, 50, 300] = false) ∧
      ∀ k, bare.station k = none :=
  ⟨by decide +kernel, by decide +kernel, by decide +kernel, fun _ => rfl⟩

theorem meets_DefineStation :
    let ps : List Word := [7, 0, 9, 3, 10, 500]
    let words := defineStationWords (pairsOf ps)
    plan.admits (order 96 ps) .station ∧ plan.station (keyOf (order 96 ps)) = none ∧ evenCount 0 16 ps = true ∧
      badField (fieldIndex 11) (pairsOf ps) = false ∧ stationRangeBad words = false ∧ labelBad words = false ∧
      plan.pairUnsuited 96 .camera (some 3) = false ∧ (Station.ofWords words).pair = some 3 := by
  decide +kernel

/-- An edit of the power of an Up station, of a Parked one, and of a Parked one's control unit. -/
theorem meets_EditStation :
    ∀ p ∈ ([(1, [10, 50]), (2, [10, 50]), (2, [8, 32])] : List (Word × List Word)), ∀ old ∈ (plan.station p.1.toNat).toList,
      let words := applyPairs editStationIndex (stationWords old) (pairsOf p.2)
      let new := Station.ofWords words
      plan.admits (order p.1 p.2) .station ∧ claimFree (order p.1 p.2) old.claim ∧ evenCount 2 16 p.2 = true ∧
        badField editStationIndex (pairsOf p.2) = false ∧ stationRangeBad words = false ∧ labelBad words = false ∧
        old.tally ≠ .live ∧ (new.controlUnit = old.controlUnit ∨ old.link = .parked) ∧ old.link ≠ .switching ∧
        plan.pairUnsuited p.1.toNat old.kind new.pair = false ∧
        (new.power != old.power) = (p.2 != [8, 32]) := by
  decide +kernel

/-- The contributing camera 4 gives up its beltpack 3. -/
theorem meets_EditStation_pair :
    (∃ old ∈ (following.station 4).toList, let new := Station.ofWords (applyPairs editStationIndex (stationWords old) (pairsOf [9, 0xFFFF]))
      new.pair = none ∧ new.power = old.power ∧ new.controlUnit = old.controlUnit ∧ old.contributing ≠ []) ∧
      following.admits (order 4 [9, 0xFFFF]) .station ∧ following.pairUnsuited 4 .camera none = false ∧
      following.paired 4 3 ∧ following.dueReasons none 3 1 = [1] :=
  ⟨by decide +kernel, by decide +kernel, by decide +kernel, ⟨_, _, rfl, rfl, rfl, rfl, rfl, rfl⟩, by decide +kernel⟩

theorem meets_RetireStation :
    plan.admits (order 2 []) .station ∧ plan.tablesInOrder ∧ plan.station 2 = some spare ∧
      claimFree (order 2 []) spare.claim ∧ spare.link = .parked ∧ spare.tally ≠ .live ∧
      (State.stations { plan with stations := ⟨[(96, .damaged [25])]⟩ }).slot 96 = some (.damaged [25]) := by
  decide +kernel

/-- Stations whose MUTE and whose cue route of none are still to be delivered, and a cue of a retired station. -/
theorem meets_RetireStation_finals :
    (∃ x ∈ ((planStation 2 (fun x => { x with tuneBase := .stale })).station 2).toList, x.controlUnit = some 2 ∧
        (planStation 2 (fun x => { x with tuneBase := .stale })).deliveryCode .tune 2 ≠ some 0 ∧
        x.delivered ≠ some { x.wanted with muted := true }) ∧
      (∃ x ∈ ((planStation 3 (fun x => { x with cueBase := .waiting })).station 3).toList, x.kind = .beltpack ∧
        (planStation 3 (fun x => { x with cueBase := .waiting })).deliveryCode .cueRoute 3 ≠ some 0 ∧
        x.deliveredRoute ≠ some none) ∧
      (∃ z ∈ ((planStation 3 (fun x => { x with stack := [⟨.station 2, .floor, true, 9⟩] })).station 3).toList,
        ∃ e ∈ z.stack, e.source = .station 2) := by
  decide +kernel

theorem meets_BindAndUnbind :
    plan.admits (order 2 [3, 1]) .station ∧ plan.station 2 = some spare ∧
      plan.carrier 3 = some (car 40000 .cleared none) ∧ spare.link = .parked ∧ spare.slotOf .standby = none ∧
      spare.kind.cls = .audio ∧ plan.carrierWindowOpen (car 40000 .cleared none) = true ∧
      spare.slotOf .primary = some 5 ∧ plan.carrier 5 = some (car 60000 .assigned (some (2, .primary))) ∧
      spare.tally ≠ .live ∧ (parkedStation .mic).slotOf .primary = none ∧ mic.slotOf .standby = some 2 := by
  decide +kernel

theorem meets_GoLive :
    plan.admits (order 2 []) .station ∧ plan.station 2 = some spare ∧ spare.link = .parked ∧ spare.primary = some 5 ∧
      plan.carrierWindowOpen (car 60000 .assigned (some (2, .primary))) = true ∧ spare.controlUnit = some 2 ∧
      spare.tuneBase = .current ∧ spare.delivered = none ∧ plan.unitAt 2 = some ⟨some .txc, .present, 0, []⟩ ∧
      plan.queue = [] := by
  decide +kernel

theorem meets_SwapAndPark :
    plan.admits (order 1 []) .station ∧ plan.station 1 = some mic ∧ claimFree (order 1 []) mic.claim ∧
      mic.tally ≠ .live ∧ mic.link = .up ∧ mic.standby = some 2 ∧
      (plan.carrier 2).map Carrier.state = some .standby ∧ mic.stack = [] ∧ mic.link.deliverable = true := by
  decide +kernel

/-- A station in Tuning and one in Switching, after two and after three attempts. -/
theorem meets_TuneTimeouts :
    plan.service = .inService ∧ plan.badCodes = [] ∧ mic.tuneTimer = none ∧ mic.primary = some 1 ∧ mic.standby = some 2 ∧
      (∀ l ∈ [Link.tuning, .switching], ∀ n ∈ [2, 3],
        (planStation 1 (fun x => { x with link := l, attempts := n, tuneTimer := some 3000 })).station 1 =
          some { mic with link := l, attempts := n, tuneTimer := some 3000 }) ∧
      (plan.carrier 1).isSome = true ∧ (plan.carrier 2).isSome = true := by
  decide +kernel

theorem meets_WatchRunsOut :
    plan.service = .inService ∧ plan.station 1 = some mic ∧ mic.watch = .running 100 ∧ mic.link = .up ∧
      (planStation 1 (fun x => { x with link := .switching })).station 1 = some { mic with link := .switching } := by
  decide +kernel

theorem meets_RecoveryRuns :
    (planStation 1 (fun x => { x with recoveryRun := some 0 })).station 1 = some { mic with recoveryRun := some 0 } ∧
      mic.standby = some 2 ∧ plan.carrier 2 = some (car 30000 .standby (some (1, .standby))) ∧
      (plan.modCarrier 2 (fun y => { y with state := .blocked, cleanAge := some 60000 })).carrier 2 =
        some { car 30000 .blocked (some (1, .standby)) with cleanAge := some 60000 } ∧
      (plan.modCarrier 3 (fun y => { y with cleanAge := some 0 })).carrier 3 =
        some { car 40000 .cleared none with cleanAge := some 0 } := by
  decide +kernel

theorem meets_Calls :
    plan.takes ∧ plan.holdsRight (order 3 []) .gallery ∧ plan.station 3 = some pack ∧ pack.kind.hasLamp = true ∧
      (planStation 3 (fun x => { x with call := some .single, callRemaining := some 0 })).station 3 =
        some { pack with call := some .single, callRemaining := some 0 } := by
  decide +kernel

/-- A press on a Parked station; on an empty stack; on one Floor entry; on two entries. -/
theorem meets_CuePress :
    plan.takes ∧ plan.holdsRight (order 3 [1, 1]) .talkback ∧ plan.station 3 = some pack ∧ pack.kind.hasCue = true ∧
      CueLevel.director.code = 1 ∧ CueLevel.floor.code = 0 ∧ pack.link ≠ .parked ∧ pack.link ≠ .lost ∧ pack.stack = [] ∧
      pack.accept = true ∧
      (planStation 3 (fun x => { x with link := .parked })).station 3 = some { pack with link := .parked } ∧
      (planStation 3 (fun x => { x with accept := false })).station 3 = some { pack with accept := false } ∧
      (planStation 3 (fun x => { x with stack := [⟨.port 48, .floor, true, 1⟩], accept := false })).station 3 =
        some { pack with stack := [⟨.port 48, .floor, true, 1⟩], accept := false } ∧
      (planStation 3 (fun x => { x with stack := [⟨.port 1, .floor, true, 1⟩, ⟨.port 2, .director, false, 1⟩] })).station 3 =
        some { pack with stack := [⟨.port 1, .floor, true, 1⟩, ⟨.port 2, .director, false, 1⟩] } := by
  decide +kernel

/-- The only entry, the upper and the buried entry of two, and no entry of the source. -/
theorem meets_CueReleasesAndAccept :
    plan.takes ∧ plan.holdsRight (order 3 [0, 0]) .talkback ∧ plan.station 3 = some pack ∧ pack.kind.hasCue = true ∧
      (∀ e ∈ pack.stack, e.source ≠ Source.operator 0) ∧ sourceOf 519 = some (.operator 7) ∧
      ∀ st ∈ [[⟨Source.operator 0, CueLevel.floor, true, 1⟩],
          [⟨Source.port 1, CueLevel.floor, true, 1⟩, ⟨Source.operator 0, .director, false, 1⟩],
          [⟨Source.operator 0, CueLevel.floor, true, 1⟩, ⟨Source.port 1, .director, false, 1⟩]],
        (planStation 3 (fun x => { x with stack := st })).station 3 = some { pack with stack := st } ∧ st.length ≤ 2 ∧
          ∃ e ∈ st, CueEntry.source e = Source.operator 0 := by
  decide +kernel

theorem meets_GalleryOrders :
    (plan.admits (order 8 []) .gallery ∧ plan.gallery (keyOf (order 8 [])) = none ∧
      badField galleryIndex (pairsOf []) = false ∧ galleryRangeBad galleryDefaults = false ∧
      labelBad galleryDefaults = false ∧ (∀ e ∈ (Gallery.blank.withWords galleryDefaults).sources, e = none) ∧
      (Gallery.blank.withWords galleryDefaults).follow = none) ∧
    (∀ ps ∈ ([[7, 3], [7, 4]] : List (List Word)),
      let words := applyPairs galleryIndex (galleryWords gal) (pairsOf ps)
      plan.admits (order 1 ps) .gallery ∧ plan.gallery (keyOf (order 1 ps)) = some gal ∧ claimFree (order 1 ps) gal.claim ∧
        evenCount 2 16 ps = true ∧ badField galleryIndex (pairsOf ps) = false ∧ galleryRangeBad words = false ∧
        labelBad words = false ∧ (∀ e ∈ (gal.withWords words).sources, e = none ∨ e = some 3) ∧
        (plan.station 3).isSome = true ∧ (gal.withWords words).follow = none ∧
        (galleryWords (gal.withWords words) = galleryWords gal ↔ ps = [7, 3])) ∧
    (State.galleries { plan with galleries := ⟨[(8, .damaged [6])]⟩ }).slot 8 = some (.damaged [6]) := by
  decide +kernel

/-- Gallery 1, to which camera 4 alone contributes, follows no conference any longer. -/
theorem meets_GalleryOrders_follow :
    (let old := { gal with follow := some 1 }
      let new := old.withWords (applyPairs galleryIndex (galleryWords old) (pairsOf [8, 0xFFFF]))
      following.gallery 1 = some old ∧ new.sources = old.sources ∧ new.tallyUnit = old.tallyUnit ∧ new.follow = none) ∧
      following.admits (order 1 [8, 0xFFFF]) .gallery ∧ following.paired 4 3 ∧
      (∀ p ∈ following.stations.records, 1 ∈ p.2.contributing ↔ p.1 = 4 ∧ 1 ≤ p.1 ∧ p.1 ≤ 96) :=
  ⟨by decide +kernel, by decide +kernel, ⟨_, _, rfl, rfl, rfl, rfl, rfl, rfl⟩, by decide +kernel⟩

theorem meets_ConferenceOrders :
    (plan.admits (order 24 []) .talkback ∧ plan.conference (keyOf (order 24 [])) = none ∧ labelBad emptyLabel = false) ∧
      (∀ ps ∈ ([[6, 0], [6, 0x4100]] : List (List Word)),
        plan.admits (order 1 ps) .talkback ∧ plan.conference (keyOf (order 1 ps)) = some conf ∧
          evenCount 2 12 ps = true ∧ badField (fieldIndex 6) (pairsOf ps) = false ∧
          labelBad (applyPairs (fieldIndex 6) conf.label (pairsOf ps)) = false) ∧
      plan.galleries.wf = true ∧ claimFree (order 1 []) conf.claim ∧ plan.conference 1 = some conf ∧
      conf.deliveredRouting ≠ some ⟨[], []⟩ ∧ conf.routing ≠ ⟨[], []⟩ ∧
      (State.conferences { plan with conferences := ⟨[(24, .damaged [9])]⟩ }).slot 24 = some (.damaged [9]) := by
  decide +kernel

/-- A new panel port, a member already, and a Mic, which cannot be one. -/
theorem meets_AddMember :
    plan.admits (order 1 [304, 3, 3]) .talkback ∧ plan.conference (keyOf (order 1 [304, 3, 3])) = some conf ∧
      claimFree (order 1 [304, 3, 3]) conf.claim ∧ identityOf 304 = some (.port 48) ∧ conf.members.length < 16 ∧
      (∀ m ∈ conf.members, m.id ≠ .port 48) ∧ identityOf 3 = some (.station 3) ∧
      (∃ m ∈ conf.members, m.id = .station 3) ∧ plan.station 3 = some pack ∧ pack.kind ≠ .camera ∧ pack.kind ≠ .mic := by
  decide +kernel

/-- A held beltpack, and a port in front of a waiting one. -/
theorem meets_RemoveMember :
    following.admits (order 1 [3]) .talkback ∧ following.conference 1 = some conf ∧ identityOf 3 = some (.station 3) ∧
      (∀ m ∈ conf.members, m.join = .fixed) ∧ following.dueReasons none 3 1 = [1] ∧ identityOf 257 = some (.port 1) ∧
      (following.modConference 1 (fun x => { x with members := [memberOf (.port 1) 0], waiting := [3] })).conference 1 =
        some { conf with members := [memberOf (.port 1) 0], waiting := [3] } ∧ conf.waiting = [] := by
  decide +kernel

/-- Operator 0 with Steal and with Force. -/
theorem meets_ClaimOrder :
    plan.takes ∧ (∀ t ∈ [TableId.window, .carrier, .station, .gallery, .conference],
      t.claimable = true ∧ plan.holdsRight (order 1 []) (changeRight t).1 ∧ plan.claimAt t 1 = some none ∧
        plan.claimAt t 200 = none) ∧
      plan.permitsWindow 0 1 = true ∧
      (plan.modCarrier 1 (fun y => { y with claim := some 7 })).claimAt .carrier 1 = some (some 7) ∧
      plan.steals ⟨0, 1, false, true, false, []⟩ = true ∧ plan.steals (order 1 []) = false := by
  decide +kernel

theorem meets_ReleaseOrder :
    plan.takes ∧ TableId.carrier.claimable = true ∧ plan.claimAt .carrier 128 = none ∧
      plan.claimAt .carrier 1 = some none ∧
      (plan.modCarrier 1 (fun y => { y with claim := some 0 })).claimAt .carrier 1 = some (some 0) ∧
      (plan.modCarrier 1 (fun y => { y with claim := some 7 })).claimAt .carrier 1 = some (some 7) ∧
      plan.forced (forced 1 []) = true ∧ plan.forced (order 1 []) = false := by
  decide +kernel

theorem meets_ThawPlan :
    plan.takes ∧ (order 0 [1]).params ≠ [] ∧ ¬ plan.holdsRight ⟨1, 0, false, false, false, []⟩ .plan ∧
      plan.holdsRight (order 0 []) .plan ∧ plan.freezeHolder = none ∧
      State.freezeHolder { plan with freezeHolder := some 0 } = some 0 ∧
      State.freezeHolder { plan with freezeHolder := some 7 } = some 7 ∧ plan.forced (forced 0 []) = true ∧
      plan.forced (order 0 []) = false := by
  decide +kernel

theorem meets_OperatorOrders :
    plan.takes ∧ plan.tablesInOrder ∧ keyOf (order 7 []) ≤ 7 ∧ keyOf (order 0 []) = (order 0 []).operator.val ∧
      plan.forced (forced 7 []) = true ∧ plan.forced (order 7 []) = false ∧ plan.holdsRight (order 0 []) .plan ∧
      claimFree (order 0 []) plan.freezeHolder ∧ plan.admits (order 7 [1, 255]) .rights ∧
      badField (fieldIndex 2) (pairsOf [1, 255]) = false ∧
      fieldNat (applyPairs (fieldIndex 2) (plan.operatorAt 7).words (pairsOf [1, 255])) 0 = 255 ∧
      plan.operatorAt 7 = ⟨0, 0⟩ := by
  decide +kernel

theorem meets_TransactionsBegin :
    (∀ n ∈ [0, 2, 3], readyIn [{ lampEntry with attempts := n }] { lampEntry with attempts := n } = true) ∧
    plan.badCodes = [] ∧ plan.service = .inService ∧ plan.load = .none ∧ plan.line = none ∧ plan.turn = .poll ∧
      plan.round = [] ∧ plan.newRound = [.poll 1, .poll 2, .poll 3, .poll 4, .discover 5] ∧
      State.round { plan with round := [.discover 32] } = [.discover 32] ∧ readyIn [lampEntry] lampEntry = true ∧
      (asking (.poll 1)).line ≠ none ∧ (quarantining ⟨.station, 1⟩).soundBeside ∧
      (quarantining ⟨.station, 1⟩).service = .faultHandling := by
  unfold State.soundBeside
  decide +kernel

theorem meets_PollOutcomes :
    (asking (.poll 1)).onLine (.poll 1) 7 ⟨some .rx, .present, 0, []⟩ ∧ plan.galleries.wf = true ∧
      (asking (.discover 32)).onLine (.discover 32) 7 LineUnit.reset ∧ 3 < (4#8).toNat ∧
      ((plan.modUnit 1 (fun u => { u with missed := 2 })).unitAt 1 = some ⟨some .rx, .present, 2, []⟩) ∧
      ((plan.modUnit 1 (fun u => { u with state := .lost })).unitAt 1 = some ⟨some .rx, .lost, 0, []⟩) ∧
      (∀ n ∈ [2, 3], (lampSent n).onLine (.directive 2 .lamp 3 (.lamp ⟨.live, false, false⟩)) 7
          ⟨some .txc, .present, 0, []⟩ ∧
        ∀ e ∈ (lampSent n).queue, e.has 2 .lamp 3 = true ∧ e.sent = true ∧ e.attempts = n) := by
  decide +kernel

theorem meets_CleanItem :
    (asking (.poll 1)).onLine (.poll 1) 7 ⟨some .rx, .present, 0, []⟩ ∧
      plan.carrier 2 = some (car 30000 .standby (some (1, .standby))) ∧
      (plan.modCarrier 2 (fun y => { y with state := .blocked })).carrier 2 =
        some (car 30000 .blocked (some (1, .standby))) ∧ plan.station 1 = some mic := by
  decide +kernel

/-- The links of the statement, a quality on either side of the Fallback Floor, and a standby worth a switch. -/
theorem meets_QualityItem :
    (asking (.poll 1)).onLine (.poll 1) 7 ⟨some .rx, .present, 0, []⟩ ∧ plan.station 1 = some mic ∧ mic.primary = some 1 ∧
      (plan.carrier 1).isSome = true ∧ mic.inhibit = false ∧ plan.settings.fallbackFloor = 40 ∧
      (∀ l ∈ [Link.parked, .tuning, .up, .weak, .switching, .lost],
        (planStation 1 (fun x => { x with link := l })).station 1 = some { mic with link := l }) ∧
      (plan.modCarrier 2 (fun y => { y with cleanScore := some 55, cleanAge := some 500 })).carrier 2 =
        some { car 30000 .standby (some (1, .standby)) with cleanScore := some 55, cleanAge := some 500 } ∧
      39 + plan.settings.fallbackMargin < 55 ∧ plan.settings.linkWatch = 500 ∧ ¬ 40 + plan.settings.fallbackMargin < 55 ∧
      (car 30000 .standby (some (1, .standby))).cleanScore = none ∧
      (planStation 1 (fun x => { x with standby := none })).station 1 = some { mic with standby := none } := by
  decide +kernel

theorem meets_TunedItem :
    (asking (.poll 2)).onLine (.poll 2) 7 ⟨some .txc, .present, 0, []⟩ ∧ mic.controlUnit = some 2 ∧ mic.token = 5 ∧
      (∀ l ∈ [Link.up, .tuning, .switching],
        (planStation 1 (fun x => { x with link := l })).station 1 = some { mic with link := l }) ∧
      mic.primary = some 1 ∧ mic.standby = some 2 ∧ (plan.carrier 1).isSome = true ∧ (plan.carrier 2).isSome = true := by
  decide +kernel

theorem meets_TallyItem :
    (asking (.poll 3)).onLine (.poll 3) 7 ⟨some .tgi, .present, 0, []⟩ ∧ plan.gallery 1 = some gal ∧
      gal.tallyUnit = some 3 ∧ (∀ p ∈ plan.galleries.records, 1 ≤ p.1 ∧ p.1 ≤ 8) ∧
      State.gallery { plan with galleries := ⟨[(8, .held gal)]⟩ } 8 = some gal ∧ (1 ≤ (1#16).toNat ∧ (32#16).toNat ≤ 32) ∧
      { gal with live := false, program := [], preview := [] } = gal ∧ { gal with live := true } ≠ gal ∧
      (∀ p ∈ plan.stations.records, p.2.pair = none ∧ p.2.lamp = plan.lampWanted p.2) := by
  decide +kernel

/-- The source 1 of gallery 1 is the camera 4, whose beltpack is station 3: on Live with it in Program, it is reached. -/
theorem meets_TallyItem_follow :
    let x : Gallery := { gal with sources := [some 4] ++ List.replicate 31 none, follow := some 1 }
    let s : State := { following.modStation 4 (fun y => { y with tally := .off, contributing := [] }) with
      galleries := ⟨[(1, .held x)]⟩ }
    x.reached = [] ∧ { x with live := true, program := [1] }.reached = [4] ∧ s.gallery 1 = some x ∧ s.paired 4 3 ∧
      s.tallyDerived 4 ∧ s.dueReasons none 3 1 = [] :=
  ⟨by decide +kernel, by decide +kernel, by decide +kernel, ⟨_, _, rfl, rfl, rfl, rfl, rfl, rfl⟩,
    fun _ h => by cases h; exact ⟨by decide +kernel, by decide +kernel⟩, by decide +kernel⟩

/-- Four talkers, of priorities 1, 0, 0 and 1, and port 1 of priority 1. -/
def fullTalk : Conference :=
  { conf with
    members := memberOf (.port 1) 1 :: [2, 3, 4, 5].map (fun n => memberOf (.port n) (n % 2))
    talkers := [.port 3, .port 2, .port 4, .port 5] }

/-- Talk keys of a talker, a free slot, and four talkers below and at the source's priority; cue, call and answer keys. -/
theorem meets_KeyItems :
    (asking (.poll 4)).onLine (.poll 4) 7 ⟨some .tkm, .present, 0, []⟩ ∧ plan.settings.matrixUnit = some 4 ∧
      plan.keySource 257 = some (.port 1) ∧ plan.conference 1 = some conf ∧
      conf.members.find? (fun m => m.id = .port 1) = some (memberOf (.port 1) 1) ∧ conf.talkers = [] ∧
      fullTalk.lowestTalker = 0 ∧ fullTalk.priorityOf (.port 3) = 1 ∧ fullTalk.priorityOf (.port 2) = 0 ∧
      4 ≤ fullTalk.talkers.length ∧
      fullTalk.members.find? (fun m => m.id = .port 1) = some (memberOf (.port 1) 1) ∧
      plan.station 3 = some pack ∧ pack.kind = .beltpack ∧ pack.link = .up ∧ pack.stack = [] ∧ pack.accept = true ∧
      (planStation 3 (fun x => { x with stack := [⟨.port 1, .floor, true, 9⟩], call := some .single })).station 3 =
        some { pack with stack := [⟨.port 1, .floor, true, 9⟩], call := some .single } ∧ pack.pair = none ∧
      (planStation 3 (fun x => { x with link := .parked })).station 3 = some { pack with link := .parked } := by
  decide +kernel

theorem meets_UnitsFoundAndReturned :
    (asking (.discover 32)).onLine (.discover 32) 7 LineUnit.reset ∧ LineUnit.reset.state = .absent ∧
      State.onLine { (plan.modUnit 1 (fun u => { u with state := .lost })) with line := some ⟨.poll 1, 7⟩ } (.poll 1) 7
        ⟨some .rx, .lost, 0, []⟩ := by
  decide +kernel

/-- A Sent, a Queued and a detached entry; the body of 8.1, and no body. -/
theorem meets_DirectiveAcknowledged :
    let c : Content := .lamp ⟨.live, false, false⟩
    let e : Entry := { lampEntry with sent := true, attempts := 1 }
    (lampSent 1).onLine (.directive 2 .lamp 3 c) 7 ⟨some .txc, .present, 0, []⟩ ∧ c.ofKind .lamp = true ∧
      (lampSent 1).queue = [] ++ e :: [] ∧ e.has 2 .lamp 3 = true ∧ (lampSent 1).owned .lamp 3 = true ∧
      (lampSent 1).delivery .lamp 3 = some ⟨some 2, c, none, .current⟩ ∧ e.detached = false ∧
      State.queue { lampSent 1 with queue := [lampEntry] } = [] ++ lampEntry :: [] ∧ lampEntry.sent = false ∧
      State.queue { lampSent 1 with queue := [{ e with detached := true }] } = [] ++ { e with detached := true } :: [] := by
  decide +kernel

theorem meets_UnitOrders :
    plan.takes ∧ plan.holdsRight (order 0 [32]) .plan ∧ plan.saving = false ∧
      optionIn 1 32 4#16 = true ∧ optionIn 1 32 32#16 = true ∧ optionIn 1 32 0xFFFF#16 = true ∧ fieldOption [4] 0 = plan.settings.matrixUnit ∧
      fieldOption [0xFFFF] 0 ≠ plan.settings.matrixUnit ∧ plan.unitAt 32 = some LineUnit.reset ∧
      (plan.modUnit 1 (fun u => { u with state := .lost })).unitAt 1 = some ⟨some .rx, .lost, 0, []⟩ ∧
      plan.galleries.wf = true := by
  decide +kernel

/-- The image of a window of defaults at the last key, by hand: its checksum, and that it passes the tests of R171. -/
def sampleImage : List (Nat × Nat × List Word) := [(1, 16, windowDefaults)]

theorem meets_LoadsAndReloads_image :
    (∀ r ∈ sampleImage, recordFits r = true) ∧ (imageOf sampleImage).length ≤ 4095 ∧
      wordSum (imageOf sampleImage ++ [0#16 - wordSum (imageOf sampleImage)]) = 0 ∧
      (∀ p ∈ (imageOf sampleImage ++ [0#16 - wordSum (imageOf sampleImage)]).zipIdx,
        (Memory.writeAll ⟨[]⟩ ((imageOf sampleImage ++ [0#16 - wordSum (imageOf sampleImage)]).zipIdx.map
          (fun q => (q.2, q.1)))).read p.2 = p.1) := by
  decide +kernel

/-- A load that reads it opens the window when it should be open, and not otherwise: here it is not enabled. -/
theorem test_loadImage :
    leaves (.load none) { State.reset with
        load := .loading
        store := Memory.writeAll ⟨[]⟩ ((imageOf sampleImage ++ [0#16 - wordSum (imageOf sampleImage)]).zipIdx.map
          (fun q => (q.2, q.1))) }
      (fun t => t.startCode = 0 ∧ t.window 16 = some (Window.blank.withWords windowDefaults)) = true := by
  decide +kernel

theorem meets_StartUps :
    State.reset.load = .memoryTest ∧ plan.port = .idle ∧ plan.badCodes = [] ∧ plan.service = .inService ∧
      plan.forced (forced 0 [1]) = true ∧ bare.forced (forced 0 [0]) = true ∧
      (∀ p ∈ bare.stations.records, p.2.link = .parked) ∧ State.saving { plan with saving := true } = true ∧
      plan.store.wf = true ∧
      State.forced { plan with service := .halted, badCodes := [⟨.carrier, 1⟩, ⟨.part, 0⟩] } (forced 0 [1]) = true := by
  decide +kernel

theorem meets_LoadsAndReloads :
    (State.load { State.reset with load := .loading } = .loading ∧ State.reset.service = .starting ∧
      State.reset.badCodes = [] ∧ State.reset.store.read 0 ≠ 0x7A31) ∧
      (plan.admits (forced 0 []) .store ∧ plan.forced (forced 0 []) = true ∧ plan.line = none ∧
        (asking (.poll 1)).line ≠ none ∧ (asking (.poll 1)).admits (forced 0 []) .store) ∧
      State.load { plan with load := .reloading 0 [] } = .reloading 0 [] ∧
      (∀ ask ∈ [Ask.discover 5, .poll 1], State.line { asking ask with load := .reloadWaiting 0 } = some ⟨ask, 7⟩) ∧
      (plan.badCodes = [] ∧ ∀ r ∈ State.badCodes { plan with badCodes := [⟨.carrier, 1⟩] }, r ≠ ⟨.part, 0⟩ ∧ r.table ≠ .station) ∧
      plan.unitAt 1 = some ⟨some .rx, .present, 0, []⟩ ∧
      (∀ f ∈ plan.keptTunes, f.kind = .tune ∧ f.delivered ≠ some f.wanted ∧
        ∀ h ∈ plan.keptTunes, h.target = f.target → h = f) := by
  decide +kernel

theorem meets_SavesAndStoreWords :
    plan.takes ∧ plan.holdsRight (order 0 []) .store ∧ plan.freezeFree (order 0 []) ∧ plan.saving = false ∧
      State.saving { plan with saving := true } = true ∧ plan.badCodes = [] ∧ plan.store.wf = true ∧
      ⟨.part, 0⟩ ∉ State.badCodes { plan with saving := true, badCodes := [⟨.carrier, 1⟩] } ∧
      4095 < fieldNat [4096] 0 ∧ fieldNat [4095] 0 ≤ 4095 := by
  decide +kernel

/-- An order aimed at each table but the Part; a damaged Part record; a second damaged record, in a table that the
quarantine searches; an item for the station under quarantine; and a READ PART of a damaged record in each service state. -/
theorem meets_FaultsAndQuarantine :
    (∀ c ∈ [Instr.editWindow (order 1 [18, 0]), .goLive (order 1 []), .defineCarrier (order 1 []), .claim .gallery (order 1 []),
        .readConference (order 1 [0]), .releaseAll (order 1 []), .lineReset (order 1 [])],
      ∃ o ∈ (orderIn c).toList, (orderVerb c).1 ≠ .part ∧
        countTakes (orderVerb c).1.selector (orderVerb c).2 o.params.length = true ∧
        plan.holdsRecord ⟨(orderVerb c).1, keyOf o⟩ = true) ∧
    (plan.holdsRecord ⟨.carrier, 1⟩ = true ∧ (∀ t ∈ [TableId.window, .carrier, .station, .gallery, .conference, .unit],
      (searchedFor t).all (fun q => plan.holdsRecord ⟨q, 1⟩) = true ∧ searchedFor t ≠ [])) ∧
    (∃ s ∈ [{ quarantining ⟨.station, 1⟩ with line := some ⟨.poll 1, 7⟩ }], s.quarantined = some ⟨.station, 1⟩ ∧
      s.stations.wf = true ∧ s.line = some ⟨.poll 1, 7⟩ ∧ s.unitAt 1 = some ⟨some .rx, .present, 0, []⟩) ∧
    (∀ v ∈ [Service.starting, .inService, .faultHandling, .halted],
      ⟨.part, 0⟩ ∈ State.badCodes { plan with service := v, badCodes := [⟨.part, 0⟩] }) ∧
    (∀ t ∈ [TableId.window, .carrier, .station, .gallery, .operator, .unit],
      t.plainRead = true ∧ plan.holdsRecord ⟨t, 1⟩ = true) ∧
      (State.badCodes { plan with badCodes := [⟨.part, 0⟩] } = [⟨.part, 0⟩] ∧ plan.saving = false ∧ plan.load = .none) ∧
      (∀ t ∈ [TableId.window, .carrier, .station, .gallery, .conference, .unit, .operator],
        State.snapshot { plan with snapshot := some ⟨⟨t, 1⟩, 5⟩ } = some ⟨⟨t, 1⟩, 5⟩ ∧
          (⟨t, 1⟩ : RecordId) ≠ ⟨.part, 0⟩) := by
  decide +kernel

theorem meets_Reads :
    plan.takes ∧ (∀ t ∈ [TableId.window, .carrier, .station, .gallery, .operator, .unit],
      t.plainRead = true ∧ (plan.recordFields t 1).isSome = true ∧ plan.recordFields t 200 = none ∧
        (∀ fields ∈ (plan.recordFields t 1).toList, (∃ f ∈ fields, f.1 = 1) ∧ ∀ f ∈ fields, f.1 ≠ 0)) ∧
      plan.conference 1 = some conf ∧ (∃ f ∈ plan.partFields, f.1 = 38) ∧ ((0x0F3F : Word) ||| 0x0F3F) = 0x0F3F ∧
      (∀ t ∈ [TableId.window, .carrier, .station, .gallery, .conference, .unit],
        t.marked = true ∧ plan.firstMarked t = none) ∧
      (plan.markStation 2 4).firstMarked .station = some (2, [4]) := by
  decide +kernel

end Sys2Proof.Tests
end

section
/-! The run of a check that CHECK CARRIER begins on an idle engine, and what its spacing and intermodulation stages find
(R24, R32 to R37). -/

namespace Sys2Proof.Machine

/-! ## CHECK CARRIER is taken, and an idle engine begins the check -/

/-- The tests that CHECK, CANCEL CHECK, BLOCK and UNBLOCK share pass where the order is admitted (R20). -/
theorem State.passes_carrierActionTests {s : State} {o : Order} {y : Carrier} (ha : s.admits o .carrier)
    (hy : s.carrier (keyOf o) = some y) (hc : claimFree o y.claim) (hm : s.maskPermits o y.window) {own : List Check1}
    (ht : firstFailing own = none) : firstFailing (s.carrierActionTests o own) = none := by
  obtain ⟨_, hright, hfree⟩ := ha
  have mask : s.maskRefuses o y.window = false := by
    cases hw : y.window with
    | none => rfl
    | some w => simp [State.maskRefuses, hm w hw]
  have rights : firstFailing (s.carrierRights o (keyOf o) none) = none :=
    passes_cons (State.lacks_fst hright 2)
      (passes_cons (by simp only [State.carrierMask, hy, mask]; rfl) firstFailing_nil)
  have record : firstFailing [failIf (s.carrier (keyOf o)).isNone .key 1,
      claimHold o ((s.carrier (keyOf o)).bind Carrier.claim)] = none :=
    passes_cons (by simp [hy]) (passes_cons (by rw [hy]; exact claimHold_fst hc) firstFailing_nil)
  exact passes_append (passes_append (passes_append rights record) (State.passes_holds hfree)) ht

/-- A busy engine takes no candidate. -/
theorem engineTakes_busy {s : State} (h : s.engine.isSome = true) (n : Nat) : engineTakes n s = s := by
  cases n with
  | zero => rfl
  | succ n => simp [engineTakes, h]

/-- An idle engine takes the one carrier that waits and, when its window stage passes, checks it (R32, R33). -/
theorem State.engineLooks_takes {s : State} {c : Nat} {y : Carrier} (hs : s.service = .inService) (hl : s.load = .none)
    (hb : s.badCodes = []) (he : s.engine = none) (hq : s.checkQueue = [c]) (hy : s.carrier c = some y)
    (hw : s.windowStage y = none) :
    s.engineLooks = { s with checkQueue := [], engine := some ⟨c, s.laterStages c y⟩ } := by
  have next : s.nextCandidate = some (c, { s with checkQueue := [] }) := by
    rw [State.nextCandidate_sound hb, hq]
  have begun : State.beginCheck { s with checkQueue := [] } c =
      { s with checkQueue := [], engine := some ⟨c, s.laterStages c y⟩ } := by
    rw [State.beginCheck_sound (s := { s with checkQueue := [] }) hb hy]
    have hw' : State.windowStage { s with checkQueue := [] } y = none := hw
    rw [hw']
    rfl
  have looks : s.engineLooks = engineTakes 145 s := by simp [State.engineLooks, State.tablesDown, hs, hl]
  have idle : ¬ s.engine.isSome = true := by simp [he]
  rw [looks, engineTakes, if_neg idle, next]
  show engineTakes 144 (State.beginCheck { s with checkQueue := [] } c) = _
  rw [begun]
  exact engineTakes_busy rfl 144

/-- The other records of a table do not see a put. -/
theorem Table.records_put_ne {α : Type} (t : Table α) (j : Nat) (r : α) (p : Nat × α → Bool) :
    (t.put j r).records.filter (fun q => p q && q.1 != j) = t.records.filter (fun q => p q && q.1 != j) := by
  obtain ⟨l⟩ := t
  simp only [Table.records, Table.put]
  induction l with
  | nil => simp [slotPut]
  | cons q rest ih =>
    obtain ⟨k, x⟩ := q
    simp only [slotPut]
    split
    · simp
    · split
      · next h =>
        subst h
        cases x <;> simp
      · cases x <;> simp [List.filter_cons, ih]

/-- What a check finds beside its candidate does not depend on the candidate's own record in the table. -/
theorem State.committedSet_modCarrier (s : State) (c : Nat) (f : Carrier → Carrier) :
    (s.modCarrier c f).committedSet c = s.committedSet c := by
  cases h : s.carriers.get c with
  | none => simp only [State.committedSet, State.modCarrier_carriers, Table.modify_of_none h]
  | some y =>
    simp only [State.committedSet, State.modCarrier_carriers, Table.modify_of_get h]
    exact Table.records_put_ne _ _ _ _

/-- A carrier whose check has been ordered: Checking, with no conflict (R24). -/
@[reducible] def Carrier.checking (y : Carrier) : Carrier := { y with state := .checking, conflict := none }

/-- The engine has begun the check of a carrier and holds what the later stages find (R32). -/
@[reducible] def State.checks (s : State) (c : Nat) (y : Carrier) : State :=
  { s with
    carriers := s.carriers.put c y.checking
    engine := some ⟨c, s.laterStages c y⟩ }


theorem State.joinQueue_carrier {s : State} {c : Nat} {y : Carrier} (hy : s.carrier c = some y) :
    (s.joinQueue c).carrier c = some y.checking := by
  show (s.modCarrier c _).carrier c = _
  rw [State.carrier_modCarrier, if_pos rfl, hy]
  rfl

/-- Joining the Check Queue does not change what the later stages find: they read the candidate's frequency and class, and
the other carriers. -/
theorem State.laterStages_joinQueue (s : State) (c : Nat) (y : Carrier) :
    (s.joinQueue c).laterStages c y.checking = s.laterStages c y := by
  have h : (s.joinQueue c).committedSet c = s.committedSet c := s.committedSet_modCarrier c _
  simp only [State.laterStages, h]
  rfl

/-- A carrier that joins the empty Check Queue of an idle engine is taken at once, when its window stage passes (R24, R32). -/
theorem State.joinQueue_engineLooks {s : State} {c : Nat} {y : Carrier} (hs : s.service = .inService)
    (hl : s.load = .none) (hb : s.badCodes = []) (he : s.engine = none) (hq : s.checkQueue = [])
    (hy : s.carrier c = some y) (hw : s.windowStage y = none) :
    (s.joinQueue c).engineLooks = s.checks c y := by
  have queue : (s.joinQueue c).checkQueue = [c] := congrArg (· ++ [c]) hq
  have put : s.carriers.modify c Carrier.checking = s.carriers.put c y.checking := Table.modify_of_get hy _
  rw [State.engineLooks_takes (s := s.joinQueue c) hs hl hb he queue (State.joinQueue_carrier hy) hw, State.laterStages_joinQueue,
    State.checks, ← put, ← hq]
  rfl

/-- CHECK CARRIER of a carrier that an idle engine takes at once: it is Checking, and the engine holds what the later
stages find (R24, R32). -/
theorem State.checkCarrier_taken {s : State} {o : Order} {y : Carrier} (h : s.checkable o y) :
    exec (.checkCarrier o) s = .next ((s.checks (keyOf o) y).done o) := by
  obtain ⟨ha, hy, hc, hm, hp, hst, _, he, hq, hl, hw, _⟩ := h
  obtain ⟨hs, _, hb⟩ := ha.1
  have own : firstFailing [failIf (s.carrierState (keyOf o) = .checking) .state 5,
      failIf (s.carrierState (keyOf o)).committed .state 6,
      failIf (Config.checkQueueSize ≤ s.checkQueue.length) .full 1] = none := by
    rcases hst with hst | hst <;>
      simp [State.carrierState, hy, hst, hq, CarrierState.committed, Config.checkQueueSize]
  have run : exec (.checkCarrier o) s = .next (s.checkCarrier o) := rfl
  rw [run, State.checkCarrier, State.checkAction,
    State.takeOrderWith_accept ha.1 (by simp [hp]) (by simp [hp]) (State.passes_carrierActionTests ha hy hc hm own),
    State.joinQueue_engineLooks (s := (s.clockZeros _).process o) hs hl hb he hq hy hw]
  rfl

/-! ## The end of the check -/

/-- An engine that may look for candidates: no record is damaged, the Check Queue is empty, and the Carrier Table is in
canonical form. -/
def State.looksClean (s : State) : Prop := s.badCodes = [] ∧ s.checkQueue = [] ∧ s.carriers.wf = true

/-- Every cascade leaves such an engine as it is. -/
theorem State.looksClean_broad : Broad State.looksClean where
  modStation h := h
  modCarrier := fun ⟨hb, hq, hwf⟩ => ⟨hb, hq, Table.wf_modify hwf _ _⟩
  modConference h := h
  withQueue _ h := h
  withFinals h := h

theorem Broad.enterConflict {P : State → Prop} (hc : Broad P) {s : State} (h : P s) (x : Nat) (kind : ConflictKind)
    (list : List Nat) : P (s.enterConflict x kind list) :=
  hc.markCarrier (hc.modCarrier h) _ _

theorem Broad.enterCleared {P : State → Prop} (hc : Broad P) {s : State} (h : P s) (x : Nat) : P (s.enterCleared x) := by
  have ht : P ((s.modCarrier x (fun y => { y with state := .cleared })).markCarrier x CarrierReason.cleared) :=
    hc.markCarrier (hc.modCarrier h) _ _
  unfold State.enterCleared
  dsimp only
  repeat' split
  · exact ht
  · exact ht
  · exact hc.soft.markStation (hc.bindCarrier ht _ _ _) _ _
  · exact hc.markCarrier ht _ _

theorem Broad.enterResult {P : State → Prop} (hc : Broad P) {s : State} (h : P s) (x : Nat) (y : Carrier)
    (found : Option (ConflictKind × List Nat)) : P (s.enterResult x y found) := by
  unfold State.enterResult
  repeat' split
  · exact hc.enterConflict h _ _ _
  · exact hc.enterConflict h _ _ _
  · exact hc.enterCleared h _

/-- A mark changes nothing of the carrier but its mark. -/
theorem State.markCarrier_carrier {s : State} {c : Nat} {y : Carrier} (hy : s.carrier c = some y) (r : Nat) :
    (s.markCarrier c r).carrier c = some { y with mark := addReason r y.mark } := by
  rw [State.markCarrier, State.carrier_modCarrier, if_pos rfl, hy]
  rfl

/-- A check that ends in Conflict (R37). -/
theorem State.enterConflict_carrier {s : State} {c : Nat} {y : Carrier} (hy : s.carrier c = some y) (kind : ConflictKind)
    (list : List Nat) :
    (s.enterConflict c kind list).carrier c =
      some { y with state := .conflict, conflict := some (kind, list), mark := addReason 1 y.mark } := by
  have h : (s.modCarrier c (fun y => { y with state := .conflict, conflict := some (kind, list) })).carrier c =
      some { y with state := .conflict, conflict := some (kind, list) } := by
    rw [State.carrier_modCarrier, if_pos rfl, hy]
    rfl
  exact State.markCarrier_carrier h _

/-- A carrier that is bound is Assigned or Standby; its conflict and its restore pass stay. -/
theorem State.bindCarrier_carrier {s : State} {c : Nat} {y : Carrier} (hy : s.carrier c = some y) (k : Nat) (role : Role) :
    ∃ z, (s.bindCarrier k c role).carrier c = some z ∧ z.state.committed = true ∧ z.conflict = y.conflict ∧
      z.restorePending = y.restorePending := by
  have h : (s.modCarrier c (fun y => { y with
      state := match role with | .primary => .assigned | .standby => .standby
      bound := some (k, role)
      intent := some (k, role) })).carrier c = some { y with
      state := match role with | .primary => .assigned | .standby => .standby
      bound := some (k, role)
      intent := some (k, role) } := by
    rw [State.carrier_modCarrier, if_pos rfl, hy]
    rfl
  refine ⟨_, State.markCarrier_carrier h CarrierReason.bound, ?_, rfl, rfl⟩
  cases role <;> rfl

/-- A check that ends Cleared leaves a committed carrier, bound or not; its conflict and its restore pass stay (R37, R38). -/
theorem State.enterCleared_carrier {s : State} {c : Nat} {y : Carrier} (hy : s.carrier c = some y) :
    ∃ z, (s.enterCleared c).carrier c = some z ∧ z.state.committed = true ∧ z.conflict = y.conflict ∧
      z.restorePending = y.restorePending := by
  have h : (s.modCarrier c (fun y => { y with state := .cleared })).carrier c = some { y with state := .cleared } := by
    rw [State.carrier_modCarrier, if_pos rfl, hy]
    rfl
  have ht := State.markCarrier_carrier h CarrierReason.cleared
  unfold State.enterCleared
  simp only [ht]
  cases y.intent with
  | none => exact ⟨_, ht, rfl, rfl, rfl⟩
  | some p =>
    obtain ⟨k, role⟩ := p
    dsimp only
    split
    · exact State.bindCarrier_carrier ht k role
    · exact ⟨_, State.markCarrier_carrier ht _, rfl, rfl, rfl⟩

/-- A check that begins puts its candidate under the engine, or ends at once in Conflict (R33). -/
theorem State.beginCheck_cases (s : State) (c : Nat) :
    (∃ e, s.beginCheck c = { s with engine := e }) ∨ ∃ kind, s.beginCheck c = s.enterConflict c kind [] := by
  unfold State.beginCheck
  split
  · exact .inl ⟨s.engine, rfl⟩
  · split
    · exact .inl ⟨_, rfl⟩
    · split
      · exact .inr ⟨_, rfl⟩
      · exact .inl ⟨_, rfl⟩

theorem State.beginCheck_carrier_ne {s : State} {c d : Nat} (h : c ≠ d) : (s.beginCheck d).carrier c = s.carrier c := by
  rcases s.beginCheck_cases d with ⟨e, he⟩ | ⟨kind, he⟩
  · rw [he]
    rfl
  · rw [he, State.enterConflict, State.markCarrier, State.carrier_modCarrier, if_neg h, State.carrier_modCarrier, if_neg h]

theorem State.beginCheck_looksClean {s : State} (h : s.looksClean) (d : Nat) : (s.beginCheck d).looksClean := by
  rcases s.beginCheck_cases d with ⟨e, he⟩ | ⟨kind, he⟩
  · rw [he]
    exact h
  · rw [he]
    exact State.looksClean_broad.enterConflict h _ _ _

/-- A clean engine's next candidate is restore pending, and is then no longer (R32). -/
theorem State.nextCandidate_clean {s t : State} {c : Nat} (h : s.looksClean) (hn : s.nextCandidate = some (c, t)) :
    (∃ x, s.carrier c = some x ∧ x.restorePending = true) ∧
      t = s.modCarrier c (fun y => { y with restorePending := false }) := by
  obtain ⟨hb, hq, hwf⟩ := h
  rw [State.nextCandidate_sound hb, hq] at hn
  obtain ⟨p, hp, he⟩ := Option.map_eq_some_iff.1 hn
  obtain ⟨rfl, rfl⟩ := Prod.mk.inj he
  have pending : p.2.restorePending = true := List.find?_some (p := fun q : Nat × Carrier => q.2.restorePending) hp
  exact ⟨⟨p.2, (Table.mem_records hwf _ _).1 (List.mem_of_find?_eq_some hp), pending⟩, rfl⟩

/-- A clean engine that takes candidates leaves alone a carrier that is not restore pending. -/
theorem engineTakes_carrier {c : Nat} {y : Carrier} (hr : y.restorePending = false) (n : Nat) {s : State}
    (h : s.looksClean) (hy : s.carrier c = some y) : (engineTakes n s).carrier c = some y := by
  induction n generalizing s with
  | zero => exact hy
  | succ n ih =>
    rw [engineTakes]
    split
    · exact hy
    · split
      · exact hy
      · next d t hn =>
        obtain ⟨⟨x, hx, hpending⟩, rfl⟩ := State.nextCandidate_clean h hn
        have hne : c ≠ d := by
          rintro rfl
          rw [hy] at hx
          cases hx
          simp [hr] at hpending
        refine ih (State.beginCheck_looksClean (State.looksClean_broad.modCarrier h) d) ?_
        rw [State.beginCheck_carrier_ne hne, State.carrier_modCarrier, if_neg hne, hy]

theorem State.engineLooks_carrier {s : State} {c : Nat} {y : Carrier} (hr : y.restorePending = false)
    (h : s.looksClean) (hy : s.carrier c = some y) : s.engineLooks.carrier c = some y := by
  unfold State.engineLooks
  split
  · exact engineTakes_carrier hr _ h hy
  · exact hy

/-- END_OF_CHECK in service, with sound records, gives the result of the check, and the engine looks again (R37). -/
theorem State.endOfCheck_eq {s : State} {k : Check} {y : Carrier} (hs : s.service = .inService) (hl : s.load = .none)
    (hb : s.badCodes = []) (he : s.engine = some k) (hy : s.carrier k.carrier = some y) :
    exec .endOfCheck s = .next (State.enterResult { s with engine := none } k.carrier y k.found).engineLooks := by
  have run : exec .endOfCheck s = .next s.checkEnds := rfl
  rw [run]
  simp [State.checkEnds, he, hs, State.tablesDown, hl, State.acting_sound hb, State.endOfCheck, hy]

/-- What a check leaves of its candidate, by what its later stages found. -/
structure Carrier.CheckedBy (found : Option (ConflictKind × List Nat)) (z : Carrier) : Prop where
  passed : found = none → z.state.committed = true ∧ z.conflict = none
  failed : ∀ kind list, found = some (kind, list) → z.state = .conflict ∧ z.conflict = some (kind, list)

/-- The result of a check whose window stage passes at its end; the candidate waits for no restore pass (R37). -/
theorem State.enterResult_carrier {s : State} {c : Nat} {y : Carrier} (hy : s.carrier c = some y)
    (hw : s.windowStage y = none) (hk : y.conflict = none) (hr : y.restorePending = false)
    (found : Option (ConflictKind × List Nat)) :
    ∃ z, (s.enterResult c y found).carrier c = some z ∧ z.restorePending = false ∧ z.CheckedBy found := by
  unfold State.enterResult
  rw [hw]
  cases found with
  | none =>
    obtain ⟨z, hz, hstate, hconflict, hpending⟩ := State.enterCleared_carrier hy
    exact ⟨z, hz, hpending.trans hr, fun _ => ⟨hstate, hconflict.trans hk⟩, nofun⟩
  | some f =>
    refine ⟨_, State.enterConflict_carrier hy f.1 f.2, hr, nofun, fun kind list h => ?_⟩
    obtain rfl := Option.some.inj h
    exact ⟨rfl, rfl⟩

/-- A check from CHECK CARRIER to its end: its result is what the later stages found as it began (R24, R32, R37). -/
theorem State.checkable_checkedAs {s : State} {o : Order} {y : Carrier} (h : s.checkable o y) :
    ∃ z, s.checkedAs o z ∧ z.CheckedBy (s.laterStages (keyOf o) y) := by
  have taken := State.checkCarrier_taken h
  obtain ⟨⟨⟨hs, _, hb⟩, _⟩, hy, _, _, _, _, hr, _, hq, hl, hw, hwf⟩ := h
  have checking : ((s.checks (keyOf o) y).done o).carrier (keyOf o) = some y.checking := Table.get_put_self _ _ _
  have clean : State.looksClean { (s.checks (keyOf o) y).done o with engine := none } := ⟨hb, hq, Table.wf_put hwf _ _⟩
  obtain ⟨z, hz, hpending, result⟩ := State.enterResult_carrier
    (s := { (s.checks (keyOf o) y).done o with engine := none }) checking hw rfl hr (s.laterStages (keyOf o) y)
  exact ⟨z, ⟨_, _, taken, State.endOfCheck_eq hs hl hb rfl checking, State.engineLooks_carrier hpending
    (State.looksClean_broad.enterResult clean _ _ _) hz⟩, result⟩

/-! ## The committed set -/

/-- The records of a table in canonical form stand by rising key. -/
theorem Table.records_rise {α : Type} {t : Table α} (h : t.wf = true) : t.records.Pairwise (fun p q => p.1 < q.1) := by
  have hp := List.pairwise_map.1 ((Table.wf_iff t).1 h)
  have key : ∀ (p : Nat × Slot α) (r : Nat × α),
      (match p.2 with | .held r => some (p.1, r) | .damaged _ => none) = some r → r.1 = p.1 := by
    rintro ⟨k, x⟩ r hr
    cases x with
    | held r' => exact congrArg Prod.fst (Option.some.inj hr).symm
    | damaged m => cases hr
  refine List.Pairwise.filterMap _ ?_ hp
  intro p q hpq a ha b hb
  rw [key p a ha, key q b hb]
  exact hpq

/-- The committed set holds the committed carriers beside the candidate. -/
theorem State.mem_committedSet {s : State} (h : s.carriers.wf = true) {k c : Nat} {x : Carrier} :
    (c, x) ∈ s.committedSet k ↔ s.carrier c = some x ∧ x.state.committed = true ∧ c ≠ k := by
  simp [State.committedSet, Table.mem_records h, State.carrier]

theorem State.committedSet_rises {s : State} (h : s.carriers.wf = true) (k : Nat) :
    (s.committedSet k).Pairwise (fun p q => p.1 < q.1) :=
  (Table.records_rise h).filter _

/-- A carrier that can be checked is not committed: a committed carrier is another one. -/
theorem State.ne_of_committed {s : State} {k c : Nat} {x y : Carrier} (hy : s.carrier k = some y)
    (hst : y.state = .proposed ∨ y.state = .conflict) (hx : s.carrier c = some x) (hc : x.state.committed = true) :
    c ≠ k := by
  rintro rfl
  rw [hy] at hx
  cases hx
  rcases hst with hst | hst <;> simp [hst, CarrierState.committed] at hc

/-! ## The spacing stage (R34) -/

/-- A committed carrier lies closer to the candidate than R34 requires. -/
def State.fallsShort (s : State) (y : Carrier) (c : Nat) : Prop :=
  ∃ x, s.carrier c = some x ∧ x.state.committed = true ∧
    ((y.frequency : Int) - (x.frequency : Int)).natAbs < (y.cls.width + x.cls.width) / 2 + s.settings.spacingGuard

theorem gap_eq_natAbs (a b : Nat) : gap a b = ((a : Int) - (b : Int)).natAbs := by
  unfold gap
  omega

/-- The first n of a rising list: it rises, and what it leaves out lies above its n numbers. -/
theorem take_of_rising {l : List Nat} (h : l.Pairwise (· < ·)) (n : Nat) :
    (l.take n).length ≤ n ∧ (l.take n).Pairwise (· < ·) ∧ (∀ c ∈ l.take n, c ∈ l) ∧
      ∀ c ∈ l, c ∉ l.take n → (l.take n).length = n ∧ ∀ d ∈ l.take n, d < c := by
  refine ⟨List.length_take_le n l, h.take, fun c hc => List.mem_of_mem_take hc, fun c hc hn => ?_⟩
  have hd : c ∈ l.drop n := by
    rw [← List.take_append_drop n l, List.mem_append] at hc
    exact hc.resolve_left hn
  have long : n < l.length := by
    by_contra hle
    simp [List.drop_eq_nil_of_le (Nat.le_of_not_lt hle)] at hd
  rw [← List.take_append_drop n l] at h
  obtain ⟨_, _, hbelow⟩ := List.pairwise_append.1 h
  exact ⟨List.length_take_of_le long.le, fun d hdt => hbelow d hdt c hd⟩

/-- All the carriers of a list that stand closer to the candidate than R34 requires. -/
def tooClose (guard : Nat) (y : Carrier) (committed : List (Nat × Carrier)) : List Nat :=
  (committed.filter (fun p =>
    gap y.frequency p.2.frequency < (y.cls.width + p.2.cls.width) / 2 + guard)).map (·.1)

theorem spacingStage_eq_take (guard : Nat) (y : Carrier) (committed : List (Nat × Carrier)) :
    spacingStage guard y committed = (tooClose guard y committed).take 4 := rfl

theorem tooClose_rises {committed : List (Nat × Carrier)} (h : committed.Pairwise (fun p q => p.1 < q.1)) (guard : Nat)
    (y : Carrier) : (tooClose guard y committed).Pairwise (· < ·) :=
  List.pairwise_map.2 (h.filter _)

theorem State.mem_tooClose {s : State} {k : Nat} {y : Carrier} (hwf : s.carriers.wf = true) (hy : s.carrier k = some y)
    (hst : y.state = .proposed ∨ y.state = .conflict) (c : Nat) :
    c ∈ tooClose s.settings.spacingGuard y (s.committedSet k) ↔ s.fallsShort y c := by
  simp only [tooClose, List.mem_map, List.mem_filter, Prod.exists, exists_and_right, exists_eq_right,
    State.mem_committedSet hwf, gap_eq_natAbs, decide_eq_true_eq, State.fallsShort]
  constructor
  · rintro ⟨x, ⟨hx, hc, _⟩, hs⟩
    exact ⟨x, hx, hc, hs⟩
  · rintro ⟨x, hx, hc, hs⟩
    exact ⟨x, ⟨hx, hc, State.ne_of_committed hy hst hx hc⟩, hs⟩

/-- What the spacing stage finds: the carriers that fall short, ascending, up to the four lowest-numbered. -/
theorem State.spacingStage_spec {s : State} {k : Nat} {y : Carrier} (hwf : s.carriers.wf = true)
    (hy : s.carrier k = some y) (hst : y.state = .proposed ∨ y.state = .conflict) {list : List Nat}
    (hl : spacingStage s.settings.spacingGuard y (s.committedSet k) = list) :
    list.length ≤ 4 ∧ list.Pairwise (· < ·) ∧ (∀ c ∈ list, s.fallsShort y c) ∧
      ∀ c, s.fallsShort y c → c ∉ list → list.length = 4 ∧ ∀ d ∈ list, d < c := by
  have mem := State.mem_tooClose hwf hy hst
  obtain ⟨hlen, hup, hsub, hrest⟩ :=
    take_of_rising (tooClose_rises (State.committedSet_rises hwf k) s.settings.spacingGuard y) 4
  rw [← spacingStage_eq_take, hl] at hlen hup hsub hrest
  exact ⟨hlen, hup, fun c hc => (mem c).1 (hsub c hc), fun c hc => hrest c ((mem c).2 hc)⟩

/-- The spacing stage passes exactly when no committed carrier falls short. -/
theorem State.spacingStage_nil_iff {s : State} {k : Nat} {y : Carrier} (hwf : s.carriers.wf = true)
    (hy : s.carrier k = some y) (hst : y.state = .proposed ∨ y.state = .conflict) :
    spacingStage s.settings.spacingGuard y (s.committedSet k) = [] ↔ ∀ c, ¬ s.fallsShort y c := by
  obtain ⟨_, _, hin, hout⟩ := State.spacingStage_spec hwf hy hst rfl
  constructor
  · intro hnil c hc
    rw [hnil] at hout
    simpa using (hout c hc List.not_mem_nil).1
  · exact fun hno => List.eq_nil_iff_forall_not_mem.2 fun c hc => hno c (hin c hc)

/-- A spacing stage that passes leaves the result to the intermodulation stage. -/
theorem State.laterStages_spaced {s : State} {k : Nat} {y : Carrier}
    (h : spacingStage s.settings.spacingGuard y (s.committedSet k) = []) :
    s.laterStages k y = (s.imStage y (s.committedSet k)).map (fun l => (.intermod, l)) := by
  simp only [State.laterStages, h]

/-- A spacing stage that fails is the result. -/
theorem State.laterStages_short {s : State} {k : Nat} {y : Carrier}
    (h : spacingStage s.settings.spacingGuard y (s.committedSet k) ≠ []) :
    s.laterStages k y = some (.spacing, spacingStage s.settings.spacingGuard y (s.committedSet k)) := by
  unfold State.laterStages
  cases hl : spacingStage s.settings.spacingGuard y (s.committedSet k) with
  | nil => exact absurd hl h
  | cons c cs => simp only [hl]

/-- A check whose spacing stage passes does not end in Conflict for spacing. -/
theorem Carrier.CheckedBy.not_spacing {z : Carrier} {found : Option (List Nat)}
    (h : z.CheckedBy (found.map (fun l => (.intermod, l)))) (list : List Nat) : z.conflict ≠ some (.spacing, list) := by
  cases found with
  | none =>
    rw [(h.passed rfl).2]
    nofun
  | some l =>
    rw [(h.failed _ _ rfl).2]
    nofun

/-! ## The intermodulation stage (R35, R36) -/

/-- Two listed carriers, of different numbers, whose frequencies a test picks. -/
def PairHits (cs : List (Nat × Nat)) (hit : Nat → Nat → Bool) (a b : Nat) : Prop :=
  ∃ fa fb, (a, fa) ∈ cs ∧ (b, fb) ∈ cs ∧ a ≠ b ∧ hit fa fb = true

/-- The order of pairs: by the first number, then by the second. -/
def PairFirst (a b c d : Nat) : Prop := a < c ∨ (a = c ∧ b ≤ d)

/-- The element found in a rising list is the least that fits. -/
theorem find?_least {cs : List (Nat × Nat)} (h : cs.Pairwise (fun p q => p.1 < q.1)) {p : Nat × Nat → Bool}
    {b : Nat × Nat} (hb : cs.find? p = some b) {d : Nat × Nat} (hd : d ∈ cs) (hp : p d = true) : b.1 ≤ d.1 := by
  obtain ⟨_, before, after, rfl, hno⟩ := List.find?_eq_some_iff_append.1 hb
  obtain ⟨_, hrow, _⟩ := List.pairwise_append.1 h
  rcases List.mem_append.1 hd with hd | hd
  · simpa [hp] using hno d hd
  · rcases List.mem_cons.1 hd with rfl | hd
    · exact le_rfl
    · exact ((List.pairwise_cons.1 hrow).1 d hd).le

/-- No pair is found exactly when the test picks none. -/
theorem firstPair_none_iff (cs : List (Nat × Nat)) (hit : Nat → Nat → Bool) :
    firstPair cs hit = none ↔ ∀ a b, ¬ PairHits cs hit a b := by
  simp only [firstPair, List.findSome?_eq_none_iff, Option.map_eq_none_iff, List.find?_eq_none, PairHits]
  constructor
  · rintro h a b ⟨fa, fb, ha, hb, hne, hh⟩
    exact h (a, fa) ha (b, fb) hb (by simp [hne, hh])
  · rintro h ⟨a, fa⟩ ha ⟨b, fb⟩ hb hh
    obtain ⟨hne, hh⟩ := Bool.and_eq_true_iff.1 hh
    exact h a b ⟨fa, fb, ha, hb, by simpa using hne, hh⟩

/-- The pair found in a rising list is the first that the test picks. -/
theorem firstPair_some {cs : List (Nat × Nat)} (h : cs.Pairwise (fun p q => p.1 < q.1)) {hit : Nat → Nat → Bool}
    {a b : Nat} (hp : firstPair cs hit = some (a, b)) :
    PairHits cs hit a b ∧ ∀ c d, PairHits cs hit c d → PairFirst a b c d := by
  obtain ⟨before, ⟨a', fa⟩, after, hcs, hrow, hno⟩ := List.findSome?_eq_some_iff.1 hp
  obtain ⟨⟨b', fb⟩, hfind, he⟩ := Option.map_eq_some_iff.1 hrow
  obtain ⟨rfl, rfl⟩ := Prod.mk.inj he
  have hpick := List.find?_some hfind
  simp only [Bool.and_eq_true, bne_iff_ne] at hpick
  refine ⟨⟨fa, fb, by simp [hcs], List.mem_of_find?_eq_some hfind, hpick⟩, ?_⟩
  rintro c d ⟨fc, fd, hc, hd, hne, hh⟩
  rw [hcs] at hc
  rcases List.mem_append.1 hc with hc | hc
  · have skipped := List.find?_eq_none.1 (Option.map_eq_none_iff.1 (hno _ hc)) _ hd
    simp [hne, hh] at skipped
  · rcases List.mem_cons.1 hc with hc | hc
    · obtain ⟨rfl, rfl⟩ := Prod.mk.inj hc
      exact .inr ⟨rfl, find?_least h hfind hd (by simp [hne, hh])⟩
    · obtain ⟨_, hrest, _⟩ := List.pairwise_append.1 (hcs ▸ h)
      exact .inl ((List.pairwise_cons.1 hrest).1 _ hc)

/-- No test of a list finds a pair exactly when none picks one. -/
theorem tests_none_iff (cs : List (Nat × Nat)) (tests : List (Nat → Nat → Bool)) :
    tests.findSome? (firstPair cs) = none ↔ ∀ (i : Nat) hit a b, tests[i]? = some hit → ¬ PairHits cs hit a b := by
  simp only [List.findSome?_eq_none_iff, firstPair_none_iff, List.mem_iff_getElem?]
  exact ⟨fun h i hit a b hi => h hit ⟨i, hi⟩ a b, fun h hit ⟨i, hi⟩ a b => h i hit a b hi⟩

/-- The pair that a list of tests finds is the first by test, and then the first of the pairs that this test picks. -/
theorem tests_some {cs : List (Nat × Nat)} (h : cs.Pairwise (fun p q => p.1 < q.1)) {tests : List (Nat → Nat → Bool)}
    {a b : Nat} (hp : tests.findSome? (firstPair cs) = some (a, b)) :
    ∃ (i : Nat) (hit : Nat → Nat → Bool), tests[i]? = some hit ∧ PairHits cs hit a b ∧
      ∀ (j : Nat) hit' c d, tests[j]? = some hit' → PairHits cs hit' c d → i < j ∨ (i = j ∧ PairFirst a b c d) := by
  obtain ⟨before, hit, after, rfl, hfound, hno⟩ := List.findSome?_eq_some_iff.1 hp
  obtain ⟨hhit, hfirst⟩ := firstPair_some h hfound
  refine ⟨before.length, hit, by simp, hhit, fun j hit' c d hj hcd => ?_⟩
  rcases Nat.lt_trichotomy j before.length with hlt | rfl | hgt
  · rw [List.getElem?_append_left hlt] at hj
    exact absurd hcd ((firstPair_none_iff cs hit').1 (hno hit' (List.mem_of_getElem? hj)) c d)
  · simp only [List.getElem?_append_right le_rfl, Nat.sub_self, List.getElem?_cons_zero, Option.some.injEq] at hj
    subst hj
    exact .inr ⟨rfl, hfirst c d hcd⟩
  · exact .inl hgt

/-- The tests of one order of products: m = 2 the third, m = 3 the fifth (R35, R36). -/
def orderTests (guard m fx : Nat) : List (Nat → Nat → Bool) :=
  [fun fa fb => nearProduct guard (imProduct m fa fb) fx, fun fa fc => nearProduct guard (imProduct m fx fa) fc,
    fun fa fc => nearProduct guard (imProduct m fa fx) fc]

/-- The tests of a candidate's frequency, in their order; those of the fifth order are made when the IM order is Third+Fifth. -/
def Settings.productTests (x : Settings) (fx : Nat) : List (Nat → Nat → Bool) :=
  orderTests x.imGuard 2 fx ++ if x.imFifth then orderTests x.imGuard 3 fx else []

/-- The committed Audio carriers: numbers and frequencies. -/
def audioOf (committed : List (Nat × Carrier)) : List (Nat × Nat) :=
  (committed.filter (fun p => p.2.cls = .audio)).map (fun p => (p.1, p.2.frequency))

theorem imTests_eq (guard m fx : Nat) (cs : List (Nat × Nat)) :
    imTests guard m fx cs = (orderTests guard m fx).findSome? (firstPair cs) := by
  simp only [imTests, orderTests, List.findSome?_cons, List.findSome?_nil]
  repeat' split
  all_goals simp_all

/-- The intermodulation stage of an Audio candidate takes the tests in their order. -/
theorem State.imStage_audio {s : State} {y : Carrier} (h : y.cls = .audio) (committed : List (Nat × Carrier)) :
    s.imStage y committed = ((s.settings.productTests y.frequency).findSome? (firstPair (audioOf committed))).map
      (fun p => sortNat [p.1, p.2]) := by
  simp only [State.imStage, h, Settings.productTests, List.findSome?_append, ← imTests_eq, audioOf]
  generalize List.map _ (List.filter _ committed) = cs
  cases imTests s.settings.imGuard 2 y.frequency cs with
  | some p => rfl
  | none => cases s.settings.imFifth <;> simp [imTests_eq]

/-- A Video candidate passes (R35). -/
theorem State.imStage_video {s : State} {y : Carrier} (h : y.cls = .video) (committed : List (Nat × Carrier)) :
    s.imStage y committed = none := by
  simp only [State.imStage, h]

/-- A committed Audio carrier stands at a frequency. -/
def State.audioAt (s : State) (c : Nat) (f : Int) : Prop :=
  ∃ x, s.carrier c = some x ∧ x.state.committed = true ∧ x.cls = .audio ∧ (x.frequency : Int) = f

/-- Test n of a candidate at fx picks two frequencies: 1 to 3 the third-order products, 4 to 6 the fifth-order ones. -/
def Settings.picks (x : Settings) (fx : Int) (n : Nat) (fa fb : Int) : Prop :=
  let within : Int → Int → Prop := fun product f => (product - f).natAbs ≤ x.imGuard
  (n = 1 ∧ within (2 * fa - fb) fx) ∨ (n = 2 ∧ within (2 * fx - fa) fb) ∨ (n = 3 ∧ within (2 * fa - fx) fb) ∨
    (x.imFifth = true ∧
      ((n = 4 ∧ within (3 * fa - 2 * fb) fx) ∨ (n = 5 ∧ within (3 * fx - 2 * fa) fb) ∨
        (n = 6 ∧ within (3 * fa - 2 * fx) fb)))

/-- Test n finds a product of two committed Audio carriers (R35, R36). -/
def State.productHit (s : State) (y : Carrier) (n a b : Nat) : Prop :=
  ∃ fa fb, s.audioAt a fa ∧ s.audioAt b fb ∧ a ≠ b ∧ s.settings.picks y.frequency n fa fb

theorem nearProduct_third (guard f1 f2 f : Nat) :
    nearProduct guard (imProduct 2 f1 f2) f = true ↔ (2 * (f1 : Int) - f2 - f).natAbs ≤ guard := by
  simp [nearProduct, imProduct]

theorem nearProduct_fifth (guard f1 f2 f : Nat) :
    nearProduct guard (imProduct 3 f1 f2) f = true ↔ (3 * (f1 : Int) - 2 * f2 - f).natAbs ≤ guard := by
  rw [nearProduct, decide_eq_true_eq, imProduct]
  norm_num

/-- The listed tests are the numbered ones, counted from 1. -/
theorem Settings.productTests_iff (x : Settings) (fx i fa fb : Nat) :
    (∃ hit, (x.productTests fx)[i]? = some hit ∧ hit fa fb = true) ↔ x.picks fx (i + 1) fa fb := by
  cases hfifth : x.imFifth
  all_goals
    rcases i with _ | _ | _ | _ | _ | _ | i
    all_goals
      simp [Settings.productTests, orderTests, Settings.picks, hfifth, nearProduct_third, nearProduct_fifth]

/-- The listed carriers are the committed Audio carriers. -/
theorem State.mem_audioOf {s : State} {k : Nat} {y : Carrier} (hwf : s.carriers.wf = true) (hy : s.carrier k = some y)
    (hst : y.state = .proposed ∨ y.state = .conflict) (c f : Nat) :
    (c, f) ∈ audioOf (s.committedSet k) ↔ s.audioAt c f := by
  simp only [audioOf, List.mem_map, List.mem_filter, Prod.exists, Prod.mk.injEq, State.mem_committedSet hwf,
    decide_eq_true_eq, State.audioAt, Nat.cast_inj]
  constructor
  · rintro ⟨c, x, ⟨⟨hx, hc, _⟩, ha⟩, rfl, rfl⟩
    exact ⟨x, hx, hc, ha, rfl⟩
  · rintro ⟨x, hx, hc, ha, rfl⟩
    exact ⟨c, x, ⟨⟨hx, hc, State.ne_of_committed hy hst hx hc⟩, ha⟩, rfl, rfl⟩

theorem audioOf_rises {committed : List (Nat × Carrier)} (h : committed.Pairwise (fun p q => p.1 < q.1)) :
    (audioOf committed).Pairwise (fun p q => p.1 < q.1) :=
  List.pairwise_map.2 (h.filter _)

/-- A product that a numbered test finds is one that the listed test picks. -/
theorem State.productHit_iff {s : State} {k : Nat} {y : Carrier} (hwf : s.carriers.wf = true) (hy : s.carrier k = some y)
    (hst : y.state = .proposed ∨ y.state = .conflict) (n a b : Nat) :
    s.productHit y n a b ↔ ∃ i hit, n = i + 1 ∧ (s.settings.productTests y.frequency)[i]? = some hit ∧
      PairHits (audioOf (s.committedSet k)) hit a b := by
  constructor
  · rintro ⟨fa, fb, ⟨x, hx, hxc, hxa, rfl⟩, ⟨v, hv, hvc, hva, rfl⟩, hne, hp⟩
    cases n with
    | zero => simp [Settings.picks] at hp
    | succ i =>
      obtain ⟨hit, hi, hh⟩ := (Settings.productTests_iff _ _ _ _ _).2 hp
      exact ⟨i, hit, rfl, hi, x.frequency, v.frequency,
        (State.mem_audioOf hwf hy hst _ _).2 ⟨x, hx, hxc, hxa, rfl⟩,
        (State.mem_audioOf hwf hy hst _ _).2 ⟨v, hv, hvc, hva, rfl⟩, hne, hh⟩
  · rintro ⟨i, hit, rfl, hi, fa, fb, ha, hb, hne, hh⟩
    exact ⟨fa, fb, (State.mem_audioOf hwf hy hst a fa).1 ha, (State.mem_audioOf hwf hy hst b fb).1 hb, hne,
      (Settings.productTests_iff _ _ _ _ _).1 ⟨hit, hi, hh⟩⟩

/-- A Video candidate, and one of which no product is found, passes the stage. -/
theorem State.imStage_passes {s : State} {k : Nat} {y : Carrier} (hwf : s.carriers.wf = true) (hy : s.carrier k = some y)
    (hst : y.state = .proposed ∨ y.state = .conflict) (h : y.cls = .video ∨ ∀ n a b, ¬ s.productHit y n a b) :
    s.imStage y (s.committedSet k) = none := by
  cases hcls : y.cls with
  | video => exact State.imStage_video hcls _
  | audio =>
    have none_hits := h.resolve_left (by simp [hcls])
    rw [State.imStage_audio hcls, Option.map_eq_none_iff, tests_none_iff]
    exact fun i hit a b hi hp => none_hits (i + 1) a b ((State.productHit_iff hwf hy hst _ _ _).2 ⟨i, hit, rfl, hi, hp⟩)

theorem sortNat_pair {a b : Nat} (h : a ≠ b) : sortNat [a, b] = [min a b, max a b] := by
  simp only [sortNat, List.foldl_cons, List.foldl_nil, insertNat, addReason]
  rcases Nat.lt_or_gt_of_ne h with hlt | hgt
  · simp [hlt.le, Nat.not_lt.2 hlt.le, h.symm]
  · simp [hgt, hgt.le]

/-- The first product found fails the stage, with its two carriers. -/
theorem State.imStage_fails {s : State} {k : Nat} {y : Carrier} (hwf : s.carriers.wf = true) (hy : s.carrier k = some y)
    (hst : y.state = .proposed ∨ y.state = .conflict) (hcls : y.cls = .audio) {n a b : Nat} (hh : s.productHit y n a b)
    (hfirst : ∀ m c d, s.productHit y m c d → n < m ∨ (n = m ∧ PairFirst a b c d)) :
    s.imStage y (s.committedSet k) = some [min a b, max a b] := by
  have hit_iff := State.productHit_iff hwf hy hst
  rw [State.imStage_audio hcls]
  cases hfound : (s.settings.productTests y.frequency).findSome? (firstPair (audioOf (s.committedSet k))) with
  | none =>
    obtain ⟨i, hit, _, hi, hp⟩ := (hit_iff n a b).1 hh
    exact absurd hp ((tests_none_iff _ _).1 hfound i hit a b hi)
  | some p =>
    obtain ⟨c, d⟩ := p
    obtain ⟨i, hit, hi, hp, hleast⟩ := tests_some (audioOf_rises (State.committedSet_rises hwf k)) hfound
    obtain ⟨j, hit', rfl, hj, hp'⟩ := (hit_iff n a b).1 hh
    have up := hfirst (i + 1) c d ((hit_iff _ _ _).2 ⟨i, hit, rfl, hi, hp⟩)
    have down := hleast j hit' a b hj hp'
    unfold PairFirst at up down
    have same : a = c ∧ b = d := by omega
    obtain ⟨rfl, rfl⟩ := same
    obtain ⟨_, _, _, _, hne, _⟩ := hp
    rw [Option.map_some, sortNat_pair hne]

end Sys2Proof.Machine

namespace Sys2Proof
open Machine

/-- Settles O7: the result of the check is what the later stages found as it began, and of these the spacing stage is
first; it takes the head of the ascending list of the carriers that fall short. -/
theorem spacingStage : Obligations.SpacingStage := by
  refine ⟨fun o s y h => ?_, ?_⟩
  · obtain ⟨z, hz, result⟩ := State.checkable_checkedAs h
    obtain ⟨_, hy, _, _, _, hst, _, _, _, _, _, hwf⟩ := h
    have passes := State.spacingStage_nil_iff hwf hy hst
    refine ⟨z, hz, fun hno => ?_, fun ⟨c, hc⟩ => ?_⟩
    · rw [State.laterStages_spaced (passes.2 hno)] at result
      exact result.not_spacing
    · have hne := fun hnil => passes.1 hnil c hc
      obtain ⟨hstate, hconflict⟩ := result.failed _ _ (State.laterStages_short hne)
      exact ⟨hstate, _, hconflict, State.spacingStage_spec hwf hy hst rfl⟩
  · intro a b
    cases a <;> cases b <;> rfl

/-- Settles O16: the spacing stage passes, so the result is what the intermodulation stage found, and this is the first of
the products by test and then by the two carriers. -/
theorem intermodStage : Obligations.IntermodStage := by
  intro o s y h spaced
  obtain ⟨z, hz, result⟩ := State.checkable_checkedAs h
  obtain ⟨_, hy, _, _, _, hst, _, _, _, _, _, hwf⟩ := h
  have none_short : ∀ c, ¬ s.fallsShort y c := fun c ⟨x, hx, hc, hs⟩ => absurd hs (Nat.not_lt.2 (spaced c x hx hc))
  rw [State.laterStages_spaced ((State.spacingStage_nil_iff hwf hy hst).2 none_short)] at result
  refine ⟨z, hz, fun hpass hconflict => ?_, fun n a b hcls hh hfirst => ?_⟩
  · rw [State.imStage_passes hwf hy hst hpass] at result
    have committed := (result.passed rfl).1
    rw [hconflict] at committed
    cases committed
  · rw [State.imStage_fails hwf hy hst hcls hh hfirst] at result
    exact result.failed _ _ rfl

end Sys2Proof
end

section
/-! The machine's step, its totality, and the state after reset. -/

namespace Sys2Proof
open Machine

/-- Settles O1: the step takes the front of the queue by its definition. -/
theorem stepRunsFrontCommand : Obligations.StepRunsFrontCommand :=
  fun _ _ _ => step_cons rfl

/-- Settles O3: every meaning answers a next state; the source word of CUE_TIMEOUT alone is read first. -/
theorem everyCommandHasNext : Obligations.EveryCommandHasNext := by
  intro c s
  cases c with
  | cueTimeout k w =>
    simp only [exec, execCueTimeout]
    cases sourceOf w.toNat with
    | none => exact ⟨_, rfl⟩
    | some src => exact ⟨_, rfl⟩
  | _ => exact ⟨_, rfl⟩

/-- Settles O4: every table is empty, so every law between records holds of none. -/
theorem resetHasInvariants : Obligations.ResetHasInvariants := by
  have carrier : ∀ k, State.reset.carrier k = none := fun _ => rfl
  have station : ∀ k, State.reset.station k = none := fun _ => rfl
  have conference : ∀ k, State.reset.conference k = none := fun _ => rfl
  refine ⟨⟨rfl, ⟨rfl, rfl, rfl, rfl, rfl⟩, ?_, ⟨rfl, rfl, rfl⟩, by decide⟩, ?_, ?_, fun _ => ⟨?_, ⟨?_, ?_⟩, ?_, ?_, ?_⟩,
    fun _ => ⟨⟨?_, ?_⟩, ?_, ?_⟩⟩
  · exact ⟨Nat.zero_le _, Nat.zero_le _, List.nodup_nil, List.forall_mem_nil _⟩
  · intro k x hx
    simp [conference] at hx
  · intro k x hx
    simp [station] at hx
  · intro k x b hx
    simp [station] at hx
  · intro k x role c hx
    simp [station] at hx
  · intro c y hy
    simp [carrier] at hy
  · refine ⟨List.nodup_nil, List.forall_mem_nil _, ?_, ?_⟩
    · intro k hk
      cases hk
    · intro c y hy
      simp [carrier] at hy
  · intro c x _ _ hx
    simp [conference] at hx
  · intro k x hx
    simp [station] at hx
  · intro a b y z _ hy
    simp [carrier] at hy
  · intro a b c x y z _ _ _ hx
    simp [carrier] at hx
  · intro c y hy
    simp [carrier] at hy
  · intro k hs
    cases hs

end Sys2Proof
end

section
/-! The Control Port: every order command is one taking of an order (R160 to R163), whose count of words is the one that
R162 gives. -/

namespace Sys2Proof.Machine

/-! ## Counts of parameter words -/

theorem between_self (a n : Nat) : (decide (a ≤ n) && decide (n ≤ a)) = decide (n = a) := by
  rw [← Bool.decide_and, decide_eq_decide]
  omega

theorem evenCount_zero (hi : Nat) (ws : List Word) :
    evenCount 0 hi ws = (decide (ws.length ≤ hi) && decide (ws.length % 2 = 0)) := by simp [evenCount]

/-! ## The taking of an order -/

/-- The detail of the service state that refuses an order command: READ PART is taken in every service state, RESTART in
Halted too (R163, R178). -/
def serviceRefusal (c : Instr) (s : State) : Option Nat :=
  match c with
  | .readPart _ => none
  | .restart _ => s.restartDetail
  | _ => s.serviceDetail

/-- A reply of an accepted order: DONE or DONE-ADJUSTED. -/
def Reply.accepts (r : Reply) : Prop := r.status.code ≤ 1

@[simp] theorem doneReply_accepts (o : Order) : (doneReply o).accepts := Nat.zero_le _

@[simp] theorem doneWith_accepts (o : Order) (ws : List Word) : (doneWith o ws).accepts := Nat.zero_le _

@[simp] theorem adjustedReply_accepts (o : Order) (b : Bool) (d : Nat) : (adjustedReply o b d).accepts := by
  cases b
  · exact Nat.zero_le _
  · exact Nat.le_refl _

/-- The acceptance of an order, on sound records, ends in no refusal. -/
def acceptsOnly (o : Order) (accept : State → State) : Prop :=
  ∀ t : State, t.badCodes = [] → t.port = .processing o.key → ∀ a, (accept t).port = .pending a → a.status.code ≤ 1

/-- A command is the taking of an order: the count of its words is the one that its verb takes, the service states are
those that refuse it, and what is accepted is not refused; a failed store transfer apart. -/
def takenAs (c : Instr) (o : Order) (s : State) : Prop :=
  ∃ activity reads tests accept,
    exec c s = .next (s.gate o activity (countTakes (orderVerb c).1.selector (orderVerb c).2 o.params.length)
      (serviceRefusal c s) reads tests accept) ∧
    (storeAnswers c = true → acceptsOnly o accept)

/-- An answer is what the port then holds. -/
theorem acceptsOnly_answer {o : Order} {f : State → State × Reply} (h : ∀ t, (f t).2.accepts) :
    acceptsOnly o (fun t => (f t).1.answer (f t).2) := by
  intro t _ _ a ha
  cases ha
  exact h t

theorem acceptsOnly_touchingWith {o : Order} {f : State → State} (h : acceptsOnly o f) (activity : Nat)
    (more : State → RecordId → Bool) : acceptsOnly o (·.touchingWith activity more f) := by
  intro t ht hp a ha
  dsimp only at ha
  rw [State.touchingWith_sound ht] at ha
  exact h t ht hp a ha

/-- An order whose answer is ready with its effects. -/
theorem takenAs_takeOrderWith {c : Instr} {o : Order} {s : State} {activity : Nat} {count : Bool} {reads : RecordId → Bool}
    {tests : List Check1} {more : State → RecordId → Bool} {effect : State → State × Reply}
    (he : exec c s = .next (s.takeOrderWith o activity count reads tests more effect))
    (hc : count = countTakes (orderVerb c).1.selector (orderVerb c).2 o.params.length)
    (hs : serviceRefusal c s = s.serviceDetail) (hr : storeAnswers c = true → ∀ t, (effect t).2.accepts) :
    takenAs c o s := by
  subst hc
  exact ⟨_, _, _, _, by rw [he, hs]; rfl, fun ha => acceptsOnly_touchingWith (acceptsOnly_answer (hr ha)) _ _⟩

/-- An order whose cascade reads nothing further. -/
theorem takenAs_takeOrder {c : Instr} {o : Order} {s : State} {activity : Nat} {count : Bool} {reads : RecordId → Bool}
    {tests : List Check1} {effect : State → State × Reply}
    (he : exec c s = .next (s.takeOrder o activity count reads tests effect))
    (hc : count = countTakes (orderVerb c).1.selector (orderVerb c).2 o.params.length)
    (hs : serviceRefusal c s = s.serviceDetail) (hr : storeAnswers c = true → ∀ t, (effect t).2.accepts) :
    takenAs c o s :=
  takenAs_takeOrderWith he hc hs hr

theorem takenAs_read (t : TableId) (o : Order) (s : State) (h : t.plainRead = true) : takenAs (.read t o) o s := by
  cases t with
  | conference => cases h
  | part => cases h
  | _ => exact takenAs_takeOrder rfl rfl rfl (fun _ _ => doneWith_accepts _ _)

theorem takenAs_claim (t : TableId) (o : Order) (s : State) (h : t.claimable = true) : takenAs (.claim t o) o s := by
  have hc : hasClaims t = true := by cases t <;> first | rfl | cases h
  refine takenAs_takeOrder (by simp only [exec, execClaim, State.claimRecord, hc, if_true]; rfl) ?_ rfl (fun _ u => ?_)
  · cases t <;> rfl
  · split
    · exact doneWith_accepts _ _
    · exact doneReply_accepts _

theorem takenAs_release (t : TableId) (o : Order) (s : State) (h : t.claimable = true) : takenAs (.release t o) o s := by
  have hc : hasClaims t = true := by cases t <;> first | rfl | cases h
  refine takenAs_takeOrder (by simp only [exec, execRelease, State.releaseRecord, hc, if_true]; rfl) ?_ rfl
    (fun _ _ => doneReply_accepts _)
  cases t <;> rfl

theorem takenAs_nextMarked (t : TableId) (o : Order) (s : State) (h : t.marked = true) : takenAs (.nextMarked t o) o s := by
  have hc : hasMarks t = true := by cases t <;> first | rfl | cases h
  refine takenAs_takeOrder (by simp only [exec, execNextMarked, State.nextMarked, hc, if_true]; rfl) ?_ rfl (fun _ u => ?_)
  · cases t <;> rfl
  · split
    · exact Nat.zero_le _
    · exact Nat.zero_le _

/-- READ PART, which every service state takes: on a sound Part record it is answered DONE. -/
theorem takenAs_readPart (o : Order) (s : State) : takenAs (.readPart o) o s := by
  refine ⟨_, _, _, _, rfl, fun _ t _ _ a ha => ?_⟩
  cases ha
  exact Nat.zero_le _

/-- RELOAD PLAN is still being processed when it is accepted. -/
theorem takenAs_reloadPlan (o : Order) (s : State) : takenAs (.reloadPlan o) o s := by
  refine ⟨_, _, _, _, rfl, fun _ t _ hp a ha => ?_⟩
  split at ha
  · exact absurd (hp.symm.trans ha) nofun
  · exact absurd (hp.symm.trans ha) nofun

/-- RESTART, which Halted takes too. -/
theorem takenAs_restart (o : Order) (s : State) : takenAs (.restart o) o s := by
  refine ⟨_, _, _, _, by simp only [exec, execRestart, State.restartOrder]; rw [← between_self]; rfl,
    fun _ t _ _ a ha => ?_⟩
  cases ha
  exact Nat.zero_le _

/-- An order on a table of the plan, whose count is the one that its verb takes: what is left is its reply. -/
theorem takenAs_order {c : Instr} {o : Order} (h : orderIn c = some o) (s : State) : takenAs c o s := by
  cases c with
  | read t p =>
    simp only [orderIn, Option.ite_none_right_eq_some, Option.some.injEq] at h
    obtain ⟨ht, rfl⟩ := h
    exact takenAs_read t p s ht
  | claim t p =>
    simp only [orderIn, Option.ite_none_right_eq_some, Option.some.injEq] at h
    obtain ⟨ht, rfl⟩ := h
    exact takenAs_claim t p s ht
  | release t p =>
    simp only [orderIn, Option.ite_none_right_eq_some, Option.some.injEq] at h
    obtain ⟨ht, rfl⟩ := h
    exact takenAs_release t p s ht
  | nextMarked t p =>
    simp only [orderIn, Option.ite_none_right_eq_some, Option.some.injEq] at h
    obtain ⟨ht, rfl⟩ := h
    exact takenAs_nextMarked t p s ht
  | readPart p => cases h; exact takenAs_readPart o s
  | reloadPlan p => cases h; exact takenAs_reloadPlan o s
  | restart p => cases h; exact takenAs_restart o s
  | savePlan p ack =>
    cases h
    refine takenAs_takeOrder rfl rfl rfl (fun ha t => ?_)
    cases (show ack = true from ha)
    exact doneReply_accepts _
  | storeRead p ack =>
    cases h
    exact takenAs_takeOrder rfl (between_self 1 _).symm rfl (fun _ _ => doneWith_accepts _ _)
  | storeWrite p ack =>
    cases h
    refine takenAs_takeOrder rfl (between_self 2 _).symm rfl (fun ha t => ?_)
    cases (show ack = true from ha)
    exact doneReply_accepts _
  | defineWindow p | defineCarrier p | defineStation p | defineGallery p | defineConference p | defineOperator p =>
    cases h
    exact takenAs_takeOrder rfl (evenCount_zero _ _) rfl (fun _ _ => by simp)
  | editWindow p | editStation p | editGallery p | editConference p | editOperator p =>
    cases h
    exact takenAs_takeOrder rfl rfl rfl (fun _ _ => by simp)
  | editCarrier p | checkCarrier p | cancelCheck p =>
    cases h
    exact takenAs_takeOrderWith rfl rfl rfl (fun _ _ => by simp)
  | retireWindow p | retireCarrier p | blockCarrier p | unblockCarrier p | retireStation p | goLive p | park p | swap p
  | callStation p | clearCall p | clearCues p | retireGallery p | retireConference p | retireOperator p | releaseAll p
  | freezePlan p | forgetUnit p | lineReset p | readConference p | setCue p =>
    cases h
    exact takenAs_takeOrder rfl rfl rfl (fun _ _ => by simp)
  | setCoordination p | setLink p | setClock p | setMatrixUnit p | addMember p | removeMember p | setCueAccept p
  | bindStation p =>
    cases h
    exact takenAs_takeOrder rfl (between_self _ _).symm rfl (fun _ _ => by simp)
  | thawPlan p =>
    cases h
    refine takenAs_takeOrder rfl rfl rfl (fun _ t => ?_)
    split
    · exact doneWith_accepts _ _
    · exact doneReply_accepts _
  | readAttention p =>
    cases h
    refine takenAs_takeOrder rfl ?_ rfl (fun _ _ => doneWith_accepts _ _)
    show _ = (decide (0 ≤ o.params.length) && decide (o.params.length ≤ 1))
    simp
  | unbindStation p =>
    cases h
    refine takenAs_takeOrder rfl (between_self 1 _).symm rfl (fun _ t => ?_)
    split <;> exact doneReply_accepts _
  | cue p =>
    cases h
    refine takenAs_takeOrder rfl (between_self 2 _).symm rfl (fun _ t => ?_)
    split
    · exact adjustedReply_accepts _ _ _
    · exact doneReply_accepts _
  | _ => cases h

/-! ## What the port answers -/

/-- An idle port answers MALFORMED 7 to a count that the order does not take. -/
theorem State.gate_miscounted {s : State} (hp : s.port = .idle) {o : Order} (hl : o.params.length ≤ 16) (a : Nat)
    (d : Option Nat) (reads : RecordId → Bool) (ts : List Check1) (f : State → State) :
    s.gate o a false d reads ts f = s.answered o .malformed 7 [] := by
  simp only [State.gate, hp, Nat.not_lt.2 hl, if_false, Bool.not_false, if_true]
  rfl

/-- An idle port answers NOT IN SERVICE when the service state refuses the order. -/
theorem State.gate_outOfService {s : State} (hp : s.port = .idle) {o : Order} (hl : o.params.length ≤ 16) (a d : Nat)
    (reads : RecordId → Bool) (ts : List Check1) (f : State → State) :
    s.gate o a true (some d) reads ts f = s.answered o .notInService d [] := by
  simp only [State.gate, hp, Nat.not_lt.2 hl, if_false, Bool.not_true, Bool.false_eq_true]
  rfl

/-- On sound records an idle port refuses an order, and nothing but the port changes, or accepts it. -/
theorem State.gate_cases {s : State} (hp : s.port = .idle) (hb : s.badCodes = []) (o : Order) (a : Nat) (c : Bool)
    (d : Option Nat) (reads : RecordId → Bool) (ts : List Check1) (f : State → State) :
    (∃ r : Refuse, s.gate o a c d reads ts f = s.answered o r.status r.detail r.words) ∨
      s.gate o a c d reads ts f = f ((s.clockZeros (9 + 2 * o.params.length)).process o) := by
  have refusal : ∀ r : Refuse, (s.clockZeros (9 + 2 * o.params.length)).refuse o r =
      s.answered o r.status r.detail r.words := fun _ => rfl
  have hs : ((s.clockZeros (9 + 2 * o.params.length)).process o).badCodes = [] := hb
  simp only [State.gate, hp, State.reading_sound hs]
  split
  · exact .inl ⟨_, refusal _⟩
  · split
    · exact .inl ⟨_, refusal _⟩
    · split
      · exact .inl ⟨_, refusal _⟩
      · split
        · next r _ => exact .inl ⟨r, rfl⟩
        · exact .inr rfl

/-- The service state refuses every order command but READ PART, and RESTART but in Halted. -/
theorem serviceRefusal_some {c : Instr} {o : Order} {s : State} (hc : orderIn c = some o) (hr : c ≠ .readPart o)
    (h : c ≠ .restart o ∨ s.service ≠ .halted) : serviceRefusal c s = s.serviceDetail := by
  cases c with
  | readPart p =>
    cases hc
    exact absurd rfl hr
  | restart p =>
    cases hc
    have hs := h.resolve_left (fun hn => hn rfl)
    simp only [serviceRefusal, State.restartDetail, State.serviceDetail]
    cases he : s.service with
    | halted => exact absurd he hs
    | _ => rfl
  | _ => rfl

end Sys2Proof.Machine

namespace Sys2Proof
open Machine

/-- Settles O8: the order is one taking of the gate, whose count and service tests come first. -/
theorem outOfServiceRefusesOrder : Obligations.OutOfServiceRefusesOrder := by
  intro c o s hc hl hp
  obtain ⟨activity, reads, tests, accept, he, _⟩ := takenAs_order hc s
  refine ⟨fun ht => ?_, fun ht hr => ?_⟩
  · rw [he, ht, State.gate_miscounted hp hl]
  · rw [ht] at he
    have refused : ∀ d, s.serviceDetail = some d → (c ≠ .restart o ∨ s.service ≠ .halted) →
        exec c s = .next (s.answered o .notInService d []) := by
      intro d hd h
      rw [he, serviceRefusal_some hc hr h, hd, State.gate_outOfService hp hl]
    refine ⟨fun h => refused 1 ?_ (.inr ?_), fun h => refused 2 ?_ (.inr ?_), fun h hn => refused 3 ?_ (.inl hn)⟩
    all_goals simp [State.serviceDetail, h]

/-- Settles O9: what the gate refuses changes the port alone, and what it accepts is not refused. -/
theorem refusalChangesNothing : Obligations.RefusalChangesNothing := by
  intro c o s t a hc ha hp hb he hport hcode
  obtain ⟨activity, reads, tests, accept, hgate, haccept⟩ := takenAs_order hc s
  rw [he] at hgate
  injection hgate with ht
  rcases State.gate_cases hp hb o activity _ _ reads tests accept with ⟨r, h⟩ | h
  · rw [h] at ht
    subst ht
    cases hport
    rfl
  · rw [h] at ht
    subst ht
    have := haccept ha ((s.clockZeros (9 + 2 * o.params.length)).process o) hb rfl a hport
    omega

/-- Settles O12: a read shifts out the pending frame, and a busy port discards a write, an order's own included. -/
theorem readsAndOverruns : Obligations.ReadsAndOverruns := by
  refine ⟨fun n a s hn hp => ?_, fun n s hn hp => ?_, fun bs s hw hp => ?_, fun c o s hc hp => ?_⟩
  · simp only [exec, execAnswerRead, State.readAnswer, hp, State.pendingFrame, readBytes, show n ≠ 0 by omega, if_false]
    split <;> rfl
  · have idle : s.pendingFrame = [] ∧ s.readAnswer n = { s with miso := readBytes s.pendingFrame n } := by
      simp only [State.readAnswer, State.pendingFrame, show n ≠ 0 by omega, if_false]
      cases h : s.port with
      | pending a => exact absurd h (hp a)
      | _ => exact ⟨rfl, rfl⟩
    have zeros : readBytes [] n = List.replicate n 0#8 := by
      simp [readBytes, ← List.replicate_succ, List.take_replicate]
    simp only [exec, execAnswerRead, idle.2, idle.1, zeros]
  · have write : isWrite bs = true := by
      cases bs with
      | nil => cases hw
      | cons b rest =>
        simp only [writeWf, List.isEmpty_cons, Bool.not_false, List.head?_cons, Bool.true_and, bne_iff_ne, ne_eq,
          Option.some.injEq] at hw
        simpa [isWrite, readCommand] using hw
    have busy : s.portIdle = false := by
      cases h : s.port with
      | idle => exact absurd h hp
      | _ => simp [State.portIdle, h]
    simp only [exec, execOverrun, write, busy]
    rfl
  · obtain ⟨activity, reads, tests, accept, he, _⟩ := takenAs_order hc s
    rw [he, State.gate_busy hp]
    rfl

end Sys2Proof
end

section
/-! Order frames: the bytes of an order's frame, read back, and the form tests of R162. -/

namespace Sys2Proof.Machine

/-! ## The frame of an order -/

theorem selector_bounds (t : TableId) : 1 ≤ t.selector ∧ t.selector ≤ 8 := by cases t <;> decide

/-- The bytes of an order's frame, its header apart. -/
theorem frameOfOrder_eq (o : Order) (t : TableId) (v : Nat) : ∃ check : Byte, frameOfOrder o t v =
    0xC5#8 :: BitVec.ofNat 8 o.operator.val :: BitVec.ofNat 8 t.selector :: BitVec.ofNat 8 v :: highByte o.key ::
      lowByte o.key :: BitVec.ofNat 8 (orderFlags o) :: BitVec.ofNat 8 o.params.length ::
      (bytesOfWords o.params ++ [check]) :=
  ⟨_, rfl⟩

theorem orderFlags_bits (o : Order) : orderFlags o < 8 ∧ (orderFlags o % 2 = 1 ↔ o.force = true) ∧
    (orderFlags o / 2 % 2 = 1 ↔ o.steal = true) ∧ (orderFlags o / 4 % 2 = 1 ↔ o.clear = true) := by
  unfold orderFlags
  cases o.force <;> cases o.steal <;> cases o.clear <;> decide

theorem wordOf_bytes (w : Word) : wordOf ((highByte w).toNat * 256 + (lowByte w).toNat) = w := by
  have h := wordsOfBytes_bytesOfWords [w]
  exact List.singleton_injective h

/-- The frame of an order passes the form tests before the verb. -/
theorem formFails_frameOfOrder {o : Order} (h : o.params.length ≤ 16) (t : TableId) (v : Nat) :
    formFails (frameOfOrder o t v) = none := by
  obtain ⟨check, hf⟩ := frameOfOrder_eq o t v
  have sum : byteSum (frameOfOrder o t v) = 0#8 := byteSum_close _
  have length := length_bytesOfWords o.params
  have op := o.operator.isLt
  have sel := selector_bounds t
  rw [hf] at sum ⊢
  unfold formFails
  rw [if_neg (by simp [byteAt]), if_neg (by simp [byteAt, length]; omega), if_neg (by simp [sum]),
    if_neg (by simp [byteAt]; omega), if_neg (by simp [byteAt]; omega)]

/-- The order of an order's frame is the order. -/
theorem orderOfFrame_frameOfOrder {o : Order} (h : o.params.length ≤ 16) (t : TableId) (v : Nat) :
    orderOfFrame (frameOfOrder o t v) = o := by
  obtain ⟨check, hf⟩ := frameOfOrder_eq o t v
  obtain ⟨flags, force, steal, clear⟩ := orderFlags_bits o
  have op := o.operator.isLt
  have flagByte : (BitVec.ofNat 8 (orderFlags o)).toNat = orderFlags o := by rw [BitVec.toNat_ofNat]; omega
  have opByte : (BitVec.ofNat 8 o.operator.val).toNat = o.operator.val := by rw [BitVec.toNat_ofNat]; omega
  have countByte : (BitVec.ofNat 8 o.params.length).toNat = o.params.length := by rw [BitVec.toNat_ofNat]; omega
  have take : (bytesOfWords o.params ++ [check]).take (2 * o.params.length) = bytesOfWords o.params := by
    rw [← length_bytesOfWords]; exact List.take_left
  rw [hf, show o = ⟨o.operator, o.key, o.force, o.steal, o.clear, o.params⟩ from rfl]
  unfold orderOfFrame
  congr 1
  · exact Fin.ext (by simp [byteAt, Fin.ofNat, opByte, Nat.mod_eq_of_lt op])
  · simpa [frameKey, byteAt] using wordOf_bytes o.key
  · simpa [byteAt, flagByte] using Bool.eq_iff_iff.2 (by simpa using force)
  · simpa [byteAt, flagByte] using Bool.eq_iff_iff.2 (by simpa using steal)
  · simpa [byteAt, flagByte] using Bool.eq_iff_iff.2 (by simpa using clear)
  · simp only [byteAt, List.drop_succ_cons, List.drop_zero, List.getD_cons_succ, List.getD_cons_zero, countByte]
    rw [take, wordsOfBytes_bytesOfWords]

/-! ## What a frame runs -/

/-- The effect of an order command, as the frame's table and verb name it. -/
theorem orderEffect_of_orderIn {c : Instr} {o : Order} (h : orderIn c = some o) (s : State) :
    ∃ f, orderEffect (storeAnswers c) (orderVerb c).1.selector (orderVerb c).2 = some f ∧ exec c s = .next (f s o) := by
  cases c with
  | read t p =>
    simp only [orderIn, Option.ite_none_right_eq_some, Option.some.injEq] at h
    obtain ⟨ht, rfl⟩ := h
    cases t with
    | conference => cases ht
    | part => cases ht
    | _ => exact ⟨_, rfl, rfl⟩
  | claim t p | release t p =>
    simp only [orderIn, Option.ite_none_right_eq_some, Option.some.injEq] at h
    obtain ⟨ht, rfl⟩ := h
    cases t with
    | operator => cases ht
    | unit => cases ht
    | part => cases ht
    | _ => exact ⟨_, rfl, rfl⟩
  | nextMarked t p =>
    simp only [orderIn, Option.ite_none_right_eq_some, Option.some.injEq] at h
    obtain ⟨ht, rfl⟩ := h
    cases t with
    | operator => cases ht
    | part => cases ht
    | _ => exact ⟨_, rfl, rfl⟩
  | savePlan p ack | storeRead p ack | storeWrite p ack =>
    cases h
    exact ⟨_, rfl, rfl⟩
  | _ =>
    cases h <;> exact ⟨_, rfl, rfl⟩

/-- The command of an order, by its table's selector and its verb. -/
def commandAt (acknowledged : Bool) (o : Order) (table verb : Nat) : Option Instr :=
  match table, verb with
  | 1, 1 => some (.defineWindow o)
  | 1, 2 => some (.editWindow o)
  | 1, 3 => some (.retireWindow o)
  | 1, 4 => some (.read .window o)
  | 1, 5 => some (.claim .window o)
  | 1, 6 => some (.release .window o)
  | 1, 7 => some (.nextMarked .window o)
  | 2, 1 => some (.defineCarrier o)
  | 2, 2 => some (.editCarrier o)
  | 2, 3 => some (.retireCarrier o)
  | 2, 4 => some (.read .carrier o)
  | 2, 5 => some (.claim .carrier o)
  | 2, 6 => some (.release .carrier o)
  | 2, 7 => some (.nextMarked .carrier o)
  | 2, 16 => some (.checkCarrier o)
  | 2, 17 => some (.cancelCheck o)
  | 2, 18 => some (.blockCarrier o)
  | 2, 19 => some (.unblockCarrier o)
  | 3, 1 => some (.defineStation o)
  | 3, 2 => some (.editStation o)
  | 3, 3 => some (.retireStation o)
  | 3, 4 => some (.read .station o)
  | 3, 5 => some (.claim .station o)
  | 3, 6 => some (.release .station o)
  | 3, 7 => some (.nextMarked .station o)
  | 3, 16 => some (.bindStation o)
  | 3, 17 => some (.unbindStation o)
  | 3, 18 => some (.goLive o)
  | 3, 19 => some (.park o)
  | 3, 20 => some (.swap o)
  | 3, 21 => some (.callStation o)
  | 3, 22 => some (.clearCall o)
  | 3, 23 => some (.setCueAccept o)
  | 3, 24 => some (.cue o)
  | 3, 25 => some (.clearCues o)
  | 4, 1 => some (.defineGallery o)
  | 4, 2 => some (.editGallery o)
  | 4, 3 => some (.retireGallery o)
  | 4, 4 => some (.read .gallery o)
  | 4, 5 => some (.claim .gallery o)
  | 4, 6 => some (.release .gallery o)
  | 4, 7 => some (.nextMarked .gallery o)
  | 5, 1 => some (.defineConference o)
  | 5, 2 => some (.editConference o)
  | 5, 3 => some (.retireConference o)
  | 5, 4 => some (.readConference o)
  | 5, 5 => some (.claim .conference o)
  | 5, 6 => some (.release .conference o)
  | 5, 7 => some (.nextMarked .conference o)
  | 5, 16 => some (.addMember o)
  | 5, 17 => some (.removeMember o)
  | 6, 1 => some (.defineOperator o)
  | 6, 2 => some (.editOperator o)
  | 6, 3 => some (.retireOperator o)
  | 6, 4 => some (.read .operator o)
  | 6, 16 => some (.releaseAll o)
  | 7, 4 => some (.read .unit o)
  | 7, 7 => some (.nextMarked .unit o)
  | 7, 16 => some (.forgetUnit o)
  | 7, 17 => some (.lineReset o)
  | 8, 4 => some (.readPart o)
  | 8, 16 => some (.setClock o)
  | 8, 17 => some (.setCoordination o)
  | 8, 18 => some (.setLink o)
  | 8, 19 => some (.setCue o)
  | 8, 20 => some (.freezePlan o)
  | 8, 21 => some (.thawPlan o)
  | 8, 22 => some (.setMatrixUnit o)
  | 8, 23 => some (.readAttention o)
  | 8, 24 => some (.savePlan o acknowledged)
  | 8, 25 => some (.reloadPlan o)
  | 8, 26 => some (.restart o)
  | 8, 27 => some (.storeRead o acknowledged)
  | 8, 28 => some (.storeWrite o acknowledged)
  | _, _ => none

/-- What a frame's table and verb name is the order command's own effect. -/
theorem commandAt_of_orderEffect {ack : Bool} {t v : Nat} {f : State → Order → State}
    (h : orderEffect ack t v = some f) (o : Order) :
    ∃ c, commandAt ack o t v = some c ∧ orderIn c = some o ∧ (orderVerb c).1.selector = t ∧ (orderVerb c).2 = v ∧
      ∀ s, exec c s = .next (f s o) := by
  unfold orderEffect at h
  split at h <;> cases h <;> exact ⟨_, rfl, rfl, rfl, rfl, fun _ => rfl⟩

/-- The verbs that a table takes are those that the order index gives it. -/
theorem orderEffect_isSome_iff (ack : Bool) (t v : Nat) : (orderEffect ack t v).isSome = true ↔ v ∈ verbsOf t := by
  constructor
  · intro h
    obtain ⟨f, hf⟩ := Option.isSome_iff_exists.1 h
    unfold orderEffect at hf
    split at hf <;> cases hf <;> simp [verbsOf]
  · intro h
    unfold verbsOf at h
    split at h <;> fin_cases h <;> rfl

/-- A verb that a table takes is a byte. -/
theorem orderVerb_byte (c : Instr) : (orderVerb c).2 < 256 := by
  cases c <;> simp [orderVerb]

/-- The frame of an order on an idle port runs what its table and verb name. -/
theorem exec_frameOfOrder {s : State} (hp : s.port = .idle) {o : Order} (hl : o.params.length ≤ 16) {t : TableId} {v : Nat}
    (hv : v < 256) {ack : Bool} {f : State → Order → State} (hf : orderEffect ack t.selector v = some f) :
    exec (.orderFrame (frameOfOrder o t v) ack) s = .next (f s o) := by
  have table : byteAt (frameOfOrder o t v) 2 = t.selector := by
    have := selector_bounds t
    obtain ⟨check, h⟩ := frameOfOrder_eq o t v
    rw [h]
    simp [byteAt]
    omega
  have verb : byteAt (frameOfOrder o t v) 3 = v := by
    obtain ⟨check, h⟩ := frameOfOrder_eq o t v
    rw [h]
    simp [byteAt]
    omega
  have offered : s.offer (frameOfOrder o t v) ack = f s o := by
    simp only [State.offer, formFails_frameOfOrder hl, table, verb, hf, orderOfFrame_frameOfOrder hl]
  have idle : s.portIdle = true := by simp [State.portIdle, hp]
  obtain ⟨check, h⟩ := frameOfOrder_eq o t v
  rw [← offered, h]
  simp [exec, execOrderFrame, State.transaction, readCommand, idle]

/-! ## The form tests -/

theorem length_wordsOfBytes : ∀ bs : List Byte, (wordsOfBytes bs).length = bs.length / 2
  | [] => rfl
  | [_] => by simp [wordsOfBytes]
  | _ :: _ :: rest => by
    rw [wordsOfBytes, List.length_cons, length_wordsOfBytes rest, List.length_cons, List.length_cons]
    omega

/-- A frame that is offered to an idle port. -/
theorem exec_offered {bs : List Byte} {s : State} (hw : writeWf bs = true) (hp : s.port = .idle) (ack : Bool) :
    exec (.orderFrame bs ack) s = .next (s.offer bs ack) := by
  have idle : s.portIdle = true := by simp [State.portIdle, hp]
  cases bs with
  | nil => cases hw
  | cons b rest =>
    simp only [writeWf, List.isEmpty_cons, Bool.not_false, List.head?_cons, Bool.true_and, bne_iff_ne, ne_eq,
      Option.some.injEq] at hw
    simp [exec, execOrderFrame, State.transaction, readCommand, hw, idle]

/-- A frame that fails a form test before the verb is MALFORMED with the test's detail. -/
theorem exec_misformed {bs : List Byte} {s : State} (hw : writeWf bs = true) (hp : s.port = .idle) (ack : Bool) {d : Nat}
    (h : formFails bs = some d) : exec (.orderFrame bs ack) s = .next (s.malformed bs d) := by
  rw [exec_offered hw hp, State.offer, h]

/-- A frame whose table does not take its verb. -/
theorem exec_misverbed {bs : List Byte} {s : State} (hw : writeWf bs = true) (hp : s.port = .idle) (ack : Bool)
    (h : formFails bs = none) (hv : byteAt bs 3 ∉ verbsOf (byteAt bs 2)) :
    exec (.orderFrame bs ack) s = .next (s.malformed bs 6) := by
  have e : orderEffect ack (byteAt bs 2) (byteAt bs 3) = none := by
    rwa [← orderEffect_isSome_iff ack, Bool.not_eq_true, Option.isSome_eq_false_iff, Option.isNone_iff_eq_none] at hv
  rw [exec_offered hw hp, State.offer, h]
  simp only [e]

/-- A frame whose count of words its verb does not take. -/
theorem exec_miscounted {bs : List Byte} {s : State} (hw : writeWf bs = true) (hp : s.port = .idle) (ack : Bool)
    (h : formFails bs = none) (hv : byteAt bs 3 ∈ verbsOf (byteAt bs 2)) (hl : bs.length = 9 + 2 * byteAt bs 7)
    (h16 : byteAt bs 7 ≤ 16) (hc : countTakes (byteAt bs 2) (byteAt bs 3) (byteAt bs 7) = false) :
    exec (.orderFrame bs ack) s = .next (s.malformed bs 7) := by
  have params : (orderOfFrame bs).params.length = byteAt bs 7 := by
    simp only [orderOfFrame, length_wordsOfBytes, List.length_take, List.length_drop]
    omega
  obtain ⟨f, hf⟩ := Option.isSome_iff_exists.1 ((orderEffect_isSome_iff ack _ _).2 hv)
  obtain ⟨c, -, hin, ht, hv, he⟩ := commandAt_of_orderEffect hf (orderOfFrame bs)
  obtain ⟨activity, reads, tests, accept, hg, _⟩ := takenAs_order hin s
  rw [ht, hv, params, hc, State.gate_miscounted hp (by omega)] at hg
  rw [exec_offered hw hp, State.offer, h]
  simp only [hf]
  rw [← he s, hg, State.answered, params, ← hl]
  rfl

end Sys2Proof.Machine

namespace Sys2Proof
open Machine

/-- Settles O10: the bytes of an order's frame name the order's own effect and give back its operands. -/
theorem frameRunsItsOrder : Obligations.FrameRunsItsOrder := by
  refine ⟨fun c o s hc hw hp => ?_, fun o ack s ht hparams hr hfree => ?_⟩
  · obtain ⟨f, hf, he⟩ := orderEffect_of_orderIn hc s
    have run := exec_frameOfOrder hp (of_decide_eq_true hw) (orderVerb_byte c) hf
    exact ⟨run.trans he.symm, _, run⟩
  · have none_other : otherHolder o (some s.freezeHolder) = none := by
      rcases hfree with h | h <;> simp [otherHolder, h]
    rw [exec_frameOfOrder (f := State.freezePlan) ht.2.1 (by simp [hparams]) (by decide) rfl]
    unfold State.freezePlan
    rw [State.takeOrder_accept ht (by simp [hparams]) (by simp [hparams])
      (passes_cons (State.lacks_fst hr 1) (passes_cons (by simp [none_other]) firstFailing_nil))]
    rfl

/-- Settles O11: the seven form tests of R162, each with those before it passed. -/
theorem malformedFrameIsAnswered : Obligations.MalformedFrameIsAnswered := by
  intro bs ack s hw hp count key answers form
  have head : bs.head? = some 0xC5#8 ↔ byteAt bs 0 = 0xC5 := by
    cases bs with
    | nil => cases hw
    | cons b rest =>
      simp only [List.head?_cons, Option.some.injEq, byteAt, List.getD_cons_zero]
      exact ⟨fun h => by rw [h]; rfl, fun h => BitVec.eq_of_toNat_eq h⟩
  have early : ∀ d, formFails bs = some d → answers d := fun d h => exec_misformed hw hp ack h
  have misshaped : (bs.length < 9 || 16 < byteAt bs 7 || bs.length != 9 + 2 * byteAt bs 7) = true ↔ ¬ form := by
    have : form ↔ bs.length = 9 + 2 * byteAt bs 7 ∧ byteAt bs 7 ≤ 16 := Iff.rfl
    simp only [Bool.or_eq_true, decide_eq_true_eq, bne_iff_ne, this]
    omega
  have passes : bs.head? = some 0xC5#8 → form → byteSum bs = 0#8 → byteAt bs 1 ≤ 7 → 1 ≤ byteAt bs 2 → byteAt bs 2 ≤ 8 →
      formFails bs = none := by
    intro h hf hs h1 h2 h3
    unfold formFails
    rw [if_neg (by simp [head.1 h]), if_neg (fun hm => misshaped.1 hm hf), if_neg (by simp [hs]), if_neg (by omega),
      if_neg (by simp; omega)]
  refine ⟨fun h => early 1 ?_, fun h hf => early 2 ?_, fun h hf hs => early 3 ?_, fun h hf hs h1 => early 4 ?_,
    fun h hf hs h1 h2 => early 5 ?_, fun h hf hs h1 h2 h3 hv => ?_, fun h hf hs h1 h2 h3 hv hc => ?_⟩
  · unfold formFails
    rw [if_pos (by simpa using fun h0 => h (head.2 h0))]
  · unfold formFails
    rw [if_neg (by simp [head.1 h]), if_pos (misshaped.2 hf)]
  · unfold formFails
    rw [if_neg (by simp [head.1 h]), if_neg (fun hm => misshaped.1 hm hf), if_pos (by simp [hs])]
  · unfold formFails
    rw [if_neg (by simp [head.1 h]), if_neg (fun hm => misshaped.1 hm hf), if_neg (by simp [hs]),
      if_pos (show 7 < byteAt bs 1 from h1)]
  · unfold formFails
    rw [if_neg (by simp [head.1 h]), if_neg (fun hm => misshaped.1 hm hf), if_neg (by simp [hs]),
      if_neg (show ¬ 7 < byteAt bs 1 from Nat.not_lt.2 h1), if_pos (by simpa [byteAt] using h2)]
  · exact exec_misverbed hw hp ack (passes h hf hs h1 h2 h3) hv
  · exact exec_miscounted hw hp ack (passes h hf hs h1 h2 h3) hv hf.1 hf.2 hc

end Sys2Proof
end

section
/-! The orders on windows (R12 to R16), each whole: the tests that pass and the state that the order leaves. -/

namespace Sys2Proof.Machine

/-! ## The state in which an order takes effect -/

/-- The order is being processed, its bytes clocked in (R159, R160): the state on which its effect is taken. -/
@[reducible] def State.begun (s : State) (o : Order) : State := (s.clockZeros (9 + 2 * o.params.length)).process o

theorem Table.slot_isSome_of_get {α : Type} {t : Table α} {k : Nat} {r : α} (h : t.get k = some r) :
    (t.slot k).isSome = true := by
  unfold Table.get at h
  cases hs : t.slot k with
  | none => rw [hs] at h; cases h
  | some x => rfl

/-- An order whose tests pass takes its effect, and is answered with its reply. -/
theorem State.takeOrder_takes {s : State} (h : s.takes) {o : Order} (hl : o.params.length ≤ 16) {c : Bool} (hc : c = true)
    {ts : List Check1} (ht : firstFailing ts = none) {a : Nat} {reads : RecordId → Bool} {f : State → State × Reply}
    {u : State} {r : Reply} (hu : (f (s.begun o)).1 = u) (hr : (f (s.begun o)).2 = r) :
    s.takeOrder o a c reads ts f = u.answer r := by
  rw [State.takeOrder_accept h hl hc ht, ← hu, ← hr]

/-! ## Tests of windows -/

theorem legalGrace_ne (n : Nat) : (legalGrace n != n) = (n % 5 != 0) := by
  rw [Bool.eq_iff_iff]
  simp only [legalGrace, bne_iff_ne]
  omega

theorem passes_windowRange {ps : List (Nat × Word)} {ws : List Word} (hf : badField (fieldIndex 19) ps = false)
    (hr : windowRangeBad ws = false) (hl : labelBad ws = false) (he : edgesBad ws = false) :
    firstFailing (windowRange ps ws) = none := by
  simp [windowRange, hf, hr, hl, he]

/-! ## Evaluation of the window that an order is aimed at -/

/-- A window is put into its slot. -/
def State.putWindow (s : State) (k : Nat) (w : Window) : State := { s with windows := s.windows.put k w }

@[simp] theorem State.putWindow_window (s : State) (k : Nat) (w : Window) : (s.putWindow k w).window k = some w :=
  Table.get_put_self _ _ _

@[simp] theorem State.putWindow_clock (s : State) (k : Nat) (w : Window) : (s.putWindow k w).clock = s.clock := rfl

@[simp] theorem State.putWindow_modWindow (s : State) (k : Nat) (w : Window) (f : Window → Window) :
    (s.putWindow k w).modWindow k f = s.putWindow k (f w) := by
  simp only [State.modWindow, State.putWindow, Table.modify_of_get (Table.get_put_self s.windows k w), Table.put_put]

/-- The answer of an order that puts a window into its slot. -/
theorem State.putWindow_answer (s : State) (o : Order) (k : Nat) (w : Window) (b : Bool) (d : Nat) :
    ((s.begun o).windowChanged.putWindow k w).answer (adjustedReply o b d) =
      ({ s with
        windows := s.windows.put k w
        storeStates := { s.storeStates with window := true } } : State).doneOrAdjusted o b d := by
  cases b <;> simp [State.answer, State.putWindow, State.windowChanged, State.clockZeros, State.process, adjustedReply,
    doneReply, State.doneOrAdjusted, State.answered]

/-- What the evaluation makes of a window that an order is aimed at and that does not close: no mark (R5, R11). -/
def Window.reopened (w : Window) (c : Clock) : Window :=
  if w.shouldBeOpen c then { w with state := .opened, grace := if w.state = .closing then none else w.grace } else w

/-- A Closed window opens when it should be open. -/
theorem Window.reopened_closed {w : Window} (h : w.state = .closed) (c : Clock) :
    w.reopened c = { w with state := if w.shouldBeOpen c then .opened else .closed } := by
  unfold Window.reopened
  cases hs : w.shouldBeOpen c <;> simp [h]
  rw [← h]

theorem Window.opened_of_state {w : Window} (h : w.state = .opened) : { w with state := .opened } = w := by
  rw [← h]

/-- An order's window that does not close is evaluated without a notice. -/
theorem State.evaluate_ordered (s : State) (k : Nat) {w : Window}
    (h : w.state ≠ .opened ∨ w.shouldBeOpen s.clock = true) :
    (s.putWindow k w).evaluate true [k] = s.putWindow k (w.reopened s.clock) := by
  have stays : (decide (w.state = .opened) && !w.shouldBeOpen s.clock) = false := by
    rcases h with h | h <;> simp [h]
  have evaluated : (s.putWindow k w).evaluateState true k = s.putWindow k (w.reopened s.clock) := by
    simp only [State.evaluateState, State.putWindow_window, State.putWindow_clock, State.putWindow_modWindow, if_true]
    cases hst : w.state with
    | closed => cases ho : w.shouldBeOpen s.clock <;> simp [Window.reopened, hst, ho]
    | closing => cases ho : w.shouldBeOpen s.clock <;> simp [Window.reopened, hst, ho]
    | opened =>
      have ho : w.shouldBeOpen s.clock = true := h.resolve_left (fun hn => hn hst)
      simp only [Window.reopened, hst, ho, if_true, reduceCtorEq, if_false, Window.opened_of_state hst]
  simp [State.evaluate, stays, State.forEach, evaluated]

end Sys2Proof.Machine

namespace Sys2Proof
open Machine

/-- Settles O13. -/
theorem defineAndRetireWindow : Obligations.DefineAndRetireWindow := by
  refine ⟨fun o s => ?_, fun o s ha h1 h16 hp hfree => ?_⟩
  · intro words w ha h1 h16 hn hc hf hr hl he
    obtain ⟨ht, hright, hplan⟩ := ha
    have tests : firstFailing ([s.lacks o .plan 1, failIf (!windowKey (keyOf o)) .key 1,
        failIf (s.window (keyOf o)).isSome .key 2, s.freezeHold o, s.saveHold] ++
        windowRange (pairsOf o.params) words) = none :=
      passes_append (passes_cons (State.lacks_fst hright 1) (passes_cons (by simp [windowKey, h1, h16])
        (passes_cons (by simp [hn]) (State.passes_holds hplan)))) (passes_windowRange hf hr hl he)
    have evaluated := State.evaluate_ordered (s.begun o).windowChanged (keyOf o) (w := w) (.inl nofun)
    rw [Window.reopened_closed rfl] at evaluated
    refine congrArg Host.Outcome.next ((State.takeOrder_takes ht (evenCount_le hc) hc tests evaluated rfl).trans ?_)
    rw [graceRounded, legalGrace_ne]
    exact s.putWindow_answer o (keyOf o) _ _ 1
  · obtain ⟨ht, hright, hplan⟩ := ha
    have named : (s.windows.slot (keyOf o)).isSome = true ∧ claimFree o ((s.window (keyOf o)).bind Window.claim) ∧
        ((s.window (keyOf o)).isSome && s.windowNamed (keyOf o)) = false := by
      rcases hfree with ⟨w, hw, hc, hn⟩ | ⟨m, hm⟩
      · refine ⟨Table.slot_isSome_of_get hw, by simpa [hw] using hc, ?_⟩
        simp only [hw, Option.isSome_some, Bool.true_and, State.windowNamed, List.any_eq_false, decide_eq_true_eq]
        exact hn
      · have hw : s.window (keyOf o) = none := by simp [State.window, Table.get, hm]
        simp [hm, hw, claimFree]
    obtain ⟨slot, claim, unnamed⟩ := named
    have key : (!windowKey (keyOf o) || (s.windows.slot (keyOf o)).isNone) = false := by
      simp [windowKey, h1, h16, slot]
    exact congrArg Host.Outcome.next (State.takeOrder_takes ht (by simp [hp]) (by simp [hp])
      (passes_cons (State.lacks_fst hright 1) (passes_cons key (passes_cons (claimHold_fst claim)
        (passes_append (State.passes_holds hplan) (passes_cons unnamed firstFailing_nil))))) rfl rfl)

end Sys2Proof
end

section
/-! Claims, the plan freeze and the operator orders (R129 to R139). -/

namespace Sys2Proof.Machine

/-! ## Refusals -/

/-- An order whose first failing test is known is answered with its refusal. -/
theorem State.takeOrder_refuses {s : State} (h : s.takes) {o : Order} (hl : o.params.length ≤ 16) {c : Bool} (hc : c = true)
    {ts : List Check1} {st : Status} {d : Nat} {ws : List Word} (ht : firstFailing ts = some ⟨st, d, ws⟩) {a : Nat}
    {reads : RecordId → Bool} {f : State → State × Reply} :
    s.takeOrder o a c reads ts f = s.answered o st d ws :=
  State.takeOrder_refuse h hl hc ht a reads f

/-- An order without parameter words that the part takes. -/
theorem length_of_noParams {o : Order} (h : o.params = []) : o.params.length ≤ 16 := by simp [h]

/-- The answer to an order whose effect changed nothing. -/
@[simp] theorem State.begun_answer (s : State) (o : Order) (st : Status) (d : Nat) (ws : List Word) :
    (s.begun o).answer ⟨st, d, o.key, ws⟩ = s.answered o st d ws := rfl

/-! ## The claim of a record -/

theorem State.setClaim_eq (s : State) (table : TableId) (k : Nat) (c : Option Nat) :
    s.setClaim table k c = s.reclaimed table k c false := by
  cases table <;> rfl

/-- A claim that another operator loses is marked Claim Lost. -/
theorem State.setClaim_markClaimLost (s : State) (table : TableId) (k : Nat) (c : Option Nat) :
    (s.setClaim table k c).markClaimLost table k = s.reclaimed table k c true := by
  cases table with
  | window => exact congrArg (fun t => { s with windows := t }) (Table.modify_modify s.windows k _ _)
  | carrier => exact congrArg (fun t => { s with carriers := t }) (Table.modify_modify s.carriers k _ _)
  | station => exact congrArg (fun t => { s with stations := t }) (Table.modify_modify s.stations k _ _)
  | gallery => exact congrArg (fun t => { s with galleries := t }) (Table.modify_modify s.galleries k _ _)
  | conference => exact congrArg (fun t => { s with conferences := t }) (Table.modify_modify s.conferences k _ _)
  | operator => rfl
  | unit => rfl
  | part => rfl

/-- A change of a claim, and its answer. -/
theorem State.reclaimed_answer (s : State) (o : Order) (table : TableId) (k : Nat) (c : Option Nat) (lost : Bool)
    (st : Status) (d : Nat) (ws : List Word) :
    ((s.begun o).reclaimed table k c lost).answer ⟨st, d, o.key, ws⟩ = (s.reclaimed table k c lost).answered o st d ws := by
  cases table <;> rfl

theorem hasClaims_eq (table : TableId) : hasClaims table = table.claimable := by cases table <;> rfl

/-- The caller's own claim, or none, is no other operator's. -/
theorem otherHolder_free {o : Order} {claim : Option Nat} (h : claimFree o claim) : otherHolder o (some claim) = none := by
  rcases h with rfl | rfl <;> simp [otherHolder]

theorem otherHolder_other {o : Order} {h : Nat} (hh : h ≠ o.operator.val) : otherHolder o (some (some h)) = some h := by
  simp [otherHolder, hh]

/-! ## CLAIM -/

/-- The tests of a CLAIM. -/
def State.claimTests (s : State) (table : TableId) (o : Order) : List Check1 :=
  let other := otherHolder o (s.claimAt table (keyOf o))
  [s.lacks o (changeRight table).1 (changeRight table).2,
    (if table = .carrier then s.carrierMask o (keyOf o) else failIf false .notPermitted 3),
    failIf (s.claimAt table (keyOf o)).isNone .key 1,
    (other.isSome && !s.steals o, ⟨.held, 1, [wordOf (other.getD 0)]⟩)]

theorem State.maskRefuses_of_permits {s : State} {o : Order} {w : Option Nat} (h : s.maskPermits o w) :
    s.maskRefuses o w = false := by
  cases w with
  | none => rfl
  | some n => simp [State.maskRefuses, h n rfl]

/-- The window mask of a carrier's window passes. -/
theorem State.carrierMask_fst {s : State} {o : Order} {c : Nat}
    (h : ∀ y, s.carrier c = some y → s.maskPermits o y.window) : (s.carrierMask o c).1 = false := by
  unfold State.carrierMask
  cases hc : s.carrier c with
  | none => rfl
  | some y => exact State.maskRefuses_of_permits (h y hc)

/-- With the right and the mask, the tests of a CLAIM are those of the record and of its holder. -/
theorem State.firstFailing_claimTests {s : State} {table : TableId} {o : Order} (hr : s.holdsRight o (changeRight table).1)
    (hm : table = .carrier → ∀ y, s.carrier (keyOf o) = some y → s.maskPermits o y.window) :
    firstFailing (s.claimTests table o) = firstFailing ((s.claimTests table o).drop 2) := by
  have mask : (if table = .carrier then s.carrierMask o (keyOf o) else failIf false .notPermitted 3).1 = false := by
    split
    · next h => exact State.carrierMask_fst (hm h)
    · rfl
  simp only [State.claimTests, firstFailing_cons, State.lacks_fst hr, mask, Bool.false_eq_true, if_false, List.drop_succ_cons,
    List.drop_zero]

theorem exec_claim {table : TableId} (h : table.claimable = true) (o : Order) (s : State) :
    exec (.claim table o) s = .next (s.takeOrder o (Activity.order table 5) (o.params.length = 0)
      (fun r => r = ⟨.operator, o.operator.val⟩ || r = ⟨table, keyOf o⟩) (s.claimTests table o)
      (fun t => match otherHolder o (s.claimAt table (keyOf o)) with
        | some h => ((t.setClaim table (keyOf o) (some o.operator.val)).markClaimLost table (keyOf o), doneWith o [wordOf h])
        | none => (t.setClaim table (keyOf o) (some o.operator.val), doneReply o))) := by
  rw [← hasClaims_eq] at h
  simp only [exec, execClaim, State.claimRecord, h, if_true]
  rfl

/-! ## RELEASE -/

theorem exec_release {table : TableId} (h : table.claimable = true) (o : Order) (s : State) :
    exec (.release table o) s = .next (s.takeOrder o (Activity.order table 6) (o.params.length = 0)
      (fun r => r = ⟨.operator, o.operator.val⟩ || r = ⟨table, keyOf o⟩)
      [failIf ((otherHolder o (s.claimAt table (keyOf o))).isSome && !s.forced o) .notPermitted 9,
        failIf (s.claimAt table (keyOf o)).isNone .key 1,
        failIf ((s.claimAt table (keyOf o)).join).isNone .state 30]
      (fun t => (if (otherHolder o (s.claimAt table (keyOf o))).isSome
        then (t.setClaim table (keyOf o) none).markClaimLost table (keyOf o)
        else t.setClaim table (keyOf o) none, doneReply o))) := by
  rw [← hasClaims_eq] at h
  simp only [exec, execRelease, State.releaseRecord, h, if_true]

/-! ## The freeze -/

theorem State.freezeHolder_answer (s : State) (o : Order) (h : Option Nat) (st : Status) (d : Nat) (ws : List Word) :
    ({ s.begun o with freezeHolder := h } : State).answer ⟨st, d, o.key, ws⟩ =
      ({ s with freezeHolder := h } : State).answered o st d ws := rfl

end Sys2Proof.Machine

namespace Sys2Proof
open Machine

/-- Settles O42. -/
theorem claimOrder : Obligations.ClaimOrder := by
  intro table o s claim ht htakes hp hr hm
  have length := length_of_noParams hp
  have count : decide (o.params.length = 0) = true := by simp [hp]
  have tests := State.firstFailing_claimTests hr hm
  rw [exec_claim ht]
  refine ⟨fun hn => ?_, fun hc hfree => ?_, fun h hh hne => ⟨fun hs => ?_, fun hs => ?_⟩⟩
  · refine congrArg Host.Outcome.next (State.takeOrder_refuses htakes length count (tests.trans ?_))
    simp [State.claimTests, hn]
  · refine congrArg Host.Outcome.next ((State.takeOrder_takes htakes length count (tests.trans ?_)
      (u := (s.begun o).reclaimed table (keyOf o) (some o.operator.val) false) (r := doneReply o) ?_ ?_).trans
      (State.reclaimed_answer ..))
    · simp [State.claimTests, hc, otherHolder_free hfree]
    · simp [hc, otherHolder_free hfree, State.setClaim_eq]
    · simp [hc, otherHolder_free hfree]
  · refine congrArg Host.Outcome.next ((State.takeOrder_takes htakes length count (tests.trans ?_)
      (u := (s.begun o).reclaimed table (keyOf o) (some o.operator.val) true) (r := doneWith o [wordOf h]) ?_ ?_).trans
      (State.reclaimed_answer ..))
    · simp [State.claimTests, hh, hs]
    · simp [hh, otherHolder_other hne, State.setClaim_markClaimLost]
    · simp [hh, otherHolder_other hne]
  · refine congrArg Host.Outcome.next (State.takeOrder_refuses htakes length count (tests.trans ?_))
    simp [State.claimTests, hh, hs, otherHolder_other hne]

/-- Settles O43. -/
theorem releaseOrder : Obligations.ReleaseOrder := by
  intro table o s ht htakes hp
  have length := length_of_noParams hp
  have count : decide (o.params.length = 0) = true := by simp [hp]
  rw [exec_release ht]
  refine ⟨fun hn => ?_, fun hn => ?_, fun hc => ?_, fun h hh hne => ⟨fun hf => ?_, fun hf => ?_⟩⟩
  · refine congrArg Host.Outcome.next (State.takeOrder_refuses htakes length count ?_)
    simp [hn, otherHolder]
  · refine congrArg Host.Outcome.next (State.takeOrder_refuses htakes length count ?_)
    simp [hn, otherHolder_free (.inl rfl)]
  · have free : otherHolder o (some (some o.operator.val)) = none := otherHolder_free (.inr rfl)
    refine congrArg Host.Outcome.next ((State.takeOrder_takes htakes length count ?_
      (u := (s.begun o).reclaimed table (keyOf o) none false) (r := doneReply o) ?_ rfl).trans
      (State.reclaimed_answer ..))
    · simp [hc, free]
    · simp [hc, free, State.setClaim_eq]
  · refine congrArg Host.Outcome.next ((State.takeOrder_takes htakes length count ?_
      (u := (s.begun o).reclaimed table (keyOf o) none true) (r := doneReply o) ?_ rfl).trans
      (State.reclaimed_answer ..))
    · simp [hh, hf]
    · simp [hh, otherHolder_other hne, State.setClaim_markClaimLost]
  · refine congrArg Host.Outcome.next (State.takeOrder_refuses htakes length count ?_)
    simp [hh, hf, otherHolder_other hne]

/-- Settles O44. -/
theorem thawPlan : Obligations.ThawPlan := by
  intro o s htakes hl
  have taken : exec (.thawPlan o) s = .next (s.thawPlan o) := rfl
  refine ⟨fun hp => ?_, fun hp => ⟨fun hr => ?_, fun hr => ⟨fun hn => ?_, fun hn => ?_, fun h hh hne => ⟨fun hf => ?_, fun hf => ?_⟩⟩⟩⟩
  · have count : decide (o.params.length = 0) = false := by simpa using hp
    rw [taken, State.thawPlan, State.takeOrder, State.takeOrderWith, count, State.gate_miscounted htakes.2.1 hl]
  all_goals
    have count : decide (o.params.length = 0) = true := by simp [hp]
  · refine congrArg Host.Outcome.next (State.takeOrder_refuses htakes hl count ?_)
    simp [State.lacks, hr]
  · refine congrArg Host.Outcome.next (State.takeOrder_refuses htakes hl count ?_)
    simp [State.lacks_fst hr, hn, otherHolder]
  · have free : otherHolder o (some (some o.operator.val)) = none := otherHolder_free (.inr rfl)
    refine congrArg Host.Outcome.next ((State.takeOrder_takes htakes hl count ?_
      (u := { s.begun o with freezeHolder := none }) (r := doneReply o) rfl ?_).trans (State.freezeHolder_answer ..))
    · simp [State.lacks_fst hr, hn, free]
    · simp [hn, free]
  · refine congrArg Host.Outcome.next ((State.takeOrder_takes htakes hl count ?_
      (u := { s.begun o with freezeHolder := none }) (r := doneWith o [wordOf h]) rfl ?_).trans
      (State.freezeHolder_answer ..))
    · simp [State.lacks_fst hr, hh, hf]
    · simp [hh, otherHolder_other hne]
  · refine congrArg Host.Outcome.next (State.takeOrder_refuses htakes hl count ?_)
    simp [State.lacks_fst hr, hh, hf, otherHolder_other hne]

end Sys2Proof
end

section
/-! Several records of a table changed at once, and the operator orders (R130, R136, R138). -/

namespace Sys2Proof.Machine

/-! ## Several records of a table -/

/-- Change the records at some keys, in order. -/
def Table.modifyAll {α : Type} (t : Table α) (ks : List Nat) (f : α → α) : Table α := ks.foldl (fun t k => t.modify k f) t

/-- Each of some distinct keys has its record changed once. -/
theorem Table.get_modifyAll {α : Type} (t : Table α) {ks : List Nat} (h : ks.Nodup) (f : α → α) (i : Nat) :
    (t.modifyAll ks f).get i = if i ∈ ks then (t.get i).map f else t.get i := by
  unfold Table.modifyAll
  induction ks generalizing t with
  | nil => simp
  | cons k rest ih =>
    obtain ⟨fresh, distinct⟩ := List.nodup_cons.1 h
    rw [List.foldl_cons, ih (t.modify k f) distinct, Table.get_modify]
    by_cases hi : i = k
    · subst hi
      simp [fresh]
    · simp [hi]

theorem Table.slot_modifyAll {α : Type} (t : Table α) (ks : List Nat) (f : α → α) {i : Nat} (h : i ∉ ks) :
    (t.modifyAll ks f).slot i = t.slot i := by
  unfold Table.modifyAll
  induction ks generalizing t with
  | nil => rfl
  | cons k rest ih =>
    obtain ⟨hk, hrest⟩ := not_or.1 (List.mem_cons.not.1 h)
    rw [List.foldl_cons, ih (t.modify k f) hrest, Table.slot_modify_ne t k f hk]

theorem Table.mem_keys {α : Type} {t : Table α} (h : t.wf) (k : Nat) : k ∈ t.keys ↔ (t.get k).isSome = true := by
  have key : t.keys = t.records.map (·.1) := by
    simp only [Table.keys, Table.records, List.map_filterMap]
    congr 1
    funext p
    obtain ⟨j, x⟩ := p
    cases x <;> rfl
  rw [key, Option.isSome_iff_exists, List.mem_map]
  constructor
  · rintro ⟨⟨j, r⟩, hm, rfl⟩
    exact ⟨r, (Table.mem_records h j r).1 hm⟩
  · rintro ⟨r, hr⟩
    exact ⟨(k, r), (Table.mem_records h k r).2 hr, rfl⟩

theorem Table.keys_nodup {α : Type} {t : Table α} (h : t.wf) : t.keys.Nodup := by
  have rises := (Table.wf_iff t).1 h
  have sub : t.keys.Sublist (t.slots.map (·.1)) := by
    obtain ⟨l⟩ := t
    simp only [Table.keys]
    clear h rises
    induction l with
    | nil => simp
    | cons p rest ih =>
      obtain ⟨j, x⟩ := p
      cases x with
      | damaged m => exact ih.cons _
      | held r => exact ih.cons_cons _
  exact (rises.imp Nat.ne_of_lt).sublist sub

/-- The records that a test of keys picks are changed, and the others are as they were. -/
theorem Table.get_modifyAll_keys {α : Type} {t : Table α} (h : t.wf) {q : Nat → Bool} {p : α → Prop} [DecidablePred p]
    (hq : ∀ k x, t.get k = some x → (q k = true ↔ p x)) (f : α → α) (i : Nat) :
    (t.modifyAll (t.keys.filter q) f).get i = (t.get i).map (fun x => if p x then f x else x) := by
  rw [Table.get_modifyAll t ((Table.keys_nodup h).filter _) f i]
  cases hi : t.get i with
  | none => simp
  | some x =>
    have picked : i ∈ t.keys.filter q ↔ p x := by
      rw [List.mem_filter, Table.mem_keys h, hi, hq i x hi]
      simp
    by_cases hp : p x <;> simp [picked, hp]

/-! ## Several records of the state -/

theorem State.forEach_modWindow (s : State) (ks : List Nat) (f : Window → Window) :
    s.forEach ks (fun s k => s.modWindow k f) = { s with windows := s.windows.modifyAll ks f } := by
  induction ks generalizing s with
  | nil => rfl
  | cons k rest ih => exact ih (s.modWindow k f)

theorem State.forEach_modCarrier (s : State) (ks : List Nat) (f : Carrier → Carrier) :
    s.forEach ks (fun s k => s.modCarrier k f) = { s with carriers := s.carriers.modifyAll ks f } := by
  induction ks generalizing s with
  | nil => rfl
  | cons k rest ih => exact ih (s.modCarrier k f)

theorem State.forEach_modStation (s : State) (ks : List Nat) (f : Station → Station) :
    s.forEach ks (fun s k => s.modStation k f) = { s with stations := s.stations.modifyAll ks f } := by
  induction ks generalizing s with
  | nil => rfl
  | cons k rest ih => exact ih (s.modStation k f)

theorem State.forEach_modGallery (s : State) (ks : List Nat) (f : Gallery → Gallery) :
    s.forEach ks (fun s k => s.modGallery k f) = { s with galleries := s.galleries.modifyAll ks f } := by
  induction ks generalizing s with
  | nil => rfl
  | cons k rest ih => exact ih (s.modGallery k f)

theorem State.forEach_modConference (s : State) (ks : List Nat) (f : Conference → Conference) :
    s.forEach ks (fun s k => s.modConference k f) = { s with conferences := s.conferences.modifyAll ks f } := by
  induction ks generalizing s with
  | nil => rfl
  | cons k rest ih => exact ih (s.modConference k f)

/-! ## RELEASE ALL -/

/-- The claims of some records of a table given up. -/
def State.reclaimedAll (s : State) (table : TableId) (ks : List Nat) (lost : Bool) : State :=
  match table with
  | .window => { s with
    windows := s.windows.modifyAll ks (fun x => { x with claim := none, mark := lostMark lost 5 x.mark }) }
  | .carrier => { s with
    carriers := s.carriers.modifyAll ks (fun x => { x with claim := none, mark := lostMark lost 14 x.mark }) }
  | .station => { s with
    stations := s.stations.modifyAll ks (fun x => { x with claim := none, mark := lostMark lost 24 x.mark }) }
  | .gallery => { s with
    galleries := s.galleries.modifyAll ks (fun x => { x with claim := none, mark := lostMark lost 5 x.mark }) }
  | .conference => { s with
    conferences := s.conferences.modifyAll ks (fun x => { x with claim := none, mark := lostMark lost 8 x.mark }) }
  | .operator | .unit | .part => s

theorem State.forEach_reclaimed (s : State) (table : TableId) (ks : List Nat) (lost : Bool) :
    s.forEach ks (fun s k => s.reclaimed table k none lost) = s.reclaimedAll table ks lost := by
  cases table with
  | window => exact State.forEach_modWindow s ks _
  | carrier => exact State.forEach_modCarrier s ks _
  | station => exact State.forEach_modStation s ks _
  | gallery => exact State.forEach_modGallery s ks _
  | conference => exact State.forEach_modConference s ks _
  | operator => exact List.foldl_fixed ks
  | unit => exact List.foldl_fixed ks
  | part => exact List.foldl_fixed ks

/-- RELEASE ALL goes through the claimable tables. -/
theorem State.dropClaims_eq (s : State) (op : Nat) (lost : Bool) :
    s.dropClaims op lost = s.forEach claimTables (fun s table => s.reclaimedAll table (s.claimedBy op table) lost) := by
  unfold State.dropClaims
  congr 1
  funext t table
  rw [← State.forEach_reclaimed]
  congr 1
  funext u k
  cases lost with
  | false => exact State.setClaim_eq u table k none
  | true => exact State.setClaim_markClaimLost u table k none

/-- The keys of a table whose records an operator claims. -/
def Table.claimed {α : Type} (t : Table α) (claim : α → Option Nat) (op : Nat) : List Nat :=
  t.keys.filter (fun k => (t.get k).map claim = some (some op))

/-- RELEASE ALL, table by table. -/
theorem State.dropClaims_tables (s : State) (op : Nat) (lost : Bool) :
    s.dropClaims op lost = { s with
      windows := s.windows.modifyAll (s.windows.claimed Window.claim op)
        (fun x => { x with claim := none, mark := lostMark lost 5 x.mark })
      carriers := s.carriers.modifyAll (s.carriers.claimed Carrier.claim op)
        (fun x => { x with claim := none, mark := lostMark lost 14 x.mark })
      stations := s.stations.modifyAll (s.stations.claimed Station.claim op)
        (fun x => { x with claim := none, mark := lostMark lost 24 x.mark })
      galleries := s.galleries.modifyAll (s.galleries.claimed Gallery.claim op)
        (fun x => { x with claim := none, mark := lostMark lost 5 x.mark })
      conferences := s.conferences.modifyAll (s.conferences.claimed Conference.claim op)
        (fun x => { x with claim := none, mark := lostMark lost 8 x.mark }) } := by
  rw [State.dropClaims_eq]
  rfl

/-- The claimed records of a table give up their claims. -/
theorem Table.get_modifyAll_claimed {α : Type} {t : Table α} (h : t.wf) (claim : α → Option Nat) (op : Nat) (f : α → α)
    (i : Nat) : (t.modifyAll (t.claimed claim op) f).get i =
      (t.get i).map (fun x => if claim x = some op then f x else x) :=
  Table.get_modifyAll_keys h (p := fun x => claim x = some op) (fun k x hx => by simp [hx]) f i

end Sys2Proof.Machine

namespace Sys2Proof
open Machine

/-- RELEASE ALL of an operator's own claims, or with Force of another's. -/
theorem releaseAll_accepted {o : Order} {s : State} (ht : s.takes) (hp : o.params = []) (hw : s.tablesInOrder)
    (hk : keyOf o ≤ 7) (ha : keyOf o = o.operator.val ∨ s.forced o = true) :
    let lost : Bool := keyOf o ≠ o.operator.val
    ∃ t, exec (.releaseAll o) s = .next t ∧
      t = { s with
        windows := t.windows
        carriers := t.carriers
        stations := t.stations
        galleries := t.galleries
        conferences := t.conferences }.answered o .done 0 [wordOf (s.claimsHeld (keyOf o))] ∧
      (∀ k, t.window k = (s.window k).map (fun x =>
        if x.claim = some (keyOf o) then { x with claim := none, mark := lostMark lost 5 x.mark } else x)) ∧
      (∀ k, t.carrier k = (s.carrier k).map (fun x =>
        if x.claim = some (keyOf o) then { x with claim := none, mark := lostMark lost 14 x.mark } else x)) ∧
      (∀ k, t.station k = (s.station k).map (fun x =>
        if x.claim = some (keyOf o) then { x with claim := none, mark := lostMark lost 24 x.mark } else x)) ∧
      (∀ k, t.gallery k = (s.gallery k).map (fun x =>
        if x.claim = some (keyOf o) then { x with claim := none, mark := lostMark lost 5 x.mark } else x)) ∧
      (∀ k, t.conference k = (s.conference k).map (fun x =>
        if x.claim = some (keyOf o) then { x with claim := none, mark := lostMark lost 8 x.mark } else x)) := by
  intro lost
  have tests : firstFailing [failIf (keyOf o ≤ 7 && !decide (keyOf o = o.operator.val) && !s.forced o) .notPermitted 9,
      failIf (!(keyOf o ≤ 7)) .key 1] = none := by
    rcases ha with h | h <;> simp [h, hk]
    simpa [h] using hk
  have lost_eq : (!decide (keyOf o = o.operator.val)) = lost := by simp [lost]
  have taken := State.takeOrder_takes (a := Activity.order .operator 16)
    (reads := fun r => r = ⟨.operator, o.operator.val⟩ || r = ⟨.operator, keyOf o⟩ || hasClaims r.table)
    (f := fun t => (t.dropClaims (keyOf o) (!decide (keyOf o = o.operator.val)), doneWith o [wordOf (t.claimsHeld (keyOf o))]))
    ht (length_of_noParams hp) (c := decide (o.params.length = 0)) (by simp [hp]) tests rfl rfl
  obtain ⟨windows, carriers, stations, galleries, conferences⟩ := hw
  refine ⟨_, congrArg Host.Outcome.next taken, ?_, fun k => ?_, fun k => ?_, fun k => ?_, fun k => ?_, fun k => ?_⟩
  · rw [State.dropClaims_tables]
    rfl
  all_goals
    rw [State.dropClaims_tables, lost_eq]
  · exact Table.get_modifyAll_claimed windows _ _ _ k
  · exact Table.get_modifyAll_claimed carriers _ _ _ k
  · exact Table.get_modifyAll_claimed stations _ _ _ k
  · exact Table.get_modifyAll_claimed galleries _ _ _ k
  · exact Table.get_modifyAll_claimed conferences _ _ _ k

/-- Settles O45. -/
theorem operatorOrders : Obligations.OperatorOrders := by
  refine ⟨fun o s ht hp hw hk => ⟨releaseAll_accepted ht hp hw hk, fun hne hf => ?_⟩, fun o s ht hp hr => ⟨fun hfree => ?_,
    fun h hh hne => ?_⟩, ?_⟩
  · refine congrArg Host.Outcome.next (State.takeOrder_refuses ht (length_of_noParams hp) (by simp [hp]) ?_)
    simp [hk, hne, hf]
  · refine congrArg Host.Outcome.next ((State.takeOrder_takes ht (length_of_noParams hp) (by simp [hp]) ?_
      (u := { s.begun o with freezeHolder := some o.operator.val }) (r := doneReply o) rfl rfl).trans
      (State.freezeHolder_answer ..))
    simp [State.lacks_fst hr, otherHolder_free hfree]
  · refine congrArg Host.Outcome.next (State.takeOrder_refuses ht (length_of_noParams hp) (by simp [hp]) ?_)
    simp [State.lacks_fst hr, hh, otherHolder_other hne]
  · intro o s ha hk words new
    obtain ⟨ht, hr, hplan⟩ := ha
    refine ⟨fun hc hf hb => ?_, fun hc => ?_, fun hp => ?_⟩
    · have tests : firstFailing [s.lacks o .rights 7, failIf (!(keyOf o ≤ 7)) .key 1, s.freezeHold o, s.saveHold,
          failIf (badField (fieldIndex 2) (pairsOf o.params)) .range 1, failIf (255 < fieldNat words 0) .range 2,
          failIf (keyOf o = 0) .state 1] = if keyOf o = 0 then some ⟨.state, 1, []⟩ else none := by
        simp [State.lacks_fst hr, hk, State.freezeHold_fst hplan.1, State.saveHold_fst hplan.2, hf,
          Nat.not_lt.2 hb]
      refine ⟨fun h0 => ?_, fun h0 hnew => ?_, fun h0 hnew => ?_⟩
      · exact congrArg Host.Outcome.next (State.takeOrder_refuses ht (evenCount_le hc) hc (tests.trans (if_pos h0)))
      · refine congrArg Host.Outcome.next ((State.takeOrder_takes ht (evenCount_le hc) hc (tests.trans (if_neg h0))
          (r := doneReply o) (if_neg hnew) rfl).trans rfl)
      · refine congrArg Host.Outcome.next ((State.takeOrder_takes ht (evenCount_le hc) hc (tests.trans (if_neg h0))
          (r := doneReply o) (if_pos hnew) rfl).trans rfl)
    · refine congrArg Host.Outcome.next (State.takeOrder_refuses ht (evenCount_le hc) hc ?_)
      simp [State.lacks_fst hr, hk]
    · refine congrArg Host.Outcome.next (State.takeOrder_refuses ht (length_of_noParams hp) (by simp [hp]) ?_)
      simp [State.lacks_fst hr, hk]

end Sys2Proof
end

section
/-! READ on every table, READ PART, READ ATTENTION and NEXT MARKED (R165 to R170). -/

namespace Sys2Proof.Machine

/-! ## The words that a READ answers -/

theorem badStart_eq_false_iff (fields : List FieldWord) (ws : List Word) :
    badStart fields ws = false ↔ ws = [] ∨ ∃ f ∈ fields, f.1 = (ws.head?.map BitVec.toNat).getD 0 := by
  cases ws with
  | nil => simp [badStart, startField]
  | cons w rest => simp [badStart, startField]

theorem wordsFrom_eq (fields : List FieldWord) (ws : List Word) :
    wordsFrom fields ws =
      ((fields.filter (fun f => (ws.head?.map BitVec.toNat).getD 0 ≤ f.1)).map (·.2)).take 40 := rfl

/-- READ reads the fields of the record that its key names. -/
theorem exec_read {table : TableId} (h : table.plainRead = true) (o : Order) (s : State) :
    exec (.read table o) s = .next (s.readFields table o (s.recordFields table (keyOf o))) := by
  cases table with
  | conference => cases h
  | part => cases h
  | _ => rfl

/-- The marks of a table that has marks are asked for. -/
theorem exec_nextMarked {table : TableId} (h : table.marked = true) (o : Order) (s : State) :
    exec (.nextMarked table o) s = .next (s.takeOrder o (Activity.order table 7) (o.params.length = 0)
      (s.markReads table) []
      (fun t => match t.firstMarked table with
        | none => (t, ⟨.done, 0, 0#16, []⟩)
        | some (k, m) => (t.clearMark table k, ⟨.done, 0, wordOf k, m.map wordOf⟩))) := by
  cases table with
  | operator => cases h
  | part => cases h
  | _ => rfl

/-- Clearing a mark, and its answer. -/
theorem State.clearMark_answer (s : State) (o : Order) (table : TableId) (k : Nat) (r : Reply) :
    ((s.begun o).clearMark table k).answer r = { s.clearMark table k with
      miso := List.replicate (9 + 2 * o.params.length) 0#8
      port := .pending ⟨r.status, r.detail, r.key, r.words⟩ } := by
  cases table <;> rfl

theorem State.firstMarked_begun (s : State) (o : Order) (table : TableId) :
    (s.begun o).firstMarked table = s.firstMarked table := by
  cases table <;> rfl

end Sys2Proof.Machine

namespace Sys2Proof
open Machine

/-- READ of a record of a table. -/
theorem read_answers (table : TableId) (o : Order) (s : State) (hp : table.plainRead = true) (ht : s.takes)
    (hl : o.params.length ≤ 1) :
    let start := (o.params.head?.map BitVec.toNat).getD 0
    (s.recordFields table (keyOf o) = none → exec (.read table o) s = .next (s.answered o .key 1 [])) ∧
    (∀ fields, s.recordFields table (keyOf o) = some fields →
      (o.params = [] ∨ (∃ f ∈ fields, f.1 = start) →
        exec (.read table o) s = .next (s.answered o .done 0
          (((fields.filter (fun f => start ≤ f.1)).map (·.2)).take 40))) ∧
      (o.params ≠ [] → (∀ f ∈ fields, f.1 ≠ start) →
        exec (.read table o) s = .next (s.answered o .range 1 []))) := by
  intro start
  have count : decide (o.params.length ≤ 1) = true := by simp [hl]
  rw [exec_read hp]
  refine ⟨fun hn => ?_, fun fields hf => ⟨fun hs => ?_, fun hne hs => ?_⟩⟩
  · refine congrArg Host.Outcome.next (State.takeOrder_refuses ht (by omega) count ?_)
    simp [hn]
  · have starts := (badStart_eq_false_iff fields o.params).2 hs
    refine congrArg Host.Outcome.next (State.takeOrder_takes ht (by omega) count ?_
      (r := doneWith o (wordsFrom fields o.params)) rfl ?_)
    · simp [hf, starts]
    · simp [hf]
  · have bad : badStart fields o.params = true := by
      rw [← Bool.not_eq_false, badStart_eq_false_iff]
      rintro (h | ⟨f, hm, h⟩)
      · exact hne h
      · exact hs f hm h
    refine congrArg Host.Outcome.next (State.takeOrder_refuses ht (by omega) count ?_)
    simp [hf, bad]

/-- READ CONFERENCE of one of the three parts. -/
theorem readConference_answers (o : Order) (s : State) (x : Conference) (ht : s.takes) (hl : o.params.length = 1)
    (hx : s.conference (keyOf o) = some x) (hn : fieldNat o.params 0 ≤ 2) :
    exec (.readConference o) s = .next (s.answered o .done 0 (s.conferencePart (keyOf o) x (fieldNat o.params 0))) := by
  have tests : firstFailing [failIf (s.conference (keyOf o)).isNone .key 1, failIf (2 < fieldNat o.params 0) .range 2] =
      none := by simp [hx, Nat.not_lt.2 hn]
  have held : (s.begun o).conference (keyOf o) = some x := hx
  refine congrArg Host.Outcome.next (State.takeOrder_takes ht (by omega) (by simp [hl]) tests
    (r := doneWith o (s.conferencePart (keyOf o) x (fieldNat o.params 0))) rfl ?_)
  simp only [held]
  rfl

/-- READ PART in every service state. -/
theorem readPart_answers (o : Order) (s : State) (hp : s.port = .idle) (hb : s.badCodes = []) (hl : o.params.length ≤ 1) :
    let start := (o.params.head?.map BitVec.toNat).getD 0
    (o.params = [] ∨ (∃ f ∈ s.partFields, f.1 = start) →
      exec (.readPart o) s = .next (s.answered o .done 0
        (((s.partFields.filter (fun f => start ≤ f.1)).map (·.2)).take 40))) := by
  intro start hs
  have starts := (badStart_eq_false_iff s.partFields o.params).2 hs
  have sound : (s.begun o).partBad = false := by simp [State.partBad, State.clockZeros, State.process, hb]
  have tests : firstFailing [failIf (badStart s.partFields o.params) .range 1] = none := by simp [starts]
  have taken : s.readPart o = (s.begun o).answer (doneWith o (wordsFrom (s.begun o).partFields o.params)) := by
    simp only [State.readPart, decide_eq_true hl]
    rw [State.gate_open hp hb (by omega), tests]
    simp only [sound, Bool.false_eq_true, if_false]
  exact congrArg Host.Outcome.next taken

/-- READ ATTENTION. -/
theorem readAttention_answers (o : Order) (s : State) (ht : s.takes) :
    (o.params = [] → exec (.readAttention o) s = .next ({ s with
      latched := if o.clear then ⟨false, false, false, false⟩ else s.latched }.answered o .done 0
        [s.attentionWord, s.mask])) ∧
    (∀ mask, o.params = [mask] → mask ||| 0x0F3F#16 = 0x0F3F#16 → exec (.readAttention o) s = .next ({ s with
      mask := mask
      latched := if o.clear then ⟨false, false, false, false⟩ else s.latched }.answered o .done 0
        [s.attentionWord, mask])) := by
  have taken : ∀ mask, o.params.head?.getD s.mask = mask → o.params.length ≤ 1 → maskBad o.params = false →
      exec (.readAttention o) s = .next ({ s with
        mask := mask
        latched := if o.clear then ⟨false, false, false, false⟩ else s.latched }.answered o .done 0
          [s.attentionWord, mask]) := by
    intro mask hm hl hb
    have tests : firstFailing [failIf (maskBad o.params) .range 2] = none := by simp [hb]
    subst hm
    exact congrArg Host.Outcome.next (State.takeOrder_takes ht (by omega) (by simp [hl]) tests rfl rfl)
  refine ⟨fun hp => ?_, fun mask hp hm => taken mask (by simp [hp]) (by simp [hp]) ?_⟩
  · exact taken s.mask (by simp [hp]) (by simp [hp]) (by simp [hp, maskBad])
  · simpa [hp, maskBad, Config.fullMask] using hm

/-- NEXT MARKED. -/
theorem nextMarked_answers (table : TableId) (o : Order) (s : State) (hm : table.marked = true) (ht : s.takes)
    (hp : o.params = []) :
    (s.firstMarked table = none → exec (.nextMarked table o) s = .next { s with
      miso := List.replicate 9 0#8, port := .pending ⟨.done, 0, 0#16, []⟩ }) ∧
    (∀ k mark, s.firstMarked table = some (k, mark) → exec (.nextMarked table o) s = .next { s.clearMark table k with
      miso := List.replicate 9 0#8, port := .pending ⟨.done, 0, wordOf k, mark.map wordOf⟩ }) := by
  have nine : 9 + 2 * o.params.length = 9 := by simp [hp]
  rw [exec_nextMarked hm]
  refine ⟨fun hn => ?_, fun k mark hk => ?_⟩
  · refine congrArg Host.Outcome.next ((State.takeOrder_takes ht (length_of_noParams hp) (by simp [hp]) firstFailing_nil
      (u := s.begun o) (r := ⟨.done, 0, 0#16, []⟩) ?_ ?_).trans ?_)
    · simp only [State.firstMarked_begun, hn]
    · simp only [State.firstMarked_begun, hn]
    · rw [State.begun, nine]
      rfl
  · refine congrArg Host.Outcome.next ((State.takeOrder_takes ht (length_of_noParams hp) (by simp [hp]) firstFailing_nil
      (u := (s.begun o).clearMark table k) (r := ⟨.done, 0, wordOf k, mark.map wordOf⟩) ?_ ?_).trans ?_)
    · simp only [State.firstMarked_begun, hk]
    · simp only [State.firstMarked_begun, hk]
    · rw [State.clearMark_answer, nine]

/-- Settles O60. -/
theorem reads : Obligations.Reads :=
  ⟨read_answers, readConference_answers, readPart_answers, readAttention_answers, nextMarked_answers⟩

end Sys2Proof
end

section
/-! The Plan Store: the words that a save leaves (R175, R176), the store orders (R179), and the start-ups (R173, R178). -/

namespace Sys2Proof.Machine

/-! ## Writes of several words -/

/-- Writes that agree on the word of an address leave that word there, if one of them writes it or it stood there. -/
theorem Memory.read_writeAll {m : Memory} (h : m.wf) {ws : List (Nat × Word)} {a : Nat} {w : Word}
    (agree : ∀ p ∈ ws, p.1 = a → p.2 = w) (some : m.read a = w ∨ ∃ p ∈ ws, p.1 = a) : (m.writeAll ws).read a = w := by
  induction ws generalizing m with
  | nil => simpa [Memory.writeAll] using some
  | cons p rest ih =>
    refine ih (Memory.wf_write h p.1 p.2) (fun q hq => agree q (List.mem_cons_of_mem _ hq)) ?_
    rw [Memory.read_write h]
    by_cases hp : a = p.1
    · exact .inl (by rw [if_pos hp, agree p List.mem_cons_self hp.symm])
    · rw [if_neg hp]
      rcases some with hm | ⟨q, hq, hqa⟩
      · exact .inl hm
      · rcases List.mem_cons.1 hq with rfl | hq
        · exact absurd hqa.symm hp
        · exact .inr ⟨q, hq, hqa⟩

theorem Memory.writeAll_append (m : Memory) (ws vs : List (Nat × Word)) :
    m.writeAll (ws ++ vs) = (m.writeAll ws).writeAll vs := by
  simp [Memory.writeAll, List.foldl_append]

/-! ## The words of an image -/

theorem foldl_add (ws : List Word) (a : Word) : ws.foldl (fun a b => a + b) a = a + wordSum ws := by
  induction ws generalizing a with
  | nil => simp [wordSum]
  | cons w rest ih =>
    have sum : wordSum (w :: rest) = w + wordSum rest := by rw [wordSum, List.foldl_cons, ih, BitVec.zero_add]
    rw [List.foldl_cons, ih, sum, BitVec.add_assoc]

@[simp] theorem wordSum_nil : wordSum [] = 0#16 := rfl

@[simp] theorem wordSum_cons (w : Word) (ws : List Word) : wordSum (w :: ws) = w + wordSum ws := by
  rw [wordSum, List.foldl_cons, foldl_add, BitVec.zero_add]

@[simp] theorem wordSum_append (ws vs : List Word) : wordSum (ws ++ vs) = wordSum ws + wordSum vs := by
  induction ws with
  | nil => simp
  | cons w rest ih => simp [ih, BitVec.add_assoc]

/-- The checksum word closes an image (R171). -/
theorem State.wordSum_image (s : State) : wordSum (0x7A31#16 :: s.imageTail) = 0#16 := by
  simp only [State.imageTail, checksumWord, wordSum_cons, wordSum_append, wordSum_nil, Config.signature0,
    Config.signature1, List.cons_append]
  bv_omega

/-- The writes of a save between the opening 0x0000 and the closing signature word (R175). -/
def State.tailWrites (s : State) : List (Nat × Word) :=
  (s.imageTail.zipIdx.map (fun p => (p.2 + 1, p.1))).filter (fun p => p.1 < Config.storeSize)

theorem State.saveWrites_eq (s : State) :
    s.saveWrites = ((0, 0#16) :: s.tailWrites) ++ [(0, Config.signature0)] := by
  simp [State.saveWrites, State.tailWrites, List.filter_append, Config.storeSize]

theorem State.mem_tailWrites {s : State} {a : Nat} {w : Word} :
    (a, w) ∈ s.tailWrites ↔ ∃ i, s.imageTail[i]? = some w ∧ i + 1 = a ∧ a < 4096 := by
  simp only [State.tailWrites, List.mem_filter, List.mem_map, Prod.exists, Prod.mk.injEq,
    List.mk_mem_zipIdx_iff_getElem?, decide_eq_true_eq]
  constructor
  · rintro ⟨⟨v, i, hi, rfl, rfl⟩, ha⟩
    exact ⟨i, hi, rfl, ha⟩
  · rintro ⟨i, hi, rfl, ha⟩
    exact ⟨⟨w, i, hi, rfl, rfl⟩, ha⟩

/-- A write of the image's tail is past address 0. -/
theorem State.tailWrites_pos {s : State} {p : Nat × Word} (h : p ∈ s.tailWrites) : p.1 ≠ 0 := by
  obtain ⟨i, _, hi, _⟩ := State.mem_tailWrites.1 h
  omega

/-- The writes that a save which is cut short has made leave 0x0000 at address 0 (R176). -/
theorem State.writesMade_zero {s : State} (n : Nat) {p : Nat × Word} (h : p ∈ s.writesMade n) (h0 : p.1 = 0) :
    p.2 = 0#16 := by
  have taken : p ∈ (0, 0#16) :: s.tailWrites := by
    unfold State.writesMade at h
    rw [State.saveWrites_eq, List.take_append_of_le_length (by simp)] at h
    exact List.mem_of_mem_take h
  rcases List.mem_cons.1 taken with rfl | h
  · rfl
  · exact absurd h0 (State.tailWrites_pos h)

/-- A save that is cut short has made its first write. -/
theorem State.writesMade_first (s : State) (n : Nat) : ∃ p ∈ s.writesMade n, p.1 = 0 := by
  refine ⟨(0, 0#16), ?_, rfl⟩
  have some : 1 ≤ min (max n (if s.savePlace = 0 then 1 else s.saveWritten.length + 2)) (s.saveWrites.length - 1) := by
    rw [State.saveWrites_eq]
    simp only [List.length_append, List.length_cons]
    split <;> omega
  unfold State.writesMade
  generalize min (max n _) (_ - 1) = m at some ⊢
  obtain ⟨m, rfl⟩ : ∃ k, m = k + 1 := ⟨m - 1, by omega⟩
  simp [State.saveWrites_eq]

/-- The whole image of a save (R175): the signature, then its tail. -/
theorem State.read_finishSave {s : State} (h : s.store.wf = true) :
    s.finishSave.store.read 0 = 0x7A31#16 ∧
      ∀ i w, s.imageTail[i]? = some w → i + 1 < 4096 → s.finishSave.store.read (i + 1) = w := by
  have written : s.finishSave.store =
      ((s.store.writeAll ((0, 0#16) :: s.tailWrites)).write 0 Config.signature0) := by
    show s.store.writeAll s.saveWrites = _
    rw [State.saveWrites_eq, Memory.writeAll_append]
    rfl
  have wf := Memory.wf_writeAll h ((0, 0#16) :: s.tailWrites)
  rw [written]
  refine ⟨?_, fun i w hi hw => ?_⟩
  · rw [Memory.read_write wf, if_pos rfl]
    rfl
  · rw [Memory.read_write wf, if_neg (by omega)]
    refine Memory.read_writeAll h (fun p hp ha => ?_) (.inr ⟨(i + 1, w), ?_, rfl⟩)
    · rcases List.mem_cons.1 hp with rfl | hp
      · exact absurd ha (by omega)
      · obtain ⟨j, hj, hjp, _⟩ := State.mem_tailWrites.1 hp
        obtain rfl : j = i := by omega
        exact Option.some.inj (hj.symm.trans hi)
    · exact List.mem_cons_of_mem _ (State.mem_tailWrites.2 ⟨i, hi, rfl, hw⟩)

/-- A save that fails leaves 0x0000 at address 0 (R176). -/
theorem State.read_writesMade {s : State} (h : s.store.wf = true) (n : Nat) :
    (s.store.writeAll (s.writesMade n)).read 0 = 0#16 :=
  Memory.read_writeAll h (fun _ hp h0 => State.writesMade_zero n hp h0) (.inr (s.writesMade_first n))

/-! ## An abandoned save -/

theorem State.abandonSave_idle {s : State} (h : s.saving = false) : s.abandonSave = s := by
  simp [State.abandonSave, h]

theorem State.abandonSave_pending (s : State) : s.abandonSave.pending = s.pending := by
  unfold State.abandonSave
  split <;> rfl

theorem State.abandonSave_read {s : State} (hs : s.saving = true) (h : s.store.wf = true) :
    s.abandonSave.store.read 0 = 0#16 := by
  simp only [State.abandonSave, hs, if_true]
  exact Memory.read_writeAll (Memory.wf_write h 0 0#16) (fun p hp h0 => State.writesMade_zero _ hp h0)
    (.inr (s.writesMade_first _))

/-! ## RESTART -/

/-- RESTART with an effective Force, with word 1, or with word 0 while every station is Parked, starts the part up again. -/
theorem State.restartOrder_eq {s : State} {o : Order} (hp : s.port = .idle)
    (hs : (s.service = .inService ∧ s.badCodes = []) ∨ s.service = .halted) (hf : s.forced o = true)
    (hw : o.params = [1#16] ∨ (o.params = [0#16] ∧ ∀ p ∈ s.stations.records, p.2.link = .parked)) :
    s.restartOrder o = (s.begun o).restarted.answer (doneReply o) := by
  have length : o.params.length = 1 := by rcases hw with h | ⟨h, _⟩ <;> simp [h]
  have words : ¬ 1 < fieldNat o.params 0 ∧ (fieldNat o.params 0 = 0 && s.stationsLive) = false := by
    rcases hw with h | ⟨h, parked⟩
    · simp [h, fieldNat]
    · refine ⟨by simp [h, fieldNat], ?_⟩
      simp only [State.stationsLive, Bool.and_eq_false_iff, List.any_eq_false]
      exact .inr (fun p hm => by simp [parked p hm])
  have detail : s.restartDetail = none := by rcases hs with ⟨h, _⟩ | h <;> simp [State.restartDetail, h]
  have sound : ∀ reads, (s.begun o).firstBad reads = none := by
    intro reads
    rcases hs with ⟨_, hb⟩ | h
    · exact State.firstBad_sound (s := s.begun o) hb reads
    · exact State.firstBad_halted (s := s.begun o) h reads
  have tests : firstFailing [failIf (!s.forced o) .notPermitted 9, failIf (1 < fieldNat o.params 0) .range 2,
      failIf (fieldNat o.params 0 = 0 && s.stationsLive) .state 4] = none :=
    passes_cons (by simp [hf]) (passes_cons (by simpa using words.1) (passes_cons words.2 firstFailing_nil))
  have long : ¬ 16 < o.params.length := by omega
  simp only [State.restartOrder, State.gate, hp, long, decide_eq_true length, detail, State.reading, sound, tests,
    Bool.not_true, Bool.false_eq_true, if_false]

/-- The values of a start-up without power-on (R178). -/
theorem State.restarted_store {s : State} (h : s.saving = false) : s.restarted.store = s.store := by
  show s.abandonSave.store = s.store
  rw [State.abandonSave_idle h]

end Sys2Proof.Machine

namespace Sys2Proof
open Machine

/-- POWER ON and RESET. -/
theorem powerOn_reset_startUp (c : Instr) (s : State) (h : c = .powerOn ∨ c = .reset) :
    ∃ t, exec c s = .next t ∧ t.service = .starting ∧ t.load = .memoryTest ∧ t.readyHigh = false ∧
      t.snapshot = (if c = .reset then s.snapshot else none) ∧ t.badCodes = [] ∧
      t.clock = (⟨true, 2000, 1, 1, 0, 0⟩ : Clock) ∧ t.latched = (⟨false, false, false, true⟩ : Latched) ∧
      t.mask = 0x0F3F#16 ∧ t.settings = (⟨4, 2, false, 500, 40, 15, 10, 10, 30, [], none⟩ : Settings) ∧
      t.windows.slots = [] ∧ t.carriers.slots = [] ∧ t.stations.slots = [] ∧ t.galleries.slots = [] ∧
      t.conferences.slots = [] ∧ t.operators = ⟨0xFF#8, 0xFFFF#16⟩ :: List.replicate 7 ⟨0#8, 0#16⟩ ∧
      t.freezeHolder = none ∧ t.units = List.replicate 32 ⟨none, .absent, 0, []⟩ ∧ t.checkQueue = [] ∧
      t.engine = none ∧ t.queue = [] ∧ t.finals = [] ∧ t.line = none ∧ t.port = .idle ∧ t.saving = false ∧
      (s.saving = false → t.store = s.store) ∧ (s.saving = true → s.store.wf = true → t.store.read 0 = 0#16) ∧
      t.pending = s.pending := by
  have store : s.saving = false → s.abandonSave.store = s.store := fun hs => by rw [State.abandonSave_idle hs]
  rcases h with rfl | rfl
  · exact ⟨s.startUp, rfl, rfl, rfl, rfl, rfl, rfl, rfl, rfl, rfl, rfl, rfl, rfl, rfl, rfl, rfl, rfl, rfl, rfl, rfl, rfl,
      rfl, rfl, rfl, rfl, rfl, store, State.abandonSave_read, s.abandonSave_pending⟩
  · exact ⟨s.resetPin, rfl, rfl, rfl, rfl, rfl, rfl, rfl, rfl, rfl, rfl, rfl, rfl, rfl, rfl, rfl, rfl, rfl, rfl, rfl, rfl,
      rfl, rfl, rfl, rfl, rfl, store, State.abandonSave_read, s.abandonSave_pending⟩

/-- Settles O56. -/
theorem startUps : Obligations.StartUps := by
  refine ⟨powerOn_reset_startUp, fun s h => ⟨?_, ?_⟩, fun o s hp hs hf hw => ?_⟩
  · simp only [exec, execMemoryTest, State.endMemoryTest, h, if_true]
  · simp only [exec, execMemoryTest, State.endMemoryTest, h, Bool.false_eq_true, if_false]
  · refine ⟨(s.begun o).restarted.answer (doneReply o), congrArg Host.Outcome.next (State.restartOrder_eq hp hs hf hw), rfl, rfl,
      rfl, rfl, rfl, rfl, rfl, rfl, rfl, rfl, rfl, rfl, rfl, rfl, rfl, rfl, fun h => ?_,
      State.abandonSave_pending (s.begun o), rfl⟩
    exact State.restarted_store (s := s.begun o) h

/-- SAVE PLAN. -/
theorem savePlan_order (o : Order) (s : State) (ht : s.takes) (hr : s.holdsRight o .store) (hf : s.freezeFree o)
    (hs : s.saving = false) (hp : o.params = []) :
    exec (.savePlan o true) s = .next ({ s with saving := true, store := s.store.write 0 0#16 }.done o) ∧
    exec (.savePlan o false) s = .next ({ s with
      storeOutcome := 4, latched := { s.latched with store := true } }.answered o .state 5 []) := by
  have tests : firstFailing [s.lacks o .store 8, s.freezeHold o, failIf s.saving .state 3] = none :=
    passes_cons (State.lacks_fst hr 8) (passes_cons (State.freezeHold_fst hf) (by simp [hs]))
  have length := length_of_noParams hp
  have count : decide (o.params.length = 0) = true := by simp [hp]
  exact ⟨congrArg Host.Outcome.next (State.takeOrder_takes ht length count tests rfl rfl),
    congrArg Host.Outcome.next (State.takeOrder_takes ht length count tests rfl rfl)⟩

theorem addressBad_eq_false_iff (ws : List Word) : addressBad ws = false ↔ fieldNat ws 0 ≤ 4095 := by
  rw [addressBad, decide_eq_false_iff_not]
  exact Nat.not_le.trans Nat.lt_succ_iff

/-- STORE READ and STORE WRITE. -/
theorem store_orders (o : Order) (ack : Bool) (s : State) (ht : s.takes) (hr : s.holdsRight o .store)
    (hs : s.saving = false) :
    (o.params.length = 1 → 4095 < fieldNat o.params 0 →
      exec (.storeRead o ack) s = .next (s.answered o .range 2 [])) ∧
    (o.params.length = 1 → fieldNat o.params 0 ≤ 4095 →
      exec (.storeRead o ack) s = .next (if ack then s.answered o .done 0 [s.store.read (fieldNat o.params 0)]
        else s.answered o .state 5 [])) ∧
    (∀ address value : Word, o.params = [address, value] → s.freezeFree o → address.toNat ≤ 4095 →
      exec (.storeWrite o ack) s = .next ({ s with
        storeStates := StoreStates.changed
        storeOutcome := 5
        latched := { s.latched with store := true }
        store := if ack then s.store.write address.toNat value else s.store }.answered o
          (if ack then .done else .state) (if ack then 0 else 5) [])) := by
  have right := State.lacks_fst hr 8
  have save := State.saveHold_fst hs
  refine ⟨fun hl hn => ?_, fun hl hn => ?_, fun address value hp hf ha => ?_⟩
  · have bad : addressBad o.params = true := by
      rw [← Bool.not_eq_false, addressBad_eq_false_iff]
      omega
    refine congrArg Host.Outcome.next (State.takeOrder_refuses ht (by omega) (by simp [hl]) ?_)
    simp [right, save, bad]
  · have good := (addressBad_eq_false_iff o.params).2 hn
    cases ack with
    | true =>
      refine congrArg Host.Outcome.next (State.takeOrder_takes ht (by omega) (by simp [hl]) ?_ rfl rfl)
      simp [right, save, good]
    | false =>
      refine congrArg Host.Outcome.next (State.takeOrder_refuses ht (by omega) (by simp [hl]) ?_)
      simp [right, save, good]
  · have word : fieldNat o.params 0 = address.toNat ∧ o.params.getD 1 0#16 = value := by simp [hp, fieldNat]
    have good := (addressBad_eq_false_iff o.params).2 (by omega)
    have tests : firstFailing [s.lacks o .store 8, s.freezeHold o, s.saveHold, failIf (addressBad o.params) .range 2] =
        none := by simp [right, State.freezeHold_fst hf, save, good]
    have two : o.params.length = 2 := by simp [hp]
    rw [← word.1, ← word.2]
    cases ack with
    | true =>
      exact congrArg Host.Outcome.next ((State.takeOrder_takes ht (by omega) (by simp [two]) tests
        (u := { s.begun o with
          storeStates := StoreStates.changed
          storeOutcome := 5
          latched := { s.latched with store := true }
          store := s.store.write (fieldNat o.params 0) (o.params.getD 1 0#16) }) (r := doneReply o) rfl rfl).trans rfl)
    | false =>
      exact congrArg Host.Outcome.next ((State.takeOrder_takes ht (by omega) (by simp [two]) tests
        (u := { s.begun o with
          storeStates := StoreStates.changed
          storeOutcome := 5
          latched := { s.latched with store := true } }) (r := ⟨.state, 5, o.key, []⟩) rfl rfl).trans rfl)

/-- Settles O58. -/
theorem savesAndStoreWords : Obligations.SavesAndStoreWords := by
  refine ⟨savePlan_order, fun s hs hb => ?_, fun n s hs hb => ?_, store_orders⟩
  · have sound : s.saveLeft.find? (fun p => s.readFails p.1) = none := by
      simp [State.readFails_sound hb]
    have saved : exec .saveEnd s = .next s.finishSave := by
      simp only [exec, execSaveEnd, State.endSave, hs, if_true, sound,
        State.readingPart_sound (.inl (by simp [hb]) : _ ∨ s.service = .halted)]
    exact ⟨_, saved, rfl, fun h => ⟨(State.read_finishSave h).1, s.wordSum_image, (State.read_finishSave h).2⟩⟩
  · have lost : exec (.saveFailed n) s =
        .next (State.saveLost { s with store := s.store.writeAll (s.writesMade n) }) := by
      simp only [exec, execSaveFailed, State.failSave, hs, if_true, State.readingPart_sound hb]
    exact ⟨_, lost, rfl, fun h => State.read_writesMade h n⟩

end Sys2Proof
end

section
/-! The Studio Line: the beginning of a transaction (R141 to R143, R152). -/

namespace Sys2Proof.Machine

/-- While a transaction is on the line no other begins. -/
theorem State.lineReady_busy {s : State} (h : s.line ≠ none) : s.lineReady = false := by
  cases hl : s.line with
  | none => exact absurd hl h
  | some t => simp [State.lineReady, hl]

theorem State.lineReady_idle {s : State} (hs : s.service = .inService ∨ s.service = .faultHandling) (hl : s.load = .none)
    (hn : s.line = none) : s.lineReady = true := by
  simpa [State.lineReady, hl, hn] using hs

/-- A poll turn: the last turn was a directive's, or no entry is ready (R142). -/
theorem State.pollTurn_of {s : State} (h : s.turn = .poll ∨ ∀ e ∈ s.queue, readyIn s.queue e = false) :
    s.pollTurn = true := by
  rcases h with h | h
  · simp [State.pollTurn, h]
  · have none : s.readyEntry = none := List.find?_eq_none.2 (fun e he => by simp [h e he])
    simp [State.pollTurn, none]

/-- The round goes on, or the next one begins (R143). -/
theorem State.roundLeft_of {s : State} {a : Ask} {rest : List Ask}
    (h : s.round = a :: rest ∨ (s.round = [] ∧ s.newRound = a :: rest)) : s.roundLeft = a :: rest := by
  rcases h with h | ⟨h, hn⟩
  · simp [State.roundLeft, h]
  · simp [State.roundLeft, h, hn]

/-- The ready entry nearest the head (R142). -/
theorem State.readyEntry_of {s : State} {e : Entry} {before after : List Entry} (hq : s.queue = before ++ e :: after)
    (he : readyIn s.queue e = true) (hb : ∀ x ∈ before, readyIn s.queue x = false) : s.readyEntry = some e := by
  have skip : before.find? (readyIn s.queue) = none := List.find?_eq_none.2 (fun x hx => by simp [hb x hx])
  show s.queue.find? (readyIn s.queue) = some e
  conv_lhs => arg 2; rw [hq]
  rw [List.find?_append, skip, Option.none_or, List.find?_cons_of_pos he]

end Sys2Proof.Machine

namespace Sys2Proof
open Machine

/-- Settles O46. -/
theorem transactionsBegin : Obligations.TransactionsBegin := by
  intro s hb
  refine ⟨fun hn => ?_, fun hs hl hn => ?_⟩
  · have busy := State.lineReady_busy hn
    refine ⟨?_, ?_, ?_⟩
    · simp [exec, execPoll, State.sendPoll, busy]
    · simp [exec, execDiscover, State.sendDiscover, busy]
    · simp [exec, execDirectiveTurn, State.sendDirective, busy]
  · intro seq
    have idle := State.lineReady_idle hs hl hn
    refine ⟨fun a rest ht hr => ?_, fun a rest ht hr => ?_, fun e before after ht hq he hx => ?_⟩
    · simp only [exec, execPoll, State.sendPoll, idle, State.pollTurn_of ht, State.roundLeft_of hr, Bool.and_self, if_true]
      rfl
    · simp only [exec, execDiscover, State.sendDiscover, idle, State.pollTurn_of ht, State.roundLeft_of hr, Bool.and_self,
        if_true]
      rfl
    · have turn : decide (s.turn = .directive) = true := by simp [ht]
      simp only [exec, execDirectiveTurn, State.sendDirective, idle, turn, Bool.and_self, if_true,
        State.readyEntry_of hq he hx]
      rw [State.reading_beside hb]
      rfl

end Sys2Proof
end

section
/-! The time base: what a millisecond changes and which timer commands it puts into the queue (R1, R2; log 2). -/

namespace Sys2Proof.Machine

/-! ## The Show Clock -/

/-- The clock after a millisecond. -/
def Clock.ticked (c : Clock) : Clock := if c.unset then c else { c with phase := c.phase + 1 }

/-- The command of the clock that a millisecond makes due. -/
def Clock.due (c : Clock) : List Instr := if c.unset = false ∧ 1000 ≤ c.phase + 1 then [.showClockAdvance] else []

theorem State.tickClock_eq (s : State) :
    s.tickClock = { s with clock := s.clock.ticked, pending := s.pending ++ s.clock.due } := by
  unfold State.tickClock Clock.ticked Clock.due
  cases hu : s.clock.unset with
  | true => simp
  | false =>
    by_cases hp : 1000 ≤ s.clock.phase + 1
    · simp [hu, hp, State.enqueue]
    · simp [hu, hp]

theorem Clock.mem_due (c : Clock) (i : Instr) :
    i ∈ c.due ↔ i = .showClockAdvance ∧ c.unset = false ∧ 1000 ≤ c.phase + 1 := by
  unfold Clock.due
  split
  · next h => simp [h]
  · next h =>
    simp only [List.not_mem_nil, false_iff]
    exact fun hi => h hi.2

/-! ## The record memory -/

/-- An upset, and the save that goes on before it, change nothing that the timers use. -/
theorem State.tickUpset_frame (s : State) : ∃ bad upsets draws place written, s.tickUpset = { s with
    badCodes := bad, upsets := upsets, draws := draws, savePlace := place, saveWritten := written } := by
  have upset : ∀ r, ∃ bad draws place written, s.upsetRecord r = { s with
      badCodes := bad, draws := draws, savePlace := place, saveWritten := written } := by
    intro r
    obtain ⟨place, written, draws, h⟩ := s.saveGoesOn_frame
    unfold State.upsetRecord
    split
    · exact ⟨_, draws, place, written, by rw [h]⟩
    · exact ⟨s.badCodes, s.draws, s.savePlace, s.saveWritten, rfl⟩
  unfold State.tickUpset
  cases Config.upset s.upsets with
  | none => exact ⟨s.badCodes, s.upsets + 1, s.draws, s.savePlace, s.saveWritten, rfl⟩
  | some r =>
    obtain ⟨bad, draws, place, written, h⟩ := upset r
    refine ⟨bad, s.upsets + 1, draws, place, written, ?_⟩
    dsimp only
    rw [h]

/-! ## The timers of the records -/

theorem State.running_iff (s : State) : s.running = true ↔ s.service = .inService ∨ s.service = .faultHandling := by
  simp [State.running]

theorem State.timersRun_iff (s : State) (table : TableId) (k : Nat) :
    s.timersRun table k = true ↔ s.quarantined ≠ some ⟨table, k⟩ := by
  simp [State.timersRun]

theorem State.window_ticked (s : State) (k : Nat) :
    s.timersTicked.window k = (s.window k).map (fun w => if s.timersRun .window k then w.tick else w) :=
  Table.get_map _ _ _

theorem State.carrier_ticked (s : State) (k : Nat) :
    s.timersTicked.carrier k = (s.carrier k).map (fun y => if s.timersRun .carrier k then y.tick else y) :=
  Table.get_map _ _ _

theorem State.station_ticked (s : State) (k : Nat) :
    s.timersTicked.station k = (s.station k).map (fun x => if s.timersRun .station k then x.tick else x) :=
  Table.get_map _ _ _

/-- A recovery run goes on through a millisecond. -/
theorem State.recoveryRun_ticked (s : State) (k : Nat) :
    ((s.timersTicked.station k).bind Station.recoveryRun).isSome = ((s.station k).bind Station.recoveryRun).isSome := by
  rw [State.station_ticked]
  cases s.station k with
  | none => rfl
  | some x => cases s.timersRun .station k <;> simp [Station.tick]

/-- The commands that are due at a station that has ticked. -/
theorem Station.mem_due (x : Station) (settings : Settings) (k : Nat) (i : Instr) :
    i ∈ x.tick.due settings k ↔ x.comesDue settings k i := by
  have tune : i ∈ (if Config.tuneTimeout ≤ x.tick.tuneTimer.getD 0 then [Instr.tuneTimeout k] else []) ↔
      i = .tuneTimeout k ∧ ∃ n, x.tuneTimer = some n ∧ 3000 ≤ n + 1 := by
    cases h : x.tuneTimer <;> simp [Station.tick, h, Config.tuneTimeout, and_comm]
  have watch : i ∈ (match x.tick.watch with
      | .running ms => if settings.linkWatch ≤ ms then [Instr.watchRunsOut k] else [] | .off | .runOut => []) ↔
      i = .watchRunsOut k ∧ ∃ n, x.watch = .running n ∧ settings.linkWatch ≤ n + 1 := by
    cases h : x.watch <;> simp [Station.tick, Watch.tick, h, and_comm]
  have recovery : i ∈ (match x.tick.recoveryRun with
      | some ms => if settings.recoveryTime * 1000 ≤ ms then [Instr.recovery k] else []
      | none => []) ↔
      i = .recovery k ∧ ∃ n, x.recoveryRun = some n ∧ settings.recoveryTime * 1000 ≤ n + 1 := by
    cases h : x.recoveryRun <;> simp [Station.tick, h, and_comm]
  have call : i ∈ (if x.tick.callRemaining = some 0 then [Instr.callTimeout k] else []) ↔
      i = .callTimeout k ∧ ∃ n, x.callRemaining = some n ∧ n ≤ 1 := by
    cases h : x.callRemaining with
    | none => simp [Station.tick, h]
    | some n => simp [Station.tick, h, Nat.sub_eq_zero_iff_le, and_comm]
  have cue : i ∈ (x.tick.stack.filter (fun e => e.remaining = 0)).map (fun e => Instr.cueTimeout k (wordOf e.source.code)) ↔
      ∃ e ∈ x.stack, e.remaining ≤ 1 ∧ i = .cueTimeout k (wordOf e.source.code) := by
    simp only [Station.tick, List.mem_map, List.mem_filter, decide_eq_true_eq]
    constructor
    · rintro ⟨_, ⟨⟨e, he, rfl⟩, hz⟩, rfl⟩
      exact ⟨e, he, Nat.sub_eq_zero_iff_le.1 hz, rfl⟩
    · rintro ⟨e, he, hz, rfl⟩
      exact ⟨_, ⟨⟨e, he, rfl⟩, Nat.sub_eq_zero_iff_le.2 hz⟩, rfl⟩
  unfold Station.due Station.comesDue
  simp only [List.mem_append]
  exact (or_congr (or_congr (or_congr (or_congr tune watch) recovery) call) cue).trans (by simp only [or_assoc])

/-- The commands of the windows, the stations and the carriers. -/
def State.windowsDue (s : State) : List Instr := s.windows.records.flatMap (fun p => s.windowDue p.1 p.2)
def State.stationsDue (s : State) : List Instr :=
  s.stations.records.flatMap (fun p => if s.timersRun .station p.1 then p.2.due s.settings p.1 else [])
def State.carriersDue (s : State) : List Instr :=
  s.carriers.records.flatMap (fun p => if s.timersRun .carrier p.1 then s.carrierDue p.1 p.2 else [])

theorem State.timersDue_eq (s : State) : s.timersDue = s.windowsDue ++ s.stationsDue ++ s.carriersDue := rfl

/-- The grace expiries of a millisecond, in In Service alone. -/
theorem State.mem_windowsDue {s : State} (h : s.windows.wf) (i : Instr) :
    i ∈ s.timersTicked.windowsDue ↔
      ∃ k w g, i = .graceExpiry k ∧ s.service = .inService ∧ s.window k = some w ∧ w.grace = some g ∧ g ≤ 1 := by
  have ticked : ∀ k w, s.service = .inService → s.window k = some w → s.timersTicked.window k = some w.tick := by
    intro k w hs hw
    have runs : s.timersRun .window k = true := by simp [State.timersRun, State.quarantined, hs]
    rw [State.window_ticked, hw, Option.map_some, if_pos runs]
  have due : ∀ k w, i ∈ s.timersTicked.windowDue k w ↔
      s.service = .inService ∧ w.grace = some 0 ∧ i = .graceExpiry k := by
    intro k w
    show i ∈ (if (s.service = .inService && w.grace = some 0 : Bool) then [Instr.graceExpiry k] else []) ↔ _
    by_cases hs : s.service = .inService <;> by_cases hg : w.grace = some 0 <;> simp [hs, hg]
  refine List.mem_flatMap.trans ?_
  constructor
  · rintro ⟨⟨k, v⟩, hm, hi⟩
    obtain ⟨hs, hg, rfl⟩ := (due k v).1 hi
    have hv : s.timersTicked.window k = some v := (Table.mem_records (Table.wf_map h _) k v).1 hm
    obtain ⟨w, hw⟩ : ∃ w, s.window k = some w := by
      rw [State.window_ticked] at hv
      cases hw : s.window k with
      | none => rw [hw] at hv; cases hv
      | some w => exact ⟨w, rfl⟩
    rw [ticked k w hs hw] at hv
    cases hv
    obtain ⟨g, hgr, h0⟩ := Option.map_eq_some_iff.1 hg
    exact ⟨k, w, g, rfl, hs, hw, hgr, Nat.sub_eq_zero_iff_le.1 h0⟩
  · rintro ⟨k, w, g, rfl, hs, hw, hg, h1⟩
    refine ⟨(k, w.tick), (Table.mem_records (Table.wf_map h _) k _).2 (ticked k w hs hw), ?_⟩
    exact (due k w.tick).2 ⟨hs, by simp [Window.tick, hg, Nat.sub_eq_zero_iff_le.2 h1], rfl⟩

/-- The stations' timer commands of a millisecond. -/
theorem State.mem_stationsDue {s : State} (h : s.stations.wf) (i : Instr) :
    i ∈ s.timersTicked.stationsDue ↔
      ∃ k x, s.station k = some x ∧ s.quarantined ≠ some ⟨.station, k⟩ ∧ x.comesDue s.settings k i := by
  have same : ∀ k, s.timersTicked.timersRun .station k = s.timersRun .station k := fun _ => rfl
  refine List.mem_flatMap.trans ?_
  constructor
  · rintro ⟨⟨k, v⟩, hm, hi⟩
    have hv : s.timersTicked.station k = some v := (Table.mem_records (Table.wf_map h _) k v).1 hm
    dsimp only at hi
    rw [same] at hi
    by_cases runs : s.timersRun .station k = true
    · rw [if_pos runs] at hi
      simp only [State.station_ticked, if_pos runs] at hv
      obtain ⟨x, hx, rfl⟩ := Option.map_eq_some_iff.1 hv
      exact ⟨k, x, hx, (State.timersRun_iff s _ k).1 runs, (Station.mem_due x s.settings k i).1 hi⟩
    · rw [if_neg runs] at hi
      cases hi
  · rintro ⟨k, x, hx, hq, hd⟩
    have runs := (State.timersRun_iff s .station k).2 hq
    refine ⟨(k, x.tick), (Table.mem_records (Table.wf_map h _) k _).2 ?_, ?_⟩
    · show s.timersTicked.station k = _
      rw [State.station_ticked, hx, Option.map_some, if_pos runs]
    · dsimp only
      rw [same, if_pos runs]
      exact (Station.mem_due x s.settings k i).2 hd

theorem Carrier.blockedStandbyOf_eq_some (y : Carrier) (n : Nat) :
    y.blockedStandbyOf = some n ↔ y.state = .blocked ∧ y.bound = some (n, .standby) := by
  unfold Carrier.blockedStandbyOf
  split
  · next k hs hb => simp [hs, hb]
  · next hne =>
    constructor
    · nofun
    · rintro ⟨hs, hb⟩
      exact absurd hb (hne n hs)

/-- The command that is due at a carrier that has ticked. -/
theorem State.mem_carrierDue (s : State) (k : Nat) (y : Carrier) (i : Instr) :
    i ∈ s.timersTicked.carrierDue k y.tick ↔ ∃ n age x run, i = .cleanAgePassingLinkWatch k ∧ y.state = .blocked ∧
      y.bound = some (n, .standby) ∧ s.station n = some x ∧ x.recoveryRun = some run ∧ y.cleanAge = some age ∧
      s.settings.linkWatch < min (age + 1) 60000 := by
  have blocked : y.tick.blockedStandbyOf = y.blockedStandbyOf := rfl
  unfold State.carrierDue
  rw [blocked]
  cases hb : y.blockedStandbyOf with
  | none =>
    constructor
    · nofun
    · rintro ⟨n, _, _, _, _, hs, hbd, _⟩
      rw [(Carrier.blockedStandbyOf_eq_some y n).2 ⟨hs, hbd⟩] at hb
      cases hb
  | some n =>
    obtain ⟨hs, hbd⟩ := (Carrier.blockedStandbyOf_eq_some y n).1 hb
    have old : y.tick.cleanAge.getD 0 = (y.cleanAge.map (fun a => min (a + 1) 60000)).getD 0 := rfl
    dsimp only
    rw [State.recoveryRun_ticked, old]
    constructor
    · intro hi
      split at hi
      · next hc =>
        rw [Bool.and_eq_true, decide_eq_true_eq] at hc
        obtain ⟨hrun, hage⟩ := hc
        obtain ⟨run, hrun⟩ := Option.isSome_iff_exists.1 hrun
        obtain ⟨x, hx, hxr⟩ := Option.bind_eq_some_iff.1 hrun
        cases ha : y.cleanAge with
        | none =>
          rw [ha] at hage
          exact absurd hage (Nat.not_lt_zero _)
        | some age =>
          rw [ha] at hage
          exact ⟨n, age, x, run, List.mem_singleton.1 hi, hs, hbd, hx, hxr, rfl, hage⟩
      · cases hi
    · rintro ⟨m, age, x, run, rfl, _, hbm, hx, hrun, ha, hlt⟩
      obtain rfl : n = m := by
        rw [hbd] at hbm
        cases hbm
        rfl
      have cond : (((s.station n).bind Station.recoveryRun).isSome &&
          decide (s.settings.linkWatch < (y.cleanAge.map (fun a => min (a + 1) 60000)).getD 0)) = true := by
        simp [hx, hrun, ha, Nat.lt_min.1 hlt]
      exact (if_pos cond).symm ▸ List.mem_singleton.2 rfl

/-- The carriers' commands of a millisecond. -/
theorem State.mem_carriersDue {s : State} (h : s.carriers.wf) (i : Instr) :
    i ∈ s.timersTicked.carriersDue ↔
      ∃ k y n age x run, i = .cleanAgePassingLinkWatch k ∧ s.carrier k = some y ∧ s.quarantined ≠ some ⟨.carrier, k⟩ ∧
        y.state = .blocked ∧ y.bound = some (n, .standby) ∧ s.station n = some x ∧ x.recoveryRun = some run ∧
        y.cleanAge = some age ∧ s.settings.linkWatch < min (age + 1) 60000 := by
  have same : ∀ k, s.timersTicked.timersRun .carrier k = s.timersRun .carrier k := fun _ => rfl
  refine List.mem_flatMap.trans ?_
  constructor
  · rintro ⟨⟨k, v⟩, hm, hi⟩
    have hv : s.timersTicked.carrier k = some v := (Table.mem_records (Table.wf_map h _) k v).1 hm
    dsimp only at hi
    rw [same] at hi
    by_cases runs : s.timersRun .carrier k = true
    · rw [if_pos runs] at hi
      simp only [State.carrier_ticked, if_pos runs] at hv
      obtain ⟨y, hy, rfl⟩ := Option.map_eq_some_iff.1 hv
      obtain ⟨n, age, x, run, hi, rest⟩ := (State.mem_carrierDue s k y i).1 hi
      exact ⟨k, y, n, age, x, run, hi, hy, (State.timersRun_iff s _ k).1 runs, rest⟩
    · rw [if_neg runs] at hi
      cases hi
  · rintro ⟨k, y, n, age, x, run, hi, hy, hq, rest⟩
    have runs := (State.timersRun_iff s .carrier k).2 hq
    refine ⟨(k, y.tick), (Table.mem_records (Table.wf_map h _) k _).2 ?_, ?_⟩
    · show s.timersTicked.carrier k = _
      rw [State.carrier_ticked, hy, Option.map_some, if_pos runs]
    · dsimp only
      rw [same, if_pos runs]
      exact (State.mem_carrierDue s k y i).2 ⟨n, age, x, run, hi, rest⟩

/-! ## The millisecond -/

/-- A millisecond in Starting and in Halted: the clock alone. -/
theorem State.tickTimers_stand {s : State} (h : s.running = false) : s.tickTimers = s := by simp [State.tickTimers, h]

theorem State.tickTimers_run {s : State} (h : s.running = true) :
    s.tickTimers = { s.timersTicked with pending := s.pending ++ s.timersTicked.timersDue } := by
  simp only [State.tickTimers, h, if_true, State.enqueue]
  rfl

/-- The commands that a millisecond puts into the empty queue. -/
def State.tickDue (s : State) : List Instr := s.clock.due ++ if s.running then s.timersTicked.timersDue else []

/-- A millisecond: the clock, the timers while the part runs, and what an upset changes. -/
theorem State.tick_frame (s : State) : ∃ bad upsets draws place written, s.tick =
    { (if s.running then s.timersTicked else s) with
      clock := s.clock.ticked, pending := s.pending ++ s.tickDue, badCodes := bad, upsets := upsets, draws := draws
      savePlace := place, saveWritten := written } := by
  obtain ⟨bad, upsets, draws, place, written, h⟩ := (s.tickClock.tickTimers).tickUpset_frame
  refine ⟨bad, upsets, draws, place, written, ?_⟩
  have service : s.tickClock.running = s.running := by rw [State.tickClock_eq]; rfl
  rw [State.tick, h]
  cases hr : s.running with
  | true =>
    rw [State.tickTimers_run (service.trans hr), State.tickClock_eq, State.tickDue, hr, if_pos rfl, if_pos rfl,
      ← List.append_assoc]
    rfl
  | false =>
    rw [State.tickTimers_stand (service.trans hr), State.tickClock_eq, State.tickDue, hr, if_neg nofun, if_neg nofun,
      List.append_nil]

/-- The commands of a millisecond are those of the clock, the windows, the stations and the carriers. -/
theorem State.tickDue_queuesDue {s t : State} (h : s.tablesInOrder) (ht : t.pending = s.tickDue) : s.queuesDue t := by
  obtain ⟨windows, carriers, stations, _, _⟩ := h
  have only : ∀ l : List Instr, ∀ i, i ∈ (if s.running then l else []) ↔ s.running = true ∧ i ∈ l := by
    intro l i
    split
    · next h => simp [h]
    · next h => simp [h]
  refine ⟨s.clock.due, if s.running then s.timersTicked.windowsDue else [],
    if s.running then s.timersTicked.stationsDue else [], if s.running then s.timersTicked.carriersDue else [], ?_,
    Clock.mem_due s.clock, fun i => ?_, fun i => ?_, fun i => ?_⟩
  · rw [ht, State.tickDue, State.timersDue_eq]
    split <;> simp
  · rw [only, State.mem_windowsDue windows, State.running_iff]
    constructor
    · rintro ⟨_, h⟩
      exact h
    · rintro ⟨k, w, g, hi, hs, rest⟩
      exact ⟨.inl hs, k, w, g, hi, hs, rest⟩
  · rw [only, State.mem_stationsDue stations, State.running_iff]
  · rw [only, State.mem_carriersDue carriers, State.running_iff]

end Sys2Proof.Machine

namespace Sys2Proof
open Machine

/-- Settles O2: a millisecond is the clock's, the timers' and an upset's. -/
theorem idleStepTicks : Obligations.IdleStepTicks := by
  intro s hp
  obtain ⟨bad, upsets, draws, place, written, ht⟩ := s.tick_frame
  rw [hp, List.nil_append] at ht
  have quarantine : ∀ (table : TableId) k, (s.timersRun table k = true) ↔ ¬ s.quarantined = some ⟨table, k⟩ :=
    s.timersRun_iff
  refine ⟨s.tick, step_nil hp, ?_⟩
  rw [ht]
  refine ⟨fun hu => ?_, fun hu => ?_, fun hs => ?_, fun hw => State.tickDue_queuesDue hw rfl, fun hs => ?_, ?_⟩
  · simp [Clock.ticked, hu]
  · simp [Clock.ticked, hu]
  · have runs : s.running = true := (State.running_iff s).2 hs
    rw [if_pos runs]
    refine ⟨fun k x hx => ?_, fun k y hy => ?_, fun k x hx => ?_⟩
    · show s.timersTicked.window k = _
      rw [State.window_ticked, hx, Option.map_some]
      simp only [quarantine, ite_not]
      rfl
    · show s.timersTicked.carrier k = _
      rw [State.carrier_ticked, hy, Option.map_some]
      simp only [quarantine, ite_not]
      rfl
    · show s.timersTicked.station k = _
      rw [State.station_ticked, hx, Option.map_some]
      simp only [quarantine, ite_not]
      refine congrArg some (if_congr Iff.rfl rfl ?_)
      cases hw : x.watch <;> simp [Station.tick, Watch.tick, Config.oldestAge, hw]
  · have stands : s.running = false := by
      rcases hs with h | h <;> simp [State.running, h]
    rw [stands]
    exact ⟨rfl, rfl, rfl⟩
  · cases s.running <;>
      exact ⟨rfl, rfl, rfl, rfl, rfl, rfl, rfl, rfl, rfl, rfl, rfl, rfl, rfl, rfl, rfl, rfl, rfl⟩

end Sys2Proof
end

section
/-! The orders on carriers (R20 to R29): DEFINE, EDIT and RETIRE, and the engine that looks for candidates beside a carrier. -/

namespace Sys2Proof.Machine

/-! ## Records of a table picked by a test -/

theorem Table.get_modifyAll_records {α : Type} {t : Table α} (h : t.wf) (q : Nat × α → Bool) (f : α → α) (i : Nat) :
    (t.modifyAll ((t.records.filter q).map (·.1)) f).get i = (t.get i).map (fun x => if q (i, x) then f x else x) := by
  have distinct : ((t.records.filter q).map (·.1)).Nodup :=
    (List.pairwise_map.2 ((Table.records_rise h).imp Nat.ne_of_lt)).sublist ((List.filter_sublist).map _)
  rw [Table.get_modifyAll t distinct f i]
  have picked : i ∈ (t.records.filter q).map (·.1) ↔ ∃ x, t.get i = some x ∧ q (i, x) = true := by
    simp only [List.mem_map, List.mem_filter, Prod.exists, exists_and_right, exists_eq_right, Table.mem_records h]
  cases hi : t.get i with
  | none => simp
  | some x =>
    by_cases hq : q (i, x) = true
    · rw [if_pos (picked.2 ⟨x, hi, hq⟩)]
      simp [hq]
    · rw [if_neg]
      · simp [hq]
      · rintro hm
        obtain ⟨y, hy, hqy⟩ := picked.1 hm
        rw [hi] at hy
        cases hy
        exact hq hqy

/-! ## Orders whose cascades read further records -/

/-- An order whose tests pass takes its effect, whatever further records its cascade reads, and is answered with its reply. -/
theorem State.takeOrderWith_takes {s : State} (h : s.takes) {o : Order} (hl : o.params.length ≤ 16) {c : Bool}
    (hc : c = true) {ts : List Check1} (ht : firstFailing ts = none) {a : Nat} {reads : RecordId → Bool}
    {more : State → RecordId → Bool} {f : State → State × Reply} {u : State} {r : Reply} (hu : (f (s.begun o)).1 = u)
    (hr : (f (s.begun o)).2 = r) : s.takeOrderWith o a c reads ts more f = u.answer r := by
  rw [State.takeOrderWith_accept h hl hc ht, ← hu, ← hr]

/-- Tests that pass leave it to the tests behind them. -/
theorem firstFailing_append {a : List Check1} (ha : firstFailing a = none) (b : List Check1) :
    firstFailing (a ++ b) = firstFailing b := by
  induction a with
  | nil => rfl
  | cons t rest ih =>
    rw [firstFailing_cons] at ha
    split at ha
    · cases ha
    · next ht => rw [List.cons_append, firstFailing_cons, if_neg ht, ih ha]

/-! ## Tests of carriers -/

theorem State.passes_carrierRights {s : State} {o : Order} {c : Nat} {result : Option Nat} (hr : s.holdsRight o .carrier)
    (hm : ∀ y, s.carrier c = some y → s.maskPermits o y.window) (hw : s.maskPermits o result) :
    firstFailing (s.carrierRights o c result) = none :=
  passes_cons (State.lacks_fst hr 2)
    (passes_cons (by simp only [State.carrierMask_fst hm, State.maskRefuses_of_permits hw, Bool.or_false]) firstFailing_nil)

theorem State.maskPermits_none (s : State) (o : Order) : s.maskPermits o none := nofun

/-- The tests of a resulting record whose window exists and whose intent names a station of the carrier's class (R20). -/
theorem State.passes_carrierRecordTests {s : State} {ps : List (Nat × Word)} {ws : List Word} {y : Carrier}
    {own : List Check1} (hf : badField (fieldIndex 6) ps = false) (hb : carrierRangeBad ws = false)
    (hw : ∃ w v, y.window = some w ∧ s.window w = some v) (hown : firstFailing own = none)
    (hi : ∀ n role, y.intent = some (n, role) → ∃ x, s.station n = some x ∧ x.kind.cls = y.cls) :
    firstFailing (s.carrierRecordTests ps ws y own) = none := by
  obtain ⟨w, v, hw, hv⟩ := hw
  have window : (y.window.bind s.window).isNone = false := by simp [hw, hv]
  have target : (y.intent.isSome && (y.intent.bind (fun p => s.station p.1)).isNone) = false ∧
      (match y.intent.bind (fun p => s.station p.1) with | some x => x.kind.cls != y.cls | none => false) = false := by
    cases hint : y.intent with
    | none => exact ⟨rfl, rfl⟩
    | some p =>
      obtain ⟨n, role⟩ := p
      obtain ⟨x, hx, hcls⟩ := hi n role hint
      simp [hx, hcls]
  exact passes_append (passes_append (passes_cons hf (passes_cons hb (passes_cons window firstFailing_nil))) hown)
    (passes_cons target.1 (passes_cons target.2 firstFailing_nil))

/-- A resulting record without an existing window is refused STATE, detail 1 (R20). -/
theorem State.carrierRecordTests_windowless {s : State} {ps : List (Nat × Word)} {ws : List Word} {y : Carrier}
    {own : List Check1} (hf : badField (fieldIndex 6) ps = false) (hb : carrierRangeBad ws = false)
    (hw : ∀ w, y.window = some w → s.window w = none) :
    firstFailing (s.carrierRecordTests ps ws y own) = some ⟨.state, 1, []⟩ := by
  have window : (y.window.bind s.window).isNone = true := by
    cases hyw : y.window with
    | none => rfl
    | some w => simp [hw w hyw]
  simp [State.carrierRecordTests, hf, hb, window]

/-! ## EDIT CARRIER -/

/-- A carrier is put into its slot by an order. -/
def State.putCarrier (s : State) (k : Nat) (y : Carrier) : State :=
  State.carrierChanged { s with carriers := s.carriers.put k y }

/-- The tests of an EDIT CARRIER. -/
def State.editCarrierTests (s : State) (o : Order) (old new : Carrier) (ws : List Word) (placement : Bool) : List Check1 :=
  s.carrierRights o (keyOf o) ((s.carrier (keyOf o)).bind (fun _ => new.window)) ++
    [failIf (s.carrier (keyOf o)).isNone .key 1, claimHold o old.claim] ++ s.holds o ++
    s.carrierRecordTests (pairsOf o.params) ws new [failIf (placement && old.state.placed) .state 2]

theorem State.editCarrier_takes {s : State} {o : Order} {old new : Carrier} {ws : List Word} {fresh placement : Bool}
    (ht : s.takes) (hold : s.carrier (keyOf o) = some old) (hc : evenCount 2 16 o.params = true)
    (hws : ws = applyPairs (fieldIndex 6) (carrierWords old) (pairsOf o.params)) (hnew : new = old.withWords ws)
    (hfresh : fresh = (new.frequency != old.frequency || new.cls != old.cls))
    (hplacement : placement = (fresh || new.window != old.window))
    (tests : firstFailing (s.editCarrierTests o old new ws placement) = none) :
    s.editCarrier o = (if placement
      then (((s.begun o).putCarrier (keyOf o) new).placementChange (keyOf o) fresh).engineLooks
      else (s.begun o).putCarrier (keyOf o) new).answer (doneReply o) := by
  subst hws hnew hfresh hplacement
  obtain rfl : (s.carrier (keyOf o)).getD Carrier.blank = old := by rw [hold]; rfl
  refine State.takeOrderWith_takes ht (evenCount_le hc) hc tests ?_ rfl
  dsimp only
  split <;> rfl

/-! ## What the engine leaves alone -/

/-- A property that changes of carriers and of the engine keep, and a Check Queue that does not grow. -/
structure Checks (P : State → Prop) : Prop where
  modCarrier : ∀ {s : State} {k : Nat} {f : Carrier → Carrier}, P s → P (s.modCarrier k f)
  withChecks : ∀ {s : State} {q : List Nat} {e : Option Check}, q.length ≤ s.checkQueue.length → P s →
    P { s with checkQueue := q, engine := e }

section
variable {P : State → Prop}

theorem Checks.enterConflict (hc : Checks P) {s : State} (h : P s) (c : Nat) (kind : ConflictKind) (list : List Nat) :
    P (s.enterConflict c kind list) := hc.modCarrier (hc.modCarrier h)

theorem Checks.beginCheck (hc : Checks P) {s : State} (h : P s) (c : Nat) : P (s.beginCheck c) := by
  rcases s.beginCheck_cases c with ⟨e, he⟩ | ⟨kind, he⟩
  · rw [he]
    exact hc.withChecks (q := s.checkQueue) le_rfl h
  · rw [he]
    exact hc.enterConflict h _ _ _

theorem Checks.nextCandidate (hc : Checks P) {s t : State} {c : Nat} (h : P s) (hn : s.nextCandidate = some (c, t)) : P t := by
  unfold State.nextCandidate at hn
  split at hn
  · rename_i rest queue
    cases hn
    exact hc.withChecks (e := s.engine) (by rw [queue]; exact Nat.le_succ _) h
  · split at hn
    · split at hn
      · cases hn
      · cases hn
        exact hc.modCarrier h
    · cases hn

theorem Checks.engineTakes (hc : Checks P) (n : Nat) {s : State} (h : P s) : P (engineTakes n s) := by
  induction n generalizing s with
  | zero => exact h
  | succ n ih =>
    rw [Machine.engineTakes]
    split
    · exact h
    · split
      · exact h
      · next hn => exact ih (hc.beginCheck (hc.nextCandidate h hn) _)

theorem Checks.engineLooks (hc : Checks P) {s : State} (h : P s) : P s.engineLooks := by
  unfold State.engineLooks
  split
  · exact hc.engineTakes _ h
  · exact h

theorem Checks.leaveChecking (hc : Checks P) {s : State} (h : P s) (c : Nat) : P (s.leaveChecking c) :=
  hc.withChecks (List.length_filter_le _ _) (hc.modCarrier h)

theorem Checks.placementChange (hc : Checks P) {s : State} (h : P s) (c : Nat) (fresh : Bool) :
    P (s.placementChange c fresh) :=
  hc.modCarrier (hc.leaveChecking h c)

theorem Checks.cancel (hc : Checks P) {s : State} (h : P s) (c : Nat) : P (s.cancel c) :=
  hc.modCarrier (hc.leaveChecking h c)

end

/-- Nothing but the carriers, the Check Queue and the engine differs. -/
def OnlyChecks (s t : State) : Prop :=
  t = { s with carriers := t.carriers, checkQueue := t.checkQueue, engine := t.engine }

theorem OnlyChecks.refl (s : State) : OnlyChecks s s := rfl

theorem OnlyChecks.checks (r : State) : Checks (OnlyChecks r) where
  modCarrier h := by unfold OnlyChecks at *; rw [h]; rfl
  withChecks _ h := by unfold OnlyChecks at *; rw [h]

theorem OnlyChecks.joinQueue (s : State) (c : Nat) : OnlyChecks s (s.joinQueue c) := rfl

/-- What an order on a carrier's check leaves alone, its answer given. -/
theorem OnlyChecks.besideCarriers {s u t : State} (h : OnlyChecks u t) (hs : s.besideCarriers u) (r : Reply) :
    s.besideCarriers (t.answer r) := by
  unfold OnlyChecks at h
  rw [h]
  obtain ⟨windows, stations, galleries, conferences, settings, queue, finals, machine⟩ := hs
  refine ⟨windows, stations, galleries, conferences, settings, queue, finals, ?_⟩
  cases machine
  constructor <;> assumption

theorem State.besideCarriers_begun (s : State) (o : Order) : s.besideCarriers (s.begun o) := by
  refine ⟨rfl, rfl, rfl, rfl, rfl, rfl, rfl, ?_⟩
  constructor <;> rfl

theorem State.besideCarriers_putCarrier (s : State) (o : Order) (k : Nat) (y : Carrier) :
    s.besideCarriers ((s.begun o).putCarrier k y) := by
  refine ⟨rfl, rfl, rfl, rfl, rfl, rfl, rfl, ?_⟩
  constructor <;> rfl

/-! ## A carrier that waits for no check -/

/-- A carrier that stands in no place of the checks: it is not in the Check Queue, not under the engine, and waits for no
restore pass; no record is damaged. -/
structure State.spares (s : State) (c : Nat) (y : Carrier) : Prop where
  sound : s.badCodes = []
  table : s.carriers.wf = true
  carrier : s.carrier c = some y
  idle : y.restorePending = false
  unqueued : c ∉ s.checkQueue
  unchecked : s.engine.map Check.carrier ≠ some c

/-- The engine's next candidate is another carrier, and that one stays as it was (R32). -/
theorem State.spares.nextCandidate {s t : State} {c d : Nat} {y : Carrier} (h : s.spares c y)
    (hn : s.nextCandidate = some (d, t)) : c ≠ d ∧ t.spares c y := by
  rw [State.nextCandidate_sound h.sound] at hn
  cases hq : s.checkQueue with
  | cons e rest =>
    rw [hq] at hn
    obtain ⟨rfl, rfl⟩ := Prod.mk.inj (Option.some.inj hn)
    have out := h.unqueued
    rw [hq, List.mem_cons, not_or] at out
    exact ⟨out.1, h.sound, h.table, h.carrier, h.idle, out.2, h.unchecked⟩
  | nil =>
    rw [hq] at hn
    obtain ⟨p, hp, he⟩ := Option.map_eq_some_iff.1 hn
    obtain ⟨rfl, rfl⟩ := Prod.mk.inj he
    have pending : p.2.restorePending = true := List.find?_some (p := fun q : Nat × Carrier => q.2.restorePending) hp
    have held := (Table.mem_records h.table _ _).1 (List.mem_of_find?_eq_some hp)
    have other : c ≠ p.1 := by
      rintro rfl
      have same : some p.2 = some y := held.symm.trans h.carrier
      rw [Option.some.inj same, h.idle] at pending
      cases pending
    exact ⟨other, h.sound, Table.wf_modify h.table _ _, by rw [State.carrier_modCarrier, if_neg other, h.carrier], h.idle,
      h.unqueued, h.unchecked⟩

theorem State.spares.beginCheck {s : State} {c d : Nat} {y : Carrier} (h : s.spares c y) (hne : c ≠ d) :
    (s.beginCheck d).spares c y := by
  have kept := State.beginCheck_carrier_ne (s := s) hne
  have engine : (s.beginCheck d).engine = s.engine ∨ ∃ k, (s.beginCheck d).engine = some k ∧ k.carrier = d := by
    unfold State.beginCheck
    split
    · exact .inl rfl
    · split
      · exact .inr ⟨_, rfl, rfl⟩
      · split
        · exact .inl rfl
        · exact .inr ⟨_, rfl, rfl⟩
  have unchecked : (s.beginCheck d).engine.map Check.carrier ≠ some c := by
    rcases engine with he | ⟨k, he, hk⟩
    · rw [he]
      exact h.unchecked
    · rw [he, Option.map_some, hk]
      exact fun hcd => hne (Option.some.inj hcd).symm
  have rest : (s.beginCheck d).badCodes = [] ∧ (s.beginCheck d).carriers.wf = true ∧ c ∉ (s.beginCheck d).checkQueue := by
    rcases s.beginCheck_cases d with ⟨e, he⟩ | ⟨kind, he⟩
    · rw [he]
      exact ⟨h.sound, h.table, h.unqueued⟩
    · rw [he]
      exact ⟨h.sound, Table.wf_modify (Table.wf_modify h.table _ _) _ _, h.unqueued⟩
  exact ⟨rest.1, rest.2.1, kept.trans h.carrier, h.idle, rest.2.2, unchecked⟩

theorem State.spares.engineTakes {c : Nat} {y : Carrier} (n : Nat) {s : State} (h : s.spares c y) :
    (engineTakes n s).spares c y := by
  induction n generalizing s with
  | zero => exact h
  | succ n ih =>
    rw [Machine.engineTakes]
    split
    · exact h
    · split
      · exact h
      · next hn =>
        obtain ⟨hne, ht⟩ := h.nextCandidate hn
        exact ih (ht.beginCheck hne)

theorem State.spares.engineLooks {s : State} {c : Nat} {y : Carrier} (h : s.spares c y) : s.engineLooks.spares c y := by
  unfold State.engineLooks
  split
  · exact h.engineTakes _
  · exact h

/-- A carrier that leaves the checks stands in none of their places (R22, R25). -/
theorem State.leaveChecking_spares {s : State} {c : Nat} {y : Carrier} (hb : s.badCodes = []) (hwf : s.carriers.wf = true)
    (hy : s.carrier c = some y) : (s.leaveChecking c).spares c { y with restorePending := false } where
  sound := hb
  table := Table.wf_modify hwf _ _
  carrier := by
    show (s.modCarrier c _).carrier c = _
    rw [State.carrier_modCarrier, if_pos rfl, hy]
    rfl
  idle := rfl
  unqueued := by simp [State.leaveChecking]
  unchecked := by
    simp only [State.leaveChecking, State.modCarrier_engine]
    cases s.engine with
    | none => nofun
    | some k => by_cases hk : k.carrier = c <;> simp [hk]

/-- A change of the carrier itself, which still waits for no restore pass. -/
theorem State.spares.modCarrier {s : State} {c : Nat} {y : Carrier} (h : s.spares c y) (f : Carrier → Carrier)
    (hf : (f y).restorePending = false) : (s.modCarrier c f).spares c (f y) where
  sound := h.sound
  table := Table.wf_modify h.table _ _
  carrier := by rw [State.carrier_modCarrier, if_pos rfl, h.carrier]; rfl
  idle := hf
  unqueued := h.unqueued
  unchecked := h.unchecked

theorem State.placementChange_spares {s : State} {c : Nat} {y : Carrier} (hb : s.badCodes = []) (hwf : s.carriers.wf = true)
    (hy : s.carrier c = some y) (fresh : Bool) : (s.placementChange c fresh).spares c { y with
      state := .proposed
      conflict := none
      restorePending := false
      cleanScore := if fresh then none else y.cleanScore
      cleanAge := if fresh then none else y.cleanAge } :=
  (State.leaveChecking_spares hb hwf hy).modCarrier _ rfl

theorem State.cancel_spares {s : State} {c : Nat} {y : Carrier} (hb : s.badCodes = []) (hwf : s.carriers.wf = true)
    (hy : s.carrier c = some y) :
    (s.cancel c).spares c { y with state := .proposed, conflict := none, restorePending := false } :=
  (State.leaveChecking_spares hb hwf hy).modCarrier _ rfl

/-! ## Alternates that are gone -/

theorem State.alternateGone_eq (s : State) (c : Nat) :
    s.alternateGone c = { s with
      carriers := s.carriers.modifyAll ((s.carriers.records.filter (fun p => p.1 != c && p.2.alternate = some c)).map (·.1))
        (fun y => { y with alternate := none, mark := addReason 13 y.mark }) } := by
  rw [State.alternateGone, ← State.forEach_modCarrier]
  congr 1
  funext t k
  exact congrArg (fun cs => { t with carriers := cs }) (Table.modify_modify t.carriers k _ _)

end Sys2Proof.Machine

namespace Sys2Proof
open Machine

/-- Settles O19. -/
theorem defineAndRetireCarrier : Obligations.DefineAndRetireCarrier := by
  refine ⟨fun o s => ?_, fun o s => ?_, fun o s ha h1 h128 hp hwf hc => ?_⟩
  · intro words y ha h1 h128 hn hc hf hr hm hw hi
    obtain ⟨ht, hright, hplan⟩ := ha
    have tests : firstFailing (s.carrierRights o (keyOf o) y.window ++
        [failIf (!carrierKey (keyOf o)) .key 1, failIf (s.carrier (keyOf o)).isSome .key 2] ++ s.holds o ++
        s.carrierRecordTests (pairsOf o.params) words y []) = none :=
      passes_append (passes_append (passes_append
        (State.passes_carrierRights hright (fun _ h => by rw [hn] at h; cases h) hm)
        (passes_cons (by simp [carrierKey, h1, h128]) (passes_cons (by simp [hn]) firstFailing_nil)))
        (State.passes_holds hplan)) (State.passes_carrierRecordTests hf hr hw firstFailing_nil hi)
    exact congrArg Host.Outcome.next (State.takeOrder_takes ht (evenCount_le hc) hc tests rfl rfl)
  · intro words y ha h1 h128 hn hc hf hr hm hw
    obtain ⟨ht, hright, hplan⟩ := ha
    have before : firstFailing (s.carrierRights o (keyOf o) y.window ++
        [failIf (!carrierKey (keyOf o)) .key 1, failIf (s.carrier (keyOf o)).isSome .key 2] ++ s.holds o) = none :=
      passes_append (passes_append
        (State.passes_carrierRights hright (fun _ h => by rw [hn] at h; cases h) hm)
        (passes_cons (by simp [carrierKey, h1, h128]) (passes_cons (by simp [hn]) firstFailing_nil)))
        (State.passes_holds hplan)
    exact congrArg Host.Outcome.next (State.takeOrder_refuses ht (evenCount_le hc) hc
      ((firstFailing_append before _).trans (State.carrierRecordTests_windowless hf hr hw)))
  · obtain ⟨ht, hright, hplan⟩ := ha
    have named : (s.carriers.slot (keyOf o)).isNone = false ∧
        claimFree o ((s.carrier (keyOf o)).bind Carrier.claim) ∧
        (∀ y, s.carrier (keyOf o) = some y → s.maskPermits o y.window) ∧
        ((s.carrier (keyOf o)).bind Carrier.bound).isSome = false ∧
        decide ((s.carrier (keyOf o)).map Carrier.state = some .checking) = false := by
      rcases hc with ⟨y, hy, hclaim, hm, hb, hs⟩ | ⟨m, hm⟩
      · have slot := Table.slot_isSome_of_get hy
        refine ⟨by simpa using slot, by simpa [hy] using hclaim, fun z hz => ?_, by simp [hy, hb], by simp [hy, hs]⟩
        rw [hy] at hz
        cases hz
        exact hm
      · have hy : s.carrier (keyOf o) = none := by simp [State.carrier, Table.get, hm]
        exact ⟨by simp [hm], by simp [hy, claimFree], fun z hz => (by rw [hy] at hz; cases hz), by simp [hy], by simp [hy]⟩
    obtain ⟨slot, claim, mask, bound, checking⟩ := named
    have tests : firstFailing (s.carrierRights o (keyOf o) none ++
        [failIf (!carrierKey (keyOf o) || (s.carriers.slot (keyOf o)).isNone) .key 1,
          claimHold o ((s.carrier (keyOf o)).bind Carrier.claim)] ++ s.holds o ++
        [failIf ((s.carrier (keyOf o)).bind Carrier.bound).isSome .state 12,
          failIf ((s.carrier (keyOf o)).map Carrier.state = some .checking) .state 13]) = none :=
      passes_append (passes_append (passes_append
        (State.passes_carrierRights hright mask (State.maskPermits_none s o))
        (passes_cons (by simp [carrierKey, h1, h128, slot]) (passes_cons (claimHold_fst claim) firstFailing_nil)))
        (State.passes_holds hplan)) (passes_cons bound (passes_cons checking firstFailing_nil))
    have wf := Table.wf_erase hwf (keyOf o)
    refine ⟨_, congrArg Host.Outcome.next (State.takeOrder_takes ht (length_of_noParams hp) (by simp [hp]) tests
      (congrArg State.carrierChanged (State.alternateGone_eq _ _)) rfl), ?_, fun c hc => ?_, rfl⟩
    · refine (Table.slot_modifyAll _ _ _ ?_).trans (by simp)
      simp [List.mem_map]
    · refine (Table.get_modifyAll_records wf _ _ c).trans ?_
      show Option.map _ ((s.carriers.erase (keyOf o)).get c) = _
      rw [Table.get_erase, if_neg hc]
      simp [State.carrier, hc]

/-- Settles O20. -/
theorem editCarrier : Obligations.EditCarrier := by
  intro o s old words new fresh placement ha hold hclaim hc hf hr hm hmn hw hi
  obtain ⟨ht, hright, hplan⟩ := ha
  have mask : ∀ y, s.carrier (keyOf o) = some y → s.maskPermits o y.window := by
    intro y hy
    rw [hold] at hy
    cases hy
    exact hm
  have edited : (placement && old.state.placed) = false → exec (.editCarrier o) s = .next ((if placement
      then (((s.begun o).putCarrier (keyOf o) new).placementChange (keyOf o) fresh).engineLooks
      else (s.begun o).putCarrier (keyOf o) new).answer (doneReply o)) := by
    intro own
    refine congrArg Host.Outcome.next (State.editCarrier_takes ht hold hc rfl rfl rfl rfl ?_)
    exact passes_append (passes_append (passes_append
      (State.passes_carrierRights hright mask (by rw [hold]; exact hmn))
      (passes_cons (by simp [hold]) (passes_cons (claimHold_fst hclaim) firstFailing_nil)))
      (State.passes_holds hplan)) (State.passes_carrierRecordTests hf hr hw (passes_cons own firstFailing_nil) hi)
  refine ⟨fun hp => ?_, fun hp h1 h2 h3 hwf => ?_⟩
  · rw [edited (by rw [hp]; rfl), hp]
    rfl
  · have placed : old.state.placed = false := by
      cases hs : old.state with
      | assigned => exact absurd hs h1
      | standby => exact absurd hs h2
      | blocked => exact absurd hs h3
      | _ => rfl
    have spared := (State.placementChange_spares (s := (s.begun o).putCarrier (keyOf o) new) ht.2.2 (Table.wf_put hwf _ _)
      (Table.get_put_self s.carriers _ _) fresh).engineLooks
    have only := (OnlyChecks.checks _).engineLooks ((OnlyChecks.checks _).placementChange
      (OnlyChecks.refl ((s.begun o).putCarrier (keyOf o) new)) (keyOf o) fresh)
    refine ⟨_, edited (by rw [placed, Bool.and_false]), ?_⟩
    rw [hp, if_pos rfl]
    refine ⟨spared.carrier, spared.unqueued, spared.unchecked, ?_,
      only.besideCarriers (s.besideCarriers_putCarrier o _ _) _, rfl⟩
    show State.storeStates (State.engineLooks _) = _
    rw [show _ = _ from only]
    rfl

end Sys2Proof
end

section
/-! CHECK, CANCEL CHECK, BLOCK and UNBLOCK of a carrier (R24 to R28). -/

namespace Sys2Proof.Machine

/-! ## Actions on a carrier -/

/-- An order that admits an action on a carrier (R20). -/
structure State.actsOn (s : State) (o : Order) (y : Carrier) : Prop where
  admitted : s.admits o .carrier
  carrier : s.carrier (keyOf o) = some y
  free : claimFree o y.claim
  mask : s.maskPermits o y.window
  words : o.params = []

theorem State.actsOn.state {s : State} {o : Order} {y : Carrier} (h : s.actsOn o y) : s.carrierState (keyOf o) = y.state := by
  simp [State.carrierState, h.carrier]

/-- An action whose own tests pass has its effect. -/
theorem State.carrierAction_takes {s : State} {o : Order} {y : Carrier} (h : s.actsOn o y) {own : List Check1}
    (hown : firstFailing own = none) {verb : Nat} {f : State → State} {u : State} (hu : f (s.begun o) = u) :
    s.carrierAction o verb own f = u.answer (doneReply o) :=
  State.takeOrder_takes h.admitted.1 (length_of_noParams h.words) (by simp [h.words])
    (State.passes_carrierActionTests h.admitted h.carrier h.free h.mask hown) hu rfl

/-- An action whose own tests fail is refused. -/
theorem State.carrierAction_refuses {s : State} {o : Order} {y : Carrier} (h : s.actsOn o y) {own : List Check1} {st : Status}
    {d : Nat} {ws : List Word} (hown : firstFailing own = some ⟨st, d, ws⟩) {verb : Nat} {f : State → State} :
    s.carrierAction o verb own f = s.answered o st d ws := by
  have shared := State.passes_carrierActionTests (own := []) h.admitted h.carrier h.free h.mask firstFailing_nil
  rw [State.carrierActionTests, List.append_nil] at shared
  exact State.takeOrder_refuses h.admitted.1 (length_of_noParams h.words) (by simp [h.words])
    ((firstFailing_append shared own).trans hown)

/-- An action after which the engine looks for a candidate. -/
theorem State.checkAction_takes {s : State} {o : Order} {y : Carrier} (h : s.actsOn o y) {own : List Check1}
    (hown : firstFailing own = none) {verb : Nat} {f : State → State} :
    s.checkAction o verb own f = (f (s.begun o)).engineLooks.answer (doneReply o) :=
  State.takeOrderWith_takes h.admitted.1 (length_of_noParams h.words) (by simp [h.words])
    (State.passes_carrierActionTests h.admitted h.carrier h.free h.mask hown) rfl rfl

/-- A change of a carrier that exists. -/
theorem State.modCarrier_of {s : State} {c : Nat} {y : Carrier} (h : s.carrier c = some y) (f : Carrier → Carrier) :
    s.modCarrier c f = { s with carriers := s.carriers.put c (f y) } :=
  congrArg (fun t => { s with carriers := t }) (Table.modify_of_get h f)

/-- A change of a station that exists. -/
theorem State.modStation_of {s : State} {k : Nat} {x : Station} (h : s.station k = some x) (f : Station → Station) :
    s.modStation k f = { s with stations := s.stations.put k (f x) } :=
  congrArg (fun t => { s with stations := t }) (Table.modify_of_get h f)

/-! ## CHECK and CANCEL CHECK -/

/-- A busy engine does not look. -/
theorem State.engineLooks_busy {s : State} (h : s.engine.isSome = true) : s.engineLooks = s := by
  unfold State.engineLooks
  split
  · exact engineTakes_busy h _
  · rfl

/-- The order joins the queue of checks. -/
theorem State.checkCarrier_takes {s : State} {o : Order} {y : Carrier} (h : s.actsOn o y)
    (hst : y.state = .proposed ∨ y.state = .conflict) (hq : s.checkQueue.length < 16) :
    exec (.checkCarrier o) s = .next (((s.begun o).joinQueue (keyOf o)).engineLooks.answer (doneReply o)) := by
  have own : firstFailing [failIf (s.carrierState (keyOf o) = .checking) .state 5,
      failIf (s.carrierState (keyOf o)).committed .state 6,
      failIf (Config.checkQueueSize ≤ s.checkQueue.length) .full 1] = none := by
    have room : ¬ Config.checkQueueSize ≤ s.checkQueue.length := Nat.not_le.2 hq
    rcases hst with hst | hst <;> simp [h.state, hst, room, CarrierState.committed]
  exact congrArg Host.Outcome.next (State.checkAction_takes h own)

theorem State.engineLooks_eq {s : State} (hs : s.service = .inService) (hl : s.load = .none) :
    s.engineLooks = engineTakes 145 s := by
  simp [State.engineLooks, State.tablesDown, hs, hl]

/-- An idle engine takes the head of the Check Queue; when its window stage fails the check ends at once, and the engine
takes the next (R33). -/
theorem State.engineLooks_refuses {s : State} {c : Nat} {rest : List Nat} {y : Carrier} {kind : ConflictKind}
    (hb : s.badCodes = []) (hs : s.service = .inService) (hl : s.load = .none) (he : s.engine = none)
    (hq : s.checkQueue = c :: rest) (hy : s.carrier c = some y) (hw : s.windowStage y = some kind) :
    s.engineLooks = engineTakes 144 (State.enterConflict { s with checkQueue := rest } c kind []) := by
  have next : s.nextCandidate = some (c, { s with checkQueue := rest }) := by
    rw [State.nextCandidate_sound hb, hq]
  have begun : State.beginCheck { s with checkQueue := rest } c =
      State.enterConflict { s with checkQueue := rest } c kind [] := by
    rw [State.beginCheck_sound (s := { s with checkQueue := rest }) hb hy]
    have stage : State.windowStage { s with checkQueue := rest } y = some kind := hw
    rw [stage]
  have idle : ¬ s.engine.isSome = true := by simp [he]
  rw [State.engineLooks_eq hs hl, engineTakes, if_neg idle, next]
  show engineTakes 144 (State.beginCheck { s with checkQueue := rest } c) = _
  rw [begun]

/-- A carrier that joins the empty Check Queue of an idle engine, and whose window stage fails, ends in Conflict (R33). -/
theorem State.joinQueue_refused {s : State} {c : Nat} {y : Carrier} {kind : ConflictKind} (hb : s.badCodes = [])
    (hs : s.service = .inService) (hl : s.load = .none) (he : s.engine = none) (hq : s.checkQueue = [])
    (hy : s.carrier c = some y) (hw : s.windowStage y = some kind) (hwf : s.carriers.wf = true)
    (hr : y.restorePending = false) :
    (s.joinQueue c).engineLooks.carrier c =
      some { y with state := .conflict, conflict := some (kind, []), mark := addReason 1 y.mark } := by
  have waiting := State.joinQueue_carrier hy
  have queue : (s.joinQueue c).checkQueue = [c] := congrArg (· ++ [c]) hq
  have clean : State.looksClean { s.joinQueue c with checkQueue := [] } := ⟨hb, rfl, Table.wf_modify hwf _ _⟩
  rw [State.engineLooks_refuses (s := s.joinQueue c) hb hs hl he queue waiting hw]
  refine engineTakes_carrier (y := { y with state := .conflict, conflict := some (kind, []), mark := addReason 1 y.mark })
    hr 144 (State.looksClean_broad.enterConflict clean c kind []) ?_
  exact State.enterConflict_carrier (s := { s.joinQueue c with checkQueue := [] }) waiting kind []

/-! ## BLOCK and UNBLOCK -/

theorem State.boundStation_of {s : State} {c n : Nat} {role : Role} {y : Carrier} {x : Station}
    (hy : s.carrier c = some y) (hb : y.bound = some (n, role)) (hx : s.station n = some x) :
    s.boundStation c = some (n, x) := by
  simp [State.boundStation, hy, hb, hx]

theorem State.boundStation_none {s : State} {c : Nat} {y : Carrier} (hy : s.carrier c = some y) (hb : y.bound = none) :
    s.boundStation c = none := by
  simp [State.boundStation, hy, hb]

/-- A Cleared carrier becomes Blocked (R26). -/
theorem State.block_cleared {s : State} {c : Nat} {y : Carrier} (hy : s.carrier c = some y) (hst : y.state = .cleared) :
    s.block c = { s with carriers := s.carriers.put c { y with state := .blocked, alternate := none } } := by
  have state : s.carrierState c = .cleared := by simp [State.carrierState, hy, hst]
  unfold State.block
  rw [state]
  exact State.modCarrier_of hy _

theorem State.heardClean_modCarrier (s : State) (c d : Nat) {f : Carrier → Carrier}
    (hf : ∀ y, (f y).cleanScore = y.cleanScore ∧ (f y).cleanAge = y.cleanAge) :
    (s.modCarrier c f).heardClean d = s.heardClean d := by
  unfold State.heardClean
  rw [State.carrier_modCarrier]
  by_cases hd : d = c
  · rw [if_pos hd]
    cases s.carrier d with
    | none => rfl
    | some y =>
      simp only [Option.map_some, hf y]
      rfl
  · rw [if_neg hd]
    rfl

/-- A Standby carrier becomes Blocked, and the recovery run of its station begins if it is heard clean (R26, R70). -/
theorem State.block_standby {s : State} {c n : Nat} {role : Role} {y : Carrier} {x : Station} (hy : s.carrier c = some y)
    (hst : y.state = .standby) (hb : y.bound = some (n, role)) (hx : s.station n = some x) :
    s.block c = { s with
      carriers := s.carriers.put c { y with state := .blocked, alternate := none }
      stations := s.stations.put n { x with recoveryRun := if s.heardClean c then some 0 else none } } := by
  have state : s.carrierState c = .standby := by simp [State.carrierState, hy, hst]
  unfold State.block
  rw [state, State.boundStation_of hy hb hx]
  show (s.modCarrier c _).beginRecovery n c = _
  rw [State.beginRecovery, State.modStation_of (s := s.modCarrier c _) hx, State.heardClean_modCarrier, State.modCarrier_of hy]
  exact fun _ => ⟨rfl, rfl⟩

/-- An Assigned carrier starts an Operator switch (R27). -/
theorem State.block_assigned {s : State} {c n : Nat} {role : Role} {y : Carrier} {x : Station} (hy : s.carrier c = some y)
    (hst : y.state = .assigned) (hb : y.bound = some (n, role)) (hx : s.station n = some x) :
    s.block c = s.startSwitch n .operator true := by
  have state : s.carrierState c = .assigned := by simp [State.carrierState, hy, hst]
  unfold State.block
  rw [state, State.boundStation_of hy hb hx]

/-- An unbound carrier that leaves Blocked is Cleared (R28). -/
theorem State.unblock_unbound {s : State} {c : Nat} {y : Carrier} (hy : s.carrier c = some y) (hb : y.bound = none) :
    s.unblock c = { s with carriers := s.carriers.put c { y with state := .cleared, alternate := none } } := by
  have cleared : (if y.bound.isSome then CarrierState.standby else CarrierState.cleared) = .cleared := by rw [hb]; rfl
  unfold State.unblock
  rw [State.boundStation_none hy hb]
  dsimp only
  rw [State.modCarrier_of hy, cleared]

/-- A bound carrier that leaves Blocked is Standby, and the recovery run of its station stops (R28, R70). -/
theorem State.unblock_bound {s : State} {c n : Nat} {role : Role} {y : Carrier} {x : Station} (hy : s.carrier c = some y)
    (hb : y.bound = some (n, role)) (hx : s.station n = some x) :
    s.unblock c = { s with
      carriers := s.carriers.put c { y with state := .standby, alternate := none }
      stations := s.stations.put n { x with recoveryRun := none } } := by
  have standby : (if y.bound.isSome then CarrierState.standby else CarrierState.cleared) = .standby := by rw [hb]; rfl
  unfold State.unblock
  rw [State.boundStation_of hy hb hx]
  dsimp only
  rw [State.stopRecovery, State.modStation_of (s := s.modCarrier c _) hx, State.modCarrier_of hy, standby]

/-- The tests of BLOCK CARRIER. -/
def State.blockTests (s : State) (o : Order) : List Check1 :=
  let st := s.carrierState (keyOf o)
  let holder := (s.boundStation (keyOf o)).map (·.2)
  [s.airHold o (st = .assigned && holder.map Station.tally = some .live),
    failIf (!st.blockable) .state 8,
    failIf (st = .standby && holder.map Station.link = some .switching) .state 9,
    failIf (st = .assigned &&
      !(match holder with | some x => x.link.upOrWeak && s.usableStandby x | none => false)) .state 10]

/-- A switch of a station to its standby, started by an order or by a fallback, changes its core as R64 says. -/
theorem Changed.startSwitch {s t : State} {k : Nat} {f : Station → Station} (h : Changed s t k f) {c : Nat} {x : Station}
    {z : Carrier} (hx : t.station k = some x) (hs : x.standby = some c) (hz : t.carrier c = some z) (kind : SwitchKind)
    (block : Bool) : Changed s (t.startSwitch k kind block) k (fun x => { f x with
      switchKind := some kind
      blockOutgoing := some block
      token := nextToken (f x).token
      attempts := 1
      tuneTimer := some 0
      wanted := ⟨some z.frequency, z.cls, (f x).power, false, nextToken (f x).token⟩
      link := .switching }) := by
  have standby : (t.station k).bind Station.standby = some c := by rw [hx]; exact hs
  unfold State.startSwitch
  rw [standby]
  have prepared := h.modStation (g := fun x => { x with switchKind := some kind, blockOutgoing := some block }) (by
    intro a b hab
    simp only [Station.core, Station.mk.injEq] at hab ⊢
    simp [hab])
  exact ((prepared.tuneTo (y := z) hz 1 true).setLink .switching).congr (fun _ _ => rfl)

/-- What an order on a station leaves alone, its answer given. -/
theorem Only.besideStations {s u t : State} (h : Only u t) (hs : s.besideStations u) (r : Reply) :
    s.besideStations (t.answer r) := by
  unfold Only at h
  rw [h]
  obtain ⟨windows, galleries, settings, checkQueue, engine, machine⟩ := hs
  refine ⟨windows, galleries, settings, checkQueue, engine, ?_⟩
  cases machine
  constructor <;> assumption

theorem State.besideStations_begun (s : State) (o : Order) : s.besideStations (s.begun o) := by
  refine ⟨rfl, rfl, rfl, rfl, rfl, ?_⟩
  constructor <;> rfl

end Sys2Proof.Machine

namespace Sys2Proof
open Machine

/-- Settles O21. -/
theorem checkAndCancel : Obligations.CheckAndCancel := by
  intro o s y ha hy hc hm hp
  have acts : s.actsOn o y := ⟨ha, hy, hc, hm, hp⟩
  have sound : s.badCodes = [] := ha.1.2.2
  have held : (s.begun o).carrier (keyOf o) = some y := hy
  refine ⟨fun hst hq => ⟨fun he => ?_, fun he hempty hl hw => ?_, fun kind he hempty hl hw hwf hr => ?_⟩, fun hst hwf => ?_⟩
  · have busy : ((s.begun o).joinQueue (keyOf o)).engine.isSome = true := Option.isSome_iff_ne_none.2 he
    rw [State.checkCarrier_takes acts hst hq, State.engineLooks_busy busy, State.joinQueue, State.modCarrier_of held]
    rfl
  · rw [State.checkCarrier_takes acts hst hq,
      State.joinQueue_engineLooks (s := s.begun o) ha.1.1 hl sound he hempty held hw]
    rfl
  · refine ⟨_, State.checkCarrier_takes acts hst hq,
      State.joinQueue_refused (s := s.begun o) sound ha.1.1 hl he hempty held hw hwf hr, ?_, rfl⟩
    exact ((OnlyChecks.checks _).engineLooks (OnlyChecks.joinQueue _ _)).besideCarriers
      (s.besideCarriers_begun o) _
  · have own : firstFailing [failIf (s.carrierState (keyOf o) != .checking) .state 7] = none := by
      simp [acts.state, hst]
    have spared := (State.cancel_spares (s := s.begun o) sound hwf held).engineLooks
    refine ⟨_, congrArg Host.Outcome.next (State.checkAction_takes acts own), spared.carrier, spared.unqueued,
      spared.unchecked, ?_, rfl⟩
    exact ((OnlyChecks.checks _).engineLooks ((OnlyChecks.checks _).cancel (OnlyChecks.refl _) _)).besideCarriers
      (s.besideCarriers_begun o) _

/-- Settles O22. -/
theorem blockCarrier : Obligations.BlockCarrier := by
  intro o s y ha hy hc hm hp
  have acts : s.actsOn o y := ⟨ha, hy, hc, hm, hp⟩
  have held : (s.begun o).carrier (keyOf o) = some y := hy
  have taken : ∀ u, firstFailing (s.blockTests o) = none → (s.begun o).block (keyOf o) = u →
      exec (.blockCarrier o) s = .next (u.answer (doneReply o)) :=
    fun u own hu => congrArg Host.Outcome.next (State.carrierAction_takes acts own hu)
  refine ⟨fun hst => ?_, fun n role x hst hb hx hl => ?_, fun n role x c z hst hb hx hl hs hz hzs hair => ?_⟩
  · refine (taken _ ?_ (State.block_cleared held hst)).trans rfl
    simp [State.blockTests, acts.state, hst, State.airHold, CarrierState.blockable]
  · have station := State.boundStation_of hy hb hx
    refine (taken _ ?_ (State.block_standby held hst hb (x := x) hx)).trans rfl
    simp [State.blockTests, acts.state, hst, station, hl, State.airHold, CarrierState.blockable]
  · have station := State.boundStation_of hy hb hx
    have own : firstFailing (s.blockTests o) = none := by
      have link : x.link.upOrWeak = true := by rcases hl with h | h <;> rw [h] <;> rfl
      have usable : s.usableStandby x = true := by simp [State.usableStandby, hs, hz, hzs]
      rcases hair with h | h <;>
        simp [State.blockTests, acts.state, hst, station, State.airHold, CarrierState.blockable, link, usable, h]
    have switched := (Changed.refl (s.begun o) n).startSwitch (x := x) hx hs (z := z) hz .operator true
    obtain ⟨v, hv, core⟩ := switched.core x hx
    exact ⟨_, v, taken _ own (State.block_assigned held hst hb (x := x) hx), hv, core, switched.others,
      switched.marks, switched.only.besideStations (s.besideStations_begun o) _, switched.only.storeStates, rfl⟩

/-- Settles O23. -/
theorem unblockCarrier : Obligations.UnblockCarrier := by
  intro o s y ha hy hc hm hp
  have acts : s.actsOn o y := ⟨ha, hy, hc, hm, hp⟩
  have held : (s.begun o).carrier (keyOf o) = some y := hy
  have taken : ∀ u, y.state = .blocked → (s.begun o).unblock (keyOf o) = u →
      exec (.unblockCarrier o) s = .next (u.answer (doneReply o)) :=
    fun u hst hu => congrArg Host.Outcome.next (State.carrierAction_takes acts (by simp [acts.state, hst]) hu)
  refine ⟨fun hst hb => (taken _ hst (State.unblock_unbound held hb)).trans rfl,
    fun n role x hst hb hx => (taken _ hst (State.unblock_bound held hb (x := x) hx)).trans rfl, fun hst => ?_⟩
  refine congrArg Host.Outcome.next (State.carrierAction_refuses acts (st := .state) (d := 11) (ws := []) ?_)
  simp [acts.state, hst]

end Sys2Proof
end

section
/-! The end of a check (R37, R38), the engine's next candidate (R32), and the settings orders (R30, R55, R126). -/

namespace Sys2Proof.Machine

/-! ## The result of a check -/

theorem State.modCarrier_mark {s : State} {c : Nat} {y : Carrier} (hy : s.carrier c = some y) (f : Carrier → Carrier) (r : Nat) :
    (s.modCarrier c f).markCarrier c r =
      { s with carriers := s.carriers.put c { f y with mark := addReason r (f y).mark } } := by
  have held : (s.modCarrier c f).carrier c = some (f y) := by
    rw [State.carrier_modCarrier, if_pos rfl, hy]
    rfl
  rw [State.markCarrier, State.modCarrier_of held, State.modCarrier_of hy]
  simp only [Table.put_put]

theorem State.modStation_mark {s : State} {k : Nat} {x : Station} (hx : s.station k = some x) (f : Station → Station) (r : Nat) :
    (s.modStation k f).markStation k r =
      { s with stations := s.stations.put k { f x with mark := addReason r (f x).mark } } := by
  have held : (s.modStation k f).station k = some (f x) := State.station_of_mod hx f
  rw [State.markStation, State.modStation_of held, State.modStation_of hx]
  simp only [Table.put_put]

theorem State.enterConflict_eq {s : State} {c : Nat} {y : Carrier} (hy : s.carrier c = some y) (kind : ConflictKind)
    (list : List Nat) : s.enterConflict c kind list = { s with carriers := s.carriers.put c { y with
      state := .conflict, conflict := some (kind, list), mark := addReason 1 y.mark } } :=
  State.modCarrier_mark hy _ _

/-- The carrier of a check that ends Cleared (R37). -/
@[reducible] def Carrier.clearedBy (y : Carrier) : Carrier := { y with state := .cleared, mark := addReason 2 y.mark }

/-- A check has ended Cleared, and its intent has not been tried yet. -/
@[reducible] def State.cleared (s : State) (c : Nat) (y : Carrier) : State :=
  { s with carriers := s.carriers.put c y.clearedBy }

theorem State.cleared_carrier (s : State) (c : Nat) (y : Carrier) : (s.cleared c y).carrier c = some y.clearedBy :=
  Table.get_put_self _ _ _

theorem State.enterCleared_eq {s : State} {c : Nat} {y : Carrier} (hy : s.carrier c = some y) :
    s.enterCleared c = match y.intent with
      | none => s.cleared c y
      | some (k, role) =>
        if s.canBind y k role then ((s.cleared c y).bindCarrier k c role).markStation k StationReason.carrierBound
        else (s.cleared c y).markCarrier c CarrierReason.intentUnmet := by
  have cleared : (s.modCarrier c (fun y => { y with state := .cleared })).markCarrier c CarrierReason.cleared =
      s.cleared c y := State.modCarrier_mark hy _ _
  have held := s.cleared_carrier c y
  unfold State.enterCleared
  rw [cleared]
  simp only [held]
  cases y.intent <;> rfl

/-- A Cleared carrier whose intent cannot be met now (R38). -/
theorem State.cleared_unmet (s : State) (c : Nat) (y : Carrier) :
    (s.cleared c y).markCarrier c CarrierReason.intentUnmet = { s with carriers := s.carriers.put c { y with
      state := .cleared, mark := addReason 4 (addReason 2 y.mark) } } := by
  rw [State.markCarrier, State.modCarrier_of (s.cleared_carrier c y)]
  simp only [Table.put_put]
  rfl

/-- The slot of a station that a carrier fills. -/
def Station.withSlot (x : Station) (role : Role) (c : Nat) : Station :=
  match role with
  | .primary => { x with primary := some c }
  | .standby => { x with standby := some c }

/-- What a carrier is in a role. -/
def Role.filled (role : Role) : CarrierState :=
  match role with
  | .primary => .assigned
  | .standby => .standby

theorem State.bindCarrier_eq {s : State} {c : Nat} {y : Carrier} (hy : s.carrier c = some y) (k : Nat) (role : Role) :
    s.bindCarrier k c role = State.modStation { s with carriers := s.carriers.put c { y with
      state := role.filled
      bound := some (k, role)
      intent := some (k, role)
      mark := addReason 3 y.mark } } k (·.withSlot role c) :=
  congrArg (State.modStation · k (·.withSlot role c)) (State.modCarrier_mark hy _ CarrierReason.bound)

/-- A Cleared carrier fills the slot that its intent names (R38, R53). -/
theorem State.cleared_bound {s : State} {c n : Nat} {role : Role} {y : Carrier} {x : Station}
    (hi : y.intent = some (n, role)) (hx : s.station n = some x) :
    ((s.cleared c y).bindCarrier n c role).markStation n StationReason.carrierBound = { s with
      carriers := s.carriers.put c { y with
        state := role.filled
        bound := some (n, role)
        mark := addReason 3 (addReason 2 y.mark) }
      stations := s.stations.put n { x.withSlot role c with mark := addReason 1 (x.withSlot role c).mark } } := by
  rw [State.bindCarrier_eq (s.cleared_carrier c y)]
  refine (State.modStation_mark (x := x) ?_ _ _).trans ?_
  · exact hx
  · simp only [Table.put_put, ← hi]
    rfl

theorem State.canBind_station {s : State} {y : Carrier} {n : Nat} {role : Role} (h : s.canBind y n role = true) :
    ∃ x, s.station n = some x := by
  unfold State.canBind at h
  cases hx : s.station n with
  | none => rw [hx] at h; cases h
  | some x => exact ⟨x, rfl⟩

/-- The engine finds no candidate. -/
theorem State.engineLooks_idle {s : State} (hs : s.service = .inService) (hl : s.load = .none) (hb : s.badCodes = [])
    (hq : s.checkQueue = []) (hr : ∀ p ∈ s.carriers.records, p.2.restorePending = false) : s.engineLooks = s := by
  have none : s.nextCandidate = none := by
    rw [State.nextCandidate_sound hb, hq]
    show Option.map _ (s.carriers.records.find? _) = none
    rw [List.find?_eq_none.2 (fun p hp => by simp [hr p hp])]
    rfl
  rw [State.engineLooks_eq hs hl, engineTakes, none]
  split <;> rfl

/-- An idle engine takes the head of the Check Queue and, when its window stage passes, checks it (R32, R33). -/
theorem State.engineLooks_head {s : State} {c : Nat} {rest : List Nat} {y : Carrier} (hs : s.service = .inService)
    (hl : s.load = .none) (hb : s.badCodes = []) (he : s.engine = none) (hq : s.checkQueue = c :: rest)
    (hy : s.carrier c = some y) (hw : s.windowStage y = none) :
    s.engineLooks = { s with checkQueue := rest, engine := some ⟨c, s.laterStages c y⟩ } := by
  have next : s.nextCandidate = some (c, { s with checkQueue := rest }) := by
    rw [State.nextCandidate_sound hb, hq]
  have begun : State.beginCheck { s with checkQueue := rest } c =
      { s with checkQueue := rest, engine := some ⟨c, s.laterStages c y⟩ } := by
    rw [State.beginCheck_sound (s := { s with checkQueue := rest }) hb hy]
    have stage : State.windowStage { s with checkQueue := rest } y = none := hw
    rw [stage]
    rfl
  have idle : ¬ s.engine.isSome = true := by simp [he]
  rw [State.engineLooks_eq hs hl, engineTakes, if_neg idle, next]
  show engineTakes 144 (State.beginCheck { s with checkQueue := rest } c) = _
  rw [begun]
  exact engineTakes_busy rfl 144

/-- The lowest record that a test picks is the first one listed. -/
theorem Table.find?_lowest {α : Type} {t : Table α} (h : t.wf) {d : Nat} {x : α} {p : α → Bool} (hx : t.get d = some x)
    (hp : p x = true) (hd : ∀ e v, t.get e = some v → p v = true → d ≤ e) :
    t.records.find? (fun q => p q.2) = some (d, x) := by
  have hm := (Table.mem_records h d x).2 hx
  cases hf : t.records.find? (fun q => p q.2) with
  | none => exact absurd hp (by simpa using List.find?_eq_none.1 hf (d, x) hm)
  | some q =>
    obtain ⟨hq, before, after, hl, hb⟩ := List.find?_eq_some_iff_append.1 hf
    have held := (Table.mem_records h q.1 q.2).1 (by rw [hl]; simp)
    have least := hd q.1 q.2 held hq
    rw [hl] at hm
    rcases List.mem_append.1 hm with hm | hm
    · have := hb _ hm
      simp [hp] at this
    · rcases List.mem_cons.1 hm with rfl | hm
      · rfl
      · have rises := Table.records_rise h
        rw [hl] at rises
        have := (List.pairwise_cons.1 (List.pairwise_append.1 rises).2.1).1 _ hm
        omega

/-- An idle engine with an empty queue takes the lowest carrier that is restore pending (R32). -/
theorem State.engineLooks_pending {s : State} {d : Nat} {x : Carrier} (hs : s.service = .inService)
    (hl : s.load = .none) (hb : s.badCodes = []) (he : s.engine = none) (hq : s.checkQueue = [])
    (hwf : s.carriers.wf = true) (hx : s.carrier d = some x) (hr : x.restorePending = true)
    (hd : ∀ e v, s.carrier e = some v → v.restorePending = true → d ≤ e) (hw : s.windowStage x = none) :
    s.engineLooks = { s with
      carriers := s.carriers.put d { x with restorePending := false }
      engine := some ⟨d, State.laterStages
        { s with carriers := s.carriers.put d { x with restorePending := false } } d x⟩ } := by
  have next : s.nextCandidate = some (d, { s with carriers := s.carriers.put d { x with restorePending := false } }) := by
    rw [State.nextCandidate_sound hb, hq]
    show Option.map _ (s.carriers.records.find? (fun p => p.2.restorePending)) = _
    rw [Table.find?_lowest hwf hx hr hd, Option.map_some, State.modCarrier_of hx, hq]
  have begun : State.beginCheck { s with carriers := s.carriers.put d { x with restorePending := false } } d = { s with
      carriers := s.carriers.put d { x with restorePending := false }
      engine := some ⟨d, State.laterStages
        { s with carriers := s.carriers.put d { x with restorePending := false } } d x⟩ } := by
    rw [State.beginCheck_sound (s := { s with carriers := s.carriers.put d { x with restorePending := false } }) hb
      (Table.get_put_self _ _ _)]
    have stage : State.windowStage { s with carriers := s.carriers.put d { x with restorePending := false } }
        { x with restorePending := false } = none := hw
    rw [stage]
    rfl
  have idle : ¬ s.engine.isSome = true := by simp [he]
  rw [State.engineLooks_eq hs hl, engineTakes, if_neg idle, next]
  show engineTakes 144 (State.beginCheck
    { s with carriers := s.carriers.put d { x with restorePending := false } } d) = _
  rw [begun]
  exact engineTakes_busy rfl 144

/-- The engine after the result of a check: what was under it and in its queue does not touch the candidate. -/
theorem State.engineLooks_spares {s u : State} {c : Nat} {z : Carrier} {st : Table Station}
    (hu : u = { s with engine := none, carriers := s.carriers.put c z, stations := st }) (hb : s.badCodes = [])
    (hq : c ∉ s.checkQueue) (hwf : s.carriers.wf = true) (hr : z.restorePending = false) : u.spares c z := by
  subst hu
  exact ⟨hb, Table.wf_put hwf _ _, Table.get_put_self _ _ _, hr, hq, nofun⟩

theorem Station.slotOf_withSlot (x : Station) (role : Role) (c : Nat) : (x.withSlot role c).slotOf role = some c := by
  cases role <;> rfl

theorem mem_addReason_self (r : Nat) (m : List Nat) : r ∈ addReason r m := by
  induction m with
  | nil => exact List.mem_singleton.2 rfl
  | cons a rest ih =>
    unfold addReason
    split
    · exact List.mem_cons_self
    · split
      · next h => exact h ▸ List.mem_cons_self
      · exact List.mem_cons_of_mem _ ih

/-- The result of a check, by what fails and by the intent. -/
structure State.resultIs (s : State) (c : Nat) (y : Carrier) (found : Option (ConflictKind × List Nat))
    (z : Carrier) (st : Table Station) : Prop where
  window : ∀ kind, s.windowStage y = some kind →
    z = { y with state := .conflict, conflict := some (kind, []), mark := addReason 1 y.mark } ∧ st = s.stations
  stages : ∀ kind list, s.windowStage y = none → found = some (kind, list) →
    z = { y with state := .conflict, conflict := some (kind, list), mark := addReason 1 y.mark } ∧ st = s.stations
  plain : s.windowStage y = none → found = none → y.intent = none →
    z = { y with state := .cleared, mark := addReason 2 y.mark } ∧ st = s.stations
  intent : ∀ n role, s.windowStage y = none → found = none → y.intent = some (n, role) →
    (s.canBind y n role = true →
      z = { y with
        state := match role with | .primary => .assigned | .standby => .standby
        bound := some (n, role)
        mark := addReason 3 (addReason 2 y.mark) } ∧
      ∃ x, st.get n = some x ∧ x.slotOf role = some c ∧ 1 ∈ x.mark) ∧
    (s.canBind y n role = false →
      z = { y with state := .cleared, mark := addReason 4 (addReason 2 y.mark) } ∧ st = s.stations)

/-- The result of a check changes the candidate, and the station that takes it into its slot. -/
theorem State.enterResult_eq {s : State} {c : Nat} {y : Carrier} (hy : s.carrier c = some y)
    (found : Option (ConflictKind × List Nat)) : ∃ z st, s.enterResult c y found =
      { s with carriers := s.carriers.put c z, stations := st } ∧ z.restorePending = y.restorePending ∧
      s.resultIs c y found z st := by
  unfold State.enterResult
  cases hw : s.windowStage y with
  | some kind =>
    have never : s.windowStage y ≠ none := by simp [hw]
    refine ⟨_, s.stations, State.enterConflict_eq hy kind [], rfl, fun k hk => ?_, fun _ _ h => absurd h never,
      fun h => absurd h never, fun _ _ h => absurd h never⟩
    obtain rfl : kind = k := Option.some.inj (hw.symm.trans hk)
    exact ⟨rfl, rfl⟩
  | none =>
    have never : ∀ kind, s.windowStage y ≠ some kind := by simp [hw]
    cases found with
    | some f =>
      refine ⟨_, s.stations, State.enterConflict_eq hy f.1 f.2, rfl, fun _ h => absurd h (never _), fun kind list _ h => ?_,
        fun _ => nofun, fun _ _ _ => nofun⟩
      cases h
      exact ⟨rfl, rfl⟩
    | none =>
      dsimp only
      rw [State.enterCleared_eq hy]
      cases hi : y.intent with
      | none =>
        refine ⟨y.clearedBy, s.stations, rfl, rfl, fun _ h => absurd h (never _), fun _ _ _ => nofun, fun _ _ _ => ⟨rfl, rfl⟩,
          fun _ _ _ _ h => ?_⟩
        exact absurd (hi.symm.trans h) nofun
      | some p =>
        obtain ⟨n, role⟩ := p
        have plain : y.intent ≠ none := by simp [hi]
        have named : ∀ m r, y.intent = some (m, r) → m = n ∧ r = role := fun m r h => by
          rw [hi] at h
          cases h
          exact ⟨rfl, rfl⟩
        cases hb : s.canBind y n role with
        | true =>
          obtain ⟨x, hx⟩ := State.canBind_station hb
          dsimp only
          rw [if_pos hb]
          refine ⟨_, _, State.cleared_bound hi hx, rfl, fun _ h => absurd h (never _), fun _ _ _ => nofun,
            fun _ _ h => absurd h plain, fun m r _ _ h => ?_⟩
          obtain ⟨rfl, rfl⟩ := named m r h
          refine ⟨fun _ => ⟨rfl, _, Table.get_put_self _ _ _, ?_, mem_addReason_self _ _⟩,
            fun h => absurd (hb.symm.trans h) nofun⟩
          exact Station.slotOf_withSlot x r c
        | false =>
          dsimp only
          rw [if_neg (by rw [hb]; nofun)]
          refine ⟨_, s.stations, State.cleared_unmet s c y, rfl, fun _ h => absurd h (never _), fun _ _ _ => nofun,
            fun _ _ h => absurd h plain, fun m r _ _ h => ?_⟩
          obtain ⟨rfl, rfl⟩ := named m r h
          exact ⟨fun h => absurd (hb.symm.trans h) nofun, fun _ => ⟨rfl, rfl⟩⟩

end Sys2Proof.Machine

namespace Sys2Proof
open Machine

/-- What the end of a check leaves alone. -/
theorem checkEnded_frame {s t v : State} {carriers : Table Carrier} {st : Table Station}
    (hv : { s with engine := none, carriers := carriers, stations := st } = v) (h : OnlyChecks v t) :
    t.port = s.port ∧ t.windows = s.windows ∧ t.galleries = s.galleries ∧ t.conferences = s.conferences ∧
      t.settings = s.settings ∧ t.storeStates = s.storeStates ∧ s.sameMachine t ∧ t.stations = st := by
  unfold OnlyChecks at h
  rw [h, ← hv]
  refine ⟨rfl, rfl, rfl, rfl, rfl, rfl, ?_, rfl⟩
  constructor <;> rfl

/-- Settles O24: the result of the check, and then the engine's next candidate. -/
theorem endOfCheck : Obligations.EndOfCheck := by
  intro c found y s hs hl hb he hy hr hq hwf
  obtain ⟨z, st, hu, hz, result⟩ := State.enterResult_eq (s := { s with engine := none }) (y := y) hy found
  have ended := State.endOfCheck_eq hs hl hb he hy
  rw [hu] at ended
  have idle : z.restorePending = false := hz.trans hr
  generalize hv : ({ s with engine := none, carriers := s.carriers.put c z, stations := st } : State) = v at ended
  have others : ∀ d, d ≠ c → v.carrier d = s.carrier d := fun d hd => by
    rw [← hv]
    exact (Table.get_put _ _ _ _).trans (if_neg hd)
  have held : v.carrier c = some z := by
    rw [← hv]
    exact Table.get_put_self _ _ _
  have vs : v.service = .inService ∧ v.load = .none ∧ v.badCodes = [] ∧ v.engine = none ∧ v.checkQueue = s.checkQueue ∧
      v.carriers.wf = true := by
    rw [← hv]
    exact ⟨hs, hl, hb, rfl, rfl, Table.wf_put hwf _ _⟩
  have stage : ∀ x, v.windowStage x = s.windowStage x := fun x => by rw [← hv]; rfl
  obtain ⟨vService, vLoad, vSound, vEngine, vQueue, vTable⟩ := vs
  have spared : v.engineLooks.spares c z := (State.engineLooks_spares hv.symm hb hq hwf idle).engineLooks
  obtain ⟨port, windows, galleries, conferences, settings, storeStates, machine, stations⟩ :=
    checkEnded_frame hv ((OnlyChecks.checks v).engineLooks (OnlyChecks.refl v))
  refine ⟨_, z, ended, spared.carrier, port, windows, galleries, conferences, settings, storeStates, machine,
    fun kind h => ?_, fun kind list h hf => ?_, fun h hf hi => ?_, fun n role h hf hi => ⟨fun hbind => ?_, fun hbind => ?_⟩,
    fun hempty hnone => ?_, fun d rest x hhead hx hw => ?_, fun d x hempty hx hpending hw hleast => ?_⟩
  · obtain ⟨hz, hst⟩ := result.window kind h
    exact ⟨hz, stations.trans hst⟩
  · obtain ⟨hz, hst⟩ := result.stages kind list h hf
    exact ⟨hz, stations.trans hst⟩
  · obtain ⟨hz, hst⟩ := result.plain h hf hi
    exact ⟨hz, stations.trans hst⟩
  · obtain ⟨hz, x, hx, hslot, hmark⟩ := (result.intent n role h hf hi).1 hbind
    refine ⟨hz, x, ?_, hslot, hmark⟩
    rw [State.station, stations, hx]
  · obtain ⟨hz, hst⟩ := (result.intent n role h hf hi).2 hbind
    exact ⟨hz, stations.trans hst⟩
  · have none : ∀ p ∈ v.carriers.records, p.2.restorePending = false := by
      rintro ⟨d, x⟩ hp
      have hx : v.carrier d = some x := (Table.mem_records vTable d x).1 hp
      by_cases hd : d = c
      · rw [hd, held] at hx
        cases hx
        exact idle
      · exact hnone d x (others d hd ▸ hx)
    rw [State.engineLooks_idle vService vLoad vSound (vQueue.trans hempty) none]
    exact ⟨vEngine, vQueue.trans hempty⟩
  · have hd : d ≠ c := by
      rintro rfl
      exact hq (hhead ▸ List.mem_cons_self)
    have hxv : v.carrier d = some x := (others d hd).trans hx
    rw [State.engineLooks_head vService vLoad vSound vEngine (vQueue.trans hhead) hxv ((stage x).trans hw)]
    exact ⟨rfl, rfl, hxv⟩
  · have hd : d ≠ c := by
      rintro rfl
      rw [hy] at hx
      cases hx
      rw [hr] at hpending
      cases hpending
    have hxv : v.carrier d = some x := (others d hd).trans hx
    have least : ∀ e w, v.carrier e = some w → w.restorePending = true → d ≤ e := by
      intro e w hew hpw
      by_cases hec : e = c
      · rw [hec, held] at hew
        cases hew
        rw [idle] at hpw
        cases hpw
      · exact hleast e w (others e hec ▸ hew) hpw
    rw [State.engineLooks_pending vService vLoad vSound vEngine (vQueue.trans hempty) vTable hxv hpending least
      ((stage x).trans hw)]
    exact ⟨rfl, vQueue.trans hempty, Table.get_put_self _ _ _⟩

end Sys2Proof
end

section
/-! SET COORDINATION, SET CUE and SET LINK (R30, R55, R126). -/

namespace Sys2Proof.Machine

theorem State.sameMachine.trans {s t u : State} (h : s.sameMachine t) (k : t.sameMachine u) : s.sameMachine u where
  pending := k.pending.trans h.pending
  service := k.service.trans h.service
  load := k.load.trans h.load
  startCode := k.startCode.trans h.startCode
  snapshot := k.snapshot.trans h.snapshot
  badCodes := k.badCodes.trans h.badCodes
  clock := k.clock.trans h.clock
  operators := k.operators.trans h.operators
  freezeHolder := k.freezeHolder.trans h.freezeHolder
  units := k.units.trans h.units
  line := k.line.trans h.line
  sequence := k.sequence.trans h.sequence
  round := k.round.trans h.round
  lastDiscover := k.lastDiscover.trans h.lastDiscover
  turn := k.turn.trans h.turn
  latched := k.latched.trans h.latched
  mask := k.mask.trans h.mask
  storeOutcome := k.storeOutcome.trans h.storeOutcome
  saving := k.saving.trans h.saving
  savePlace := k.savePlace.trans h.savePlace
  saveWritten := k.saveWritten.trans h.saveWritten
  store := k.store.trans h.store

theorem State.sameMachine.answer {s t : State} (h : s.sameMachine t) (r : Reply) : s.sameMachine (t.answer r) := by
  cases h
  constructor <;> assumption

theorem State.putSettings_answer (s : State) (o : Order) (x : Settings) (st : Status) (d : Nat) (ws : List Word) :
    ((s.begun o).putSettings x).answer ⟨st, d, o.key, ws⟩ = (s.settingsInForce x).answered o st d ws := by
  have same : (s.begun o).settings = s.settings := rfl
  unfold State.putSettings State.settingsInForce
  rw [same]
  split <;> rfl

/-- The tests of an order on the Part settings whose own test passes. -/
theorem State.passes_settings {s : State} {o : Order} (hr : s.holdsRight o .plan) (hp : s.planFree o) {own : List Check1}
    (hown : firstFailing own = none) : firstFailing ([s.lacks o .plan 1] ++ s.holds o ++ own) = none :=
  passes_append (passes_append (passes_cons (State.lacks_fst hr 1) firstFailing_nil) (State.passes_holds hp)) hown

theorem legalWatch_ne (n : Nat) : (legalWatch n != n) = (n % 50 != 0) := by
  rw [Bool.eq_iff_iff]
  simp only [legalWatch, bne_iff_ne]
  omega

/-- Watches and recovery runs that no limit reaches are left alone. -/
theorem State.applyLink_quiet {s : State} (h : ∀ k x, s.station k = some x →
    (∀ ms, x.watch = .running ms → ms < s.settings.linkWatch) ∧
      (∀ ms, x.recoveryRun = some ms → ms < s.settings.recoveryTime * 1000)) : s.applyLink = s := by
  refine State.forEach_keeps (P := (· = s)) rfl _ (fun t k ht => ?_)
  subst ht
  cases hx : t.station k with
  | none => rfl
  | some x =>
    obtain ⟨watch, recovery⟩ := h k x hx
    have watched : (match x.watch with
        | .running ms => if t.settings.linkWatch ≤ ms then t.watchRunsOut k else t
        | .off | .runOut => t) = t := by
      cases hw : x.watch with
      | off => rfl
      | runOut => rfl
      | running ms => exact if_neg (Nat.not_le.2 (watch ms hw))
    cases hr : x.recoveryRun with
    | none =>
      simp only [hr]
      exact watched
    | some ms =>
      simp only [hr]
      exact (if_neg (Nat.not_le.2 (recovery ms hr))).trans watched

theorem Broad.applyLink {P : State → Prop} (hc : Broad P) {s : State} (h : P s) : P s.applyLink := by
  refine State.forEach_keeps h _ (fun t k ht => ?_)
  cases hx : t.station k with
  | none => exact ht
  | some x =>
    have watched : P (match x.watch with
        | .running ms => if t.settings.linkWatch ≤ ms then t.watchRunsOut k else t
        | .off | .runOut => t) := by
      split
      · split
        · exact hc.watchRunsOut ht k
        · exact ht
      · exact ht
      · exact ht
    dsimp only
    split
    · split
      · exact hc.recover watched k
      · exact watched
    · exact watched

theorem adjustedReply_eq (o : Order) (b : Bool) (d : Nat) :
    adjustedReply o b d = ⟨if b then .doneAdjusted else .done, if b then d else 0, o.key, []⟩ := by
  cases b <;> rfl

end Sys2Proof.Machine

namespace Sys2Proof
open Machine

/-- SET LINK. -/
theorem setLink_order (o : Order) (s : State) (x : Settings) (ha : s.admits o .plan) (hl : o.params.length = 5)
    (hb : linkBad o.params = false)
    (hx : x = { s.settings with
      linkWatch := fieldNat o.params 0 / 50 * 50
      fallbackFloor := fieldNat o.params 1
      fallbackMargin := fieldNat o.params 2
      returnMargin := fieldNat o.params 3
      recoveryTime := fieldNat o.params 4 }) :
    (∃ t, exec (.setLink o) s = .next t ∧ t.settings = x ∧ t.windows = s.windows ∧ t.galleries = s.galleries ∧
      s.sameMachine t) ∧
    ((∀ k v, s.station k = some v → (∀ ms, v.watch = .running ms → ms < x.linkWatch) ∧
        (∀ ms, v.recoveryRun = some ms → ms < x.recoveryTime * 1000)) →
      exec (.setLink o) s =
        .next ((s.settingsInForce x).doneOrAdjusted o (fieldNat o.params 0 % 50 != 0) 1)) := by
  obtain ⟨ht, hr, hp⟩ := ha
  have tests := State.passes_settings hr hp (own := [failIf (linkBad o.params) .range 2])
    (passes_cons (by simp [hb]) firstFailing_nil)
  have taken : exec (.setLink o) s = .next (((s.begun o).putSettings x).applyLink.answer
      (adjustedReply o (legalWatch (fieldNat o.params 0) != fieldNat o.params 0) 1)) := by
    subst hx
    exact congrArg Host.Outcome.next (State.takeOrder_takes ht (by omega) (by simp [hl]) tests rfl rfl)
  have put : ((s.begun o).putSettings x).settings = x ∧ ((s.begun o).putSettings x).windows = s.windows ∧
      ((s.begun o).putSettings x).galleries = s.galleries ∧ ((s.begun o).putSettings x).stations = s.stations ∧
      s.sameMachine ((s.begun o).putSettings x) := by
    unfold State.putSettings
    split
    · next h => exact ⟨h.symm, rfl, rfl, rfl, by constructor <;> rfl⟩
    · exact ⟨rfl, rfl, rfl, rfl, by constructor <;> rfl⟩
  obtain ⟨settings, windows, galleries, stations, machine⟩ := put
  refine ⟨⟨_, taken, ?_⟩, fun h => ?_⟩
  · have only := (Only.broad _).applyLink (Only.refl ((s.begun o).putSettings x))
    exact ⟨only.settings.trans settings, only.windows.trans windows, only.galleries.trans galleries,
      (machine.trans only.sameMachine).answer _⟩
  · rw [taken, State.applyLink_quiet, adjustedReply_eq, State.putSettings_answer, legalWatch_ne]
    · rfl
    · intro k v hv
      rw [settings]
      exact h k v (by rw [State.station, ← stations]; exact hv)

/-- Settles O25. -/
theorem settingsOrders : Obligations.SettingsOrders := by
  refine ⟨fun o s x ha hl hb hx huse => ?_, fun o s x ha h1 h9 hb hx => ?_, setLink_order⟩
  · obtain ⟨ht, hr, hp⟩ := ha
    have own : firstFailing [failIf (coordinationBad o.params) .range 2,
        failIf (s.settings.withCoordination o.params != s.settings && s.coordinationInUse) .state 1] = none := by
      have used : (s.settings.withCoordination o.params != s.settings && s.coordinationInUse) = false := by
        rcases huse with h | h
        · rw [Bool.and_eq_false_iff, bne_eq_false_iff_eq]
          exact .inl (hx.symm.trans h)
        · rw [h, Bool.and_false]
      exact passes_cons (by simp [hb]) (passes_cons used firstFailing_nil)
    subst hx
    exact congrArg Host.Outcome.next ((State.takeOrder_takes ht (by omega) (by simp [hl]) (State.passes_settings hr hp own)
      rfl rfl).trans (State.putSettings_answer ..))
  · obtain ⟨ht, hr, hp⟩ := ha
    have own : firstFailing [failIf (cueSettingsBad o.params) .range 2] = none := by simp [hb]
    subst hx
    exact congrArg Host.Outcome.next ((State.takeOrder_takes ht (by omega) (by simp [h1, h9]) (State.passes_settings hr hp own)
      rfl rfl).trans (State.putSettings_answer ..))

end Sys2Proof
end

section
/-! BIND and UNBIND of a station, GO LIVE, SWAP and PARK (R51, R52, R58, R63, R69). -/

namespace Sys2Proof.Machine

/-! ## Actions on a station -/

/-- An order that admits an action on a station. -/
structure State.actsOnStation (s : State) (o : Order) (x : Station) : Prop where
  admitted : s.admits o .station
  station : s.station (keyOf o) = some x
  free : claimFree o x.claim
  words : o.params = []

/-- An action on a station whose own tests pass has its effect. -/
theorem State.stationAction_takes {s : State} {o : Order} {x : Station} (h : s.actsOnStation o x) {own : List Check1}
    (hown : firstFailing own = none) {verb : Nat} {f : State → State} {u : State} (hu : f (s.begun o) = u) :
    s.stationAction o verb own f = u.answer (doneReply o) := by
  obtain ⟨⟨ht, hright, hplan⟩, hx, hc, hp⟩ := h
  refine State.takeOrder_takes ht (length_of_noParams hp) (by simp [hp]) ?_ hu rfl
  exact passes_append (passes_append (passes_cons (State.lacks_fst hright 4) (passes_cons (by simp [hx])
    (passes_cons (claimHold_fst (by simpa [hx] using hc)) firstFailing_nil))) (State.passes_holds hplan)) hown

/-! ## Slots -/

@[simp] theorem roleOf_code (role : Role) : roleOf role.code = role := by cases role <;> rfl

theorem Role.code_le (role : Role) : ¬ 1 < role.code := by cases role <;> decide

theorem Role.code_eq_zero (role : Role) : role.code = 0 ↔ role = .primary := by cases role <;> simp [Role.code]

/-- The link lets a slot of this role be filled or emptied. -/
theorem passes_slotLinkTests {x : Station} {role : Role} (hp : role = .primary → x.link = .parked)
    (hs : role = .standby → x.link ≠ .switching) : firstFailing (slotLinkTests (some x) role) = none := by
  cases role with
  | primary => simp [slotLinkTests, hp rfl]
  | standby => simp [slotLinkTests, hs rfl]

/-- The station whose slot is emptied by an order. -/
def Station.withoutSlot (x : Station) (role : Role) : Station :=
  match role with
  | .primary => { x with primary := none }
  | .standby => { x with standby := none, recoveryRun := none }

/-- A change of a station that exists, beside changed carriers. -/
theorem State.modStation_besideCarriers {s : State} {k : Nat} {x : Station} (hx : s.station k = some x) (cs : Table Carrier)
    (f : Station → Station) : State.modStation { s with carriers := cs } k f =
      { s with carriers := cs, stations := s.stations.put k (f x) } :=
  State.modStation_of (s := { s with carriers := cs }) hx f

theorem State.unbindCarrier_eq {s : State} {k c : Nat} {x : Station} {y : Carrier} (hx : s.station k = some x)
    (hy : s.carrier c = some y) (role : Role) : s.unbindCarrier k c role = { s with
      carriers := s.carriers.put c { y with
        state := if y.state = .blocked then .blocked else .cleared
        bound := none
        intent := none
        mark := addReason 5 y.mark }
      stations := s.stations.put k (x.withoutSlot role) } :=
  (congrArg (State.modStation · k (·.withoutSlot role)) (State.modCarrier_mark hy _ CarrierReason.unbound)).trans
    (State.modStation_besideCarriers hx _ _)

theorem State.bindCarrier_station {s : State} {k c : Nat} {x : Station} {y : Carrier} (hx : s.station k = some x)
    (hy : s.carrier c = some y) (role : Role) : s.bindCarrier k c role = { s with
      carriers := s.carriers.put c { y with
        state := role.filled
        bound := some (k, role)
        intent := some (k, role)
        mark := addReason 3 y.mark }
      stations := s.stations.put k (x.withSlot role c) } :=
  (State.bindCarrier_eq hy k role).trans (State.modStation_besideCarriers hx _ _)

/-- An effect after which the carriers' store state is Changed, or was so already. -/
theorem State.carrierChanged_unless (s : State) (kept : Prop) [Decidable kept] :
    (if kept then s else s.carrierChanged) =
      { s with storeStates := if kept then s.storeStates else { s.storeStates with carrier := true } } := by
  by_cases h : kept
  · rw [if_pos h, if_pos h]
  · rw [if_neg h, if_neg h]
    rfl

/-! ## Tunes -/

/-- The station as a tune to a carrier leaves it (R57). -/
@[reducible] def Station.tunedTo (x : Station) (y : Carrier) (attempts : Nat) (timer : Option Nat) : Station :=
  { x with
    token := nextToken x.token
    attempts := attempts
    tuneTimer := timer
    wanted := ⟨some y.frequency, y.cls, x.power, false, nextToken x.token⟩ }

/-- A wanted tune that is not the delivered one joins the queue of a Present transmitter unit (R150). -/
theorem State.hand_tune_queue {s : State} {k u : Nat} {x : Station} {w : LineUnit} (hx : s.station k = some x)
    (hu : x.controlUnit = some u) (hb : x.tuneBase = .current) (hd : x.delivered ≠ some x.wanted)
    (hw : s.unitAt u = some w) (hp : w.state = .present) (hk : w.kind = some .txc) (hq : s.queue.length < 64)
    (he : ∀ e ∈ s.queue, e.has u .tune k = false) :
    (s.hand .tune k).queue = s.queue ++ [⟨u, .tune, k, .tune x.wanted, false, 0, false⟩] := by
  have delivery : s.delivery .tune k = some ⟨some u, .tune x.wanted, x.delivered.map .tune, .current⟩ := by
    simp [State.delivery, hx, hu, hb]
  have entry : s.entryOf ⟨some u, .tune x.wanted, x.delivered.map .tune, .current⟩ .tune k = none :=
    List.find?_eq_none.2 (fun e h => by simp [he e h])
  have differs : x.delivered.map Content.tune ≠ some (.tune x.wanted) := by
    cases hv : x.delivered with
    | none => nofun
    | some v =>
      intro h
      cases h
      exact hd hv
  have room : s.queue.length < Config.directiveQueueSize := hq
  unfold State.hand State.decideDelivery
  rw [delivery]
  dsimp only
  rw [entry]
  simp [differs, State.unitIsLost, State.reachable, hw, hp, hk, DeliveryKind.unitKind, room, State.appendEntry,
    State.setBase_queue]

/-- A tune wants a new tune of the station, and hands it on (R57). -/
theorem State.tuneTo_hand {s : State} {k c : Nat} {x : Station} {y : Carrier} (hx : s.station k = some x)
    (hy : s.carrier c = some y) (n : Nat) (awaited : Bool) : s.tuneTo k c n awaited =
      (s.modStation k (fun _ => x.tunedTo y n (if awaited then some 0 else none))).hand .tune k := by
  unfold State.tuneTo
  rw [hx, hy]
  dsimp only
  rw [State.modStation_of hx, State.modStation_of hx]

/-- A tune changes the station, its tune's delivery base and the queue. -/
theorem State.tuneTo_eq {s : State} {k c : Nat} {x : Station} {y : Carrier} (hx : s.station k = some x)
    (hy : s.carrier c = some y) (n : Nat) (awaited : Bool) : ∃ b q, s.tuneTo k c n awaited = { s with
      stations := s.stations.put k { x.tunedTo y n (if awaited then some 0 else none) with tuneBase := b }
      queue := q } := by
  have held := State.station_of_mod hx (fun _ => x.tunedTo y n (if awaited then some 0 else none))
  rw [State.tuneTo_hand hx hy]
  rcases State.hand_station held (kind := .tune) nofun nofun with h | ⟨b, q, h⟩
  · exact ⟨x.tuneBase, s.queue, by rw [h, State.modStation_of hx]⟩
  · refine ⟨b, q, ?_⟩
    rw [h, State.modStation_of held, State.modStation_of hx]
    simp only [Table.put_put]
    rfl

/-- A link that is neither left nor entered Up, Weak or Switching, nor becomes Parked or Lost, is set without a notice. -/
theorem State.setLink_silent {s : State} {k : Nat} {x : Station} (hx : s.station k = some x) {new : Link}
    (hd : x.link.deliverable = new.deliverable) (hn : new.parkedOrLost = false) :
    s.setLink k new = { s with stations := s.stations.put k { x with link := new } } := by
  unfold State.setLink
  rw [hx]
  dsimp only
  rw [State.linkNotices, if_pos hd, hn, State.modStation_of hx]
  rfl

/-- GO LIVE's tune changes the station, its tune's delivery base and the queue. -/
theorem State.startTune_eq {s : State} {k c : Nat} {x : Station} {y : Carrier} (hx : s.station k = some x)
    (hp : x.primary = some c) (hy : s.carrier c = some y) (hl : x.link.deliverable = false) :
    ∃ b, s.startTune k = { s with
      stations := s.stations.put k { x.tunedTo y 1 (some 0) with
        quality := none, qualityAge := none, watch := .off, link := .tuning, tuneBase := b }
      queue := (s.tuneTo k c 1 true).queue } := by
  obtain ⟨b, q, tuned⟩ := State.tuneTo_eq hx hy 1 true
  have primary : (s.station k).bind Station.primary = some c := by rw [hx]; exact hp
  have held : State.station { s with
      stations := s.stations.put k { x.tunedTo y 1 (some 0) with tuneBase := b }, queue := q } k =
      some { x.tunedTo y 1 (some 0) with tuneBase := b } := Table.get_put_self _ _ _
  refine ⟨b, ?_⟩
  unfold State.startTune
  rw [primary]
  dsimp only
  rw [tuned, if_pos rfl]
  rw [State.setLink_silent (State.station_of_mod held _) hl rfl, State.modStation_of held]
  simp only [Table.put_put]

/-! ## Notices of a link that goes down -/

/-- A conference but for its wanted routing and the state of that delivery. -/
@[reducible] def Conference.unrouted (x : Conference) : Conference := { x with routing := ⟨[], []⟩, routingBase := .current }

/-- The conferences are as they were, but for their wanted routings and the states of these deliveries. -/
def State.conferencesUnrouted (s t : State) : Prop :=
  ∀ c, (t.conference c).map Conference.unrouted = (s.conference c).map Conference.unrouted

theorem State.conference_modConference (s : State) (k : Nat) (f : Conference → Conference) (j : Nat) :
    (s.modConference k f).conference j = if j = k then (s.conference j).map f else s.conference j := by
  simp only [State.conference, State.modConference_conferences, Table.get_modify]

theorem State.conferencesUnrouted.modConference {s t : State} (h : s.conferencesUnrouted t) (k : Nat)
    {f : Conference → Conference} (hf : ∀ x, (f x).unrouted = x.unrouted) :
    s.conferencesUnrouted (t.modConference k f) := by
  intro c
  rw [← h c, State.conference_modConference]
  split
  · cases t.conference c with
    | none => rfl
    | some x => exact congrArg some (hf x)
  · rfl

/-- Deciding deliveries changes a conference's delivery state alone. -/
theorem State.conferencesUnrouted.decides (s : State) : Decides s.conferencesUnrouted where
  station _ _ _ h := h
  conference k _ h := h.modConference k (fun _ => rfl)
  withQueue h := h
  withFinals h := h

theorem State.conferencesUnrouted.recomputeRouting {s t : State} (h : s.conferencesUnrouted t) (c : Nat) :
    s.conferencesUnrouted (t.recomputeRouting c) := by
  unfold State.recomputeRouting
  split
  · exact h
  · split
    · exact h
    · exact (State.conferencesUnrouted.decides s).hand (h.modConference c (f := fun x => { x with routing := x.routed }) (fun _ => rfl)) _ _

theorem State.conferencesUnrouted.refl (s : State) : s.conferencesUnrouted s := fun _ => rfl

/-- A conference in which a station's entries are absent and silent. -/
def Conference.silences (x : Conference) (k : Nat) : Prop :=
  ∀ m ∈ x.members, m.id = .station k → m.absent = true ∧ Source.station k ∉ x.talkers

theorem Conference.silences_setAbsent (x : Conference) (k : Nat) : (x.setAbsent (.station k) true).silences k := by
  intro m hm hid
  obtain ⟨n, _, rfl⟩ := List.mem_map.1 hm
  have named : n.id = .station k := by
    by_cases h : n.id = .station k
    · exact h
    · rwa [if_neg h] at hid
  refine ⟨by rw [if_pos named], ?_⟩
  simp [Conference.setAbsent]

theorem Conference.silences_unrouted {x y : Conference} (h : x.unrouted = y.unrouted) {k : Nat} (hy : y.silences k) :
    x.silences k := by
  have members : x.members = y.members := (congrArg Conference.members h :)
  have talkers : x.talkers = y.talkers := (congrArg Conference.talkers h :)
  unfold Conference.silences
  rw [members, talkers]
  exact hy

/-- A conference, where there is one, silences a station. -/
def State.silencesIn (s : State) (k c : Nat) : Prop := ∀ x, s.conference c = some x → x.silences k

theorem State.conferencesUnrouted.silencesIn {s t : State} (h : s.conferencesUnrouted t) {k c : Nat}
    (hs : s.silencesIn k c) : t.silencesIn k c := by
  intro x hx
  have kept := h c
  rw [hx] at kept
  obtain ⟨y, hy, e⟩ := Option.map_eq_some_iff.1 kept.symm
  exact Conference.silences_unrouted e.symm (hs y hy)

/-- The presence notice for one conference (R105). -/
def State.presenceIn (k : Nat) (absent : Bool) (s : State) (c : Nat) : State :=
  match s.conference c with
  | none => s
  | some x =>
    if x.members.any (fun m => m.id = .station k) then
      (s.modConference c (fun x => x.setAbsent (.station k) absent)).recomputeRouting c
    else s

theorem State.presenceNotice_eq (s : State) (k : Nat) (absent : Bool) :
    s.presenceNotice k absent = s.forEach (upTo 24) (State.presenceIn k absent) := rfl

/-- The absence notice silences the station in the conference that it is given to. -/
theorem State.presenceIn_silences (s : State) (k c : Nat) : (State.presenceIn k true s c).silencesIn k c := by
  unfold State.presenceIn
  cases hx : s.conference c with
  | none =>
    intro x h
    rw [hx] at h
    cases h
  | some x =>
    dsimp only
    split
    · refine State.conferencesUnrouted.silencesIn ((State.conferencesUnrouted.refl _).recomputeRouting c) ?_
      intro z hz
      rw [State.conference_modConference, if_pos rfl, hx] at hz
      cases hz
      exact x.silences_setAbsent k
    · next h =>
      intro z hz m hm hid
      rw [hx] at hz
      cases hz
      exact absurd (List.any_eq_true.2 ⟨m, hm, by simp [hid]⟩) h

/-- An absence notice leaves a silenced station silenced elsewhere. -/
theorem State.presenceIn_keeps {s : State} {k c : Nat} (h : s.silencesIn k c) (d : Nat) :
    (State.presenceIn k true s d).silencesIn k c := by
  by_cases hcd : c = d
  · subst hcd
    exact s.presenceIn_silences k c
  · unfold State.presenceIn
    split
    · exact h
    · split
      · refine State.conferencesUnrouted.silencesIn ((State.conferencesUnrouted.refl _).recomputeRouting d) ?_
        intro z hz
        rw [State.conference_modConference, if_neg hcd] at hz
        exact h z hz
      · exact h

/-- What a step establishes for its key and every step keeps holds for every key of the list in the end. -/
theorem State.forEach_establishes {α : Type} {P : State → α → Prop} {f : State → α → State} (he : ∀ s a, P (f s a) a)
    (hk : ∀ s a b, P s a → P (f s b) a) (xs : List α) (s : State) : ∀ a ∈ xs, P (s.forEach xs f) a := by
  induction xs generalizing s with
  | nil => exact fun a h => absurd h List.not_mem_nil
  | cons x xs ih =>
    intro a ha
    rcases List.mem_cons.1 ha with rfl | ha
    · exact State.forEach_keeps (P := (P · a)) (he s a) xs (fun t b ht => hk t a b ht)
    · exact ih (f s x) a ha

theorem mem_upTo {n k : Nat} : k ∈ upTo n ↔ 1 ≤ k ∧ k ≤ n := by
  simp only [upTo, List.mem_range'_1]
  omega

/-- An absence notice silences the station in every conference (R105). -/
theorem State.presenceNotice_silences (s : State) (k : Nat) {c : Nat} (h1 : 1 ≤ c) (h2 : c ≤ 24) :
    (s.presenceNotice k true).silencesIn k c := by
  rw [State.presenceNotice_eq]
  exact State.forEach_establishes (P := fun t c => t.silencesIn k c) (fun t c => t.presenceIn_silences k c)
    (fun _ _ d h => State.presenceIn_keeps h d) (upTo 24) s c (mem_upTo.2 ⟨h1, h2⟩)

/-- The lamp notice of a link that goes down leaves the delivered lamp Unknown, and the cues (R88). -/
theorem State.lampOff_station {s : State} {k : Nat} {x : Station} (hx : s.station k = some x) :
    ∃ z, (s.lampOff k).station k = some z ∧ z.deliveredLamp = none ∧ z.stack = x.stack := by
  have start : ∃ z, (s.modStation k (fun x => { x with deliveredLamp := none })).station k = some z ∧
      z.deliveredLamp = none ∧ z.stack = x.stack := ⟨_, State.station_of_mod hx _, rfl, rfl⟩
  exact (Decides.ofStation k (F := fun z => z.deliveredLamp = none ∧ z.stack = x.stack)
    (fun _ kd _ h => by cases kd <;> exact h)).withdraw start _

theorem Link.deliverable_of_down {l : Link} (h : l.parkedOrLost = true) : l.deliverable = false := by
  cases l <;> first | rfl | cases h

/-- The notices of a link that becomes Parked or Lost are the lamp's and the presence's, when it was deliverable, and then
the cues'. -/
theorem State.linkNotices_down {new : Link} (h : new.parkedOrLost = true) (s : State) (k : Nat) (old : Link) :
    s.linkNotices k old new =
      (if old.deliverable then (s.lampOff k).presenceNotice k true else s).releaseAllCues k := by
  unfold State.linkNotices
  rw [Link.deliverable_of_down h, h]
  cases old.deliverable <;> simp

/-- A link that becomes Parked or Lost empties the station's cue stack and, when it was deliverable, makes the delivered
lamp Unknown (R88, R123). -/
theorem State.linkNotices_down_station {new : Link} (h : new.parkedOrLost = true) {s : State} {k : Nat} {x : Station}
    (hx : s.station k = some x) (old : Link) : ∃ z, (s.linkNotices k old new).station k = some z ∧
      (x.stack.length ≤ 2 → z.stack = []) ∧ (old.deliverable = true → z.deliveredLamp = none) := by
  rw [State.linkNotices_down h]
  have before : ∃ w, (if old.deliverable then (s.lampOff k).presenceNotice k true else s).station k = some w ∧
      w.stack = x.stack ∧ (old.deliverable = true → w.deliveredLamp = none) := by
    cases old.deliverable with
    | false => exact ⟨x, hx, rfl, nofun⟩
    | true =>
      obtain ⟨w, hw, lamp, stack⟩ := State.lampOff_station hx
      refine ⟨w, ?_, stack, fun _ => lamp⟩
      exact (congrArg (Table.get · k) (State.presenceNotice_stations _ k true)).trans hw
  obtain ⟨w, hw, stack, lamp⟩ := before
  generalize (if old.deliverable then (s.lampOff k).presenceNotice k true else s) = u at hw
  have hushed : Hushed u (u.releaseAllCues k) := (Hushed.calm u).releaseWhere (Hushed.refl u) k _
  have kept := hushed.lamps k
  rw [hw] at kept
  obtain ⟨z, hz, e⟩ := Option.map_eq_some_iff.1 kept
  refine ⟨z, hz, fun hl => ?_, fun hd => e.trans (lamp hd)⟩
  obtain ⟨v, hv, empty, _⟩ := State.releaseAllCues_station hw (by rw [stack]; exact hl)
  rw [hz] at hv
  cases hv
  exact empty

/-- A deliverable link that becomes Parked or Lost silences the station in every conference (R105). -/
theorem State.linkNotices_down_silences {new : Link} (h : new.parkedOrLost = true) (s : State) (k : Nat) {old : Link}
    (hold : old.deliverable = true) {c : Nat} (h1 : 1 ≤ c) (h2 : c ≤ 24) :
    (s.linkNotices k old new).silencesIn k c := by
  rw [State.linkNotices_down h, if_pos hold]
  have hushed := (Hushed.calm ((s.lampOff k).presenceNotice k true)).releaseWhere (Hushed.refl _) k (fun _ => true)
  intro x hx
  rw [State.conference, State.releaseAllCues, hushed.conferences] at hx
  exact (s.lampOff k).presenceNotice_silences k h1 h2 x hx

/-- The link of a station is set to Parked or Lost. -/
theorem State.setLink_down {new : Link} (h : new.parkedOrLost = true) {s : State} {k : Nat} {x : Station}
    (hx : s.station k = some x) : (∃ z, (s.setLink k new).station k = some z ∧
      (x.stack.length ≤ 2 → z.stack = []) ∧ (x.link.deliverable = true → z.deliveredLamp = none)) ∧
      (x.link.deliverable = true → ∀ c, 1 ≤ c → c ≤ 24 → (s.setLink k new).silencesIn k c) := by
  unfold State.setLink
  rw [hx]
  exact ⟨State.linkNotices_down_station h (State.station_of_mod hx (fun x => { x with link := new })) x.link,
    fun hd c h1 h2 => State.linkNotices_down_silences h _ k hd h1 h2⟩

theorem State.blockAbandoned_stations (s : State) (x : Station) : (s.blockAbandoned x).stations = s.stations := by
  unfold State.blockAbandoned
  split <;> rfl

/-- Parking leaves the cue stack empty, the delivered lamp of a deliverable link Unknown, and its memberships silent (R63). -/
theorem State.parkStation_down {s : State} {k : Nat} {x : Station} (hx : s.station k = some x) :
    (∃ z, (s.parkStation k).station k = some z ∧ (x.stack.length ≤ 2 → z.stack = []) ∧
      (x.link.deliverable = true → z.deliveredLamp = none)) ∧
      (x.link.deliverable = true → ∀ c, 1 ≤ c → c ≤ 24 → (s.parkStation k).silencesIn k c) := by
  unfold State.parkStation
  rw [hx]
  dsimp only
  generalize hf : (fun x : Station => ({ x with
    wanted := { x.wanted with muted := true }
    attempts := 0
    tuneTimer := none
    watch := .off
    switchKind := none
    blockOutgoing := none
    quality := none
    qualityAge := none
    inhibit := false } : Station)) = f
  have kept : (f x).link = x.link ∧ (f x).stack = x.stack := by rw [← hf]; exact ⟨rfl, rfl⟩
  have handed : ∃ w, ((s.modStation k f).hand .tune k).station k = some w ∧ w.link = x.link ∧ w.stack = x.stack :=
    (Decides.ofStation k (F := fun z => z.link = x.link ∧ z.stack = x.stack)
      (fun _ kd _ h => by cases kd <;> exact h)).hand ⟨_, State.station_of_mod hx f, kept⟩ _ _
  obtain ⟨w, hw, link, stack⟩ := handed
  have down := State.setLink_down (new := .parked) rfl (s := ((s.modStation k f).hand .tune k).blockAbandoned x) (x := w)
    ((congrArg (Table.get · k) (State.blockAbandoned_stations _ x)).trans hw)
  rwa [link, stack] at down

end Sys2Proof.Machine

namespace Sys2Proof
open Machine

/-- Settles O29. -/
theorem bindAndUnbind : Obligations.BindAndUnbind := by
  intro o s x y c role ⟨ht, hright, hplan⟩ hx hy hcx hcy hprimary hstandby
  have claims : firstFailing (s.pairClaims o (some c)) = none :=
    passes_cons (claimHold_fst (by simpa [hx] using hcx))
      (passes_cons (claimHold_fst (by simpa [hy] using hcy)) firstFailing_nil)
  have links := passes_slotLinkTests hprimary hstandby
  refine ⟨fun hl hc hr hst hcls hslot hw => ?_, fun hl hr hslot hair => ?_⟩
  · have short : o.params.length ≤ 16 := by omega
    have tests : firstFailing (([s.lacks o .station 4, failIf (s.station (keyOf o)).isNone .key 1,
        failIf (s.carrier c).isNone .key 3] ++ s.pairClaims o (some c) ++ s.holds o ++
        [failIf (1 < role.code) .range 2]) ++ slotLinkTests (s.station (keyOf o)) role ++
        [bindTest (s.station (keyOf o)) (s.carrier c) (fun _ y => y.state != .cleared) 4,
          bindTest (s.station (keyOf o)) (s.carrier c) (fun x y => y.cls != x.kind.cls) 5,
          bindTest (s.station (keyOf o)) (s.carrier c) (fun x _ => (x.slotOf role).isSome) 6,
          bindTest (s.station (keyOf o)) (s.carrier c) (fun _ y => !s.carrierWindowOpen y) 9]) = none := by
      rw [hx, hy]
      refine passes_append (passes_append (passes_append (passes_append (passes_append
        (passes_cons (State.lacks_fst hright 4) (by simp)) claims)
        (State.passes_holds hplan)) (by simp [role.code_le])) links) ?_
      simp [bindTest, hst, hcls, hslot, hw]
    have bound := State.bindCarrier_station (s := s.begun o) (x := x) (y := y) hx hy role
    refine congrArg Host.Outcome.next ((State.takeOrder_takes (u := State.begun { s with
      carriers := s.carriers.put c { y with
        state := role.filled
        bound := some (keyOf o, role)
        intent := some (keyOf o, role)
        mark := addReason 3 y.mark }
      stations := s.stations.put (keyOf o) (x.withSlot role c)
      storeStates := if y.intent = some (keyOf o, role) then s.storeStates
        else { s.storeStates with carrier := true } } o) ht short (by simp [hl]) (by rw [hc, hr, roleOf_code]; exact tests) ?_ rfl).trans ?_)
    · rw [hc, hr, roleOf_code, hy]
      dsimp only
      rw [bound, State.carrierChanged_unless]
      rfl
    · cases role <;> rfl
  · have short : o.params.length ≤ 16 := by omega
    have slot : (if 1 < role.code then none else (s.station (keyOf o)).bind (Station.slotOf · role)) = some c := by
      rw [if_neg role.code_le, hx]
      exact hslot
    have live : (decide (role.code = 0) && decide ((some x).map Station.tally = some Tally.live)) = false ∨ s.forced o = true := by
      rcases hair with h | h | h
      · exact .inl (by simp [h, Role.code])
      · exact .inl (by simp [h])
      · exact .inr h
    have tests : firstFailing ([s.lacks o .station 4, failIf (s.station (keyOf o)).isNone .key 1] ++
        s.pairClaims o (some c) ++ s.holds o ++
        [s.airHold o (role.code = 0 && (s.station (keyOf o)).map Station.tally = some .live),
          failIf (1 < role.code) .range 2] ++ slotLinkTests (s.station (keyOf o)) role ++
        [failIf (some c).isNone .state 7]) = none := by
      rw [hx]
      refine passes_append (passes_append (passes_append (passes_append (passes_append
        (passes_cons (State.lacks_fst hright 4) (by simp)) claims)
        (State.passes_holds hplan)) (passes_cons (State.airHold_fst live) (by simp [role.code_le]))) links) (by simp)
    have emptied := State.unbindCarrier_eq (s := s.begun o) (x := x) (y := y) hx hy role
    refine congrArg Host.Outcome.next ((State.takeOrder_takes (u := State.begun { s with
      carriers := s.carriers.put c { y with
        state := if y.state = .blocked then .blocked else .cleared
        bound := none
        intent := none
        mark := addReason 5 y.mark }
      stations := s.stations.put (keyOf o) (x.withoutSlot role)
      storeStates := if y.intent = none then s.storeStates else { s.storeStates with carrier := true } } o) ht short
      (by simp [hl]) (by rw [hr, roleOf_code, slot]; exact tests) ?_
      (r := doneReply o) (by rw [hr, roleOf_code, slot])).trans ?_)
    · rw [hr, roleOf_code, slot]
      dsimp only
      rw [emptied]
      have held : (s.begun o).carrier c = some y := hy
      rw [held, Option.bind_some]
      cases y.intent <;> rfl
    · cases role <;> rfl

/-- Settles O30. -/
theorem goLive : Obligations.GoLive := by
  intro o s x c u y ha hx hc hp hl hprimary hy hw hu wanted
  have acts : s.actsOnStation o x := ⟨ha, hx, hc, hp⟩
  have own : firstFailing [stationTest (s.station (keyOf o)) (fun x => x.link != .parked) 1,
      stationTest (s.station (keyOf o)) (fun x => x.primary.isNone) 8,
      stationTest (s.station (keyOf o)) (fun x => !s.primaryWindowOpen x) 9,
      stationTest (s.station (keyOf o)) (fun x => x.controlUnit.isNone) 10] = none := by
    simp [stationTest, hx, hl, hprimary, State.primaryWindowOpen, hy, hw, hu]
  obtain ⟨b, started⟩ := State.startTune_eq (s := s.begun o) (x := x) hx hprimary (y := y) hy (by rw [hl]; rfl)
  refine ⟨_, _, congrArg Host.Outcome.next (State.stationAction_takes acts own started), Table.get_put_self _ _ _, rfl, rfl,
    fun j hj => ?_, rfl, rfl, Only.besideStations ?_ (s.besideStations_begun o) _, rfl, rfl, fun w hb hd hunit hpresent hkind hq he => ?_⟩
  · exact congrArg (Option.map Station.core) ((Table.get_put _ _ _ _).trans (if_neg hj))
  · exact rfl
  · have tuned := State.tuneTo_hand (s := s.begun o) (x := x) hx (y := y) hy 1 true
    have held := State.station_of_mod (s := s.begun o) (x := x) hx (fun _ => x.tunedTo y 1 (some 0))
    rw [if_pos rfl] at tuned
    have joined := State.hand_tune_queue held hu hb hd (w := w) hunit hpresent hkind hq he
    show ((s.begun o).tuneTo (keyOf o) c 1 true).queue = _
    rw [tuned]
    exact joined

/-- Settles O31. -/
theorem swapAndPark : Obligations.SwapAndPark := by
  intro o s x ha hx hc hp hair
  have acts : s.actsOnStation o x := ⟨ha, hx, hc, hp⟩
  have live : s.isLive (keyOf o) = false ∨ s.forced o = true :=
    hair.imp_left (fun h => by simp [State.isLive, hx, h])
  refine ⟨fun c y hl hs hy hst => ?_, fun hl => ?_⟩
  · have own : firstFailing [s.airHold o (s.isLive (keyOf o)),
        stationTest (s.station (keyOf o)) (fun x => !x.link.upOrWeak) 12,
        stationTest (s.station (keyOf o)) (fun x => !s.usableStandby x) 13] = none := by
      refine passes_cons (State.airHold_fst live) ?_
      have link : x.link.upOrWeak = true := by rcases hl with h | h <;> rw [h] <;> rfl
      simp [stationTest, hx, link, State.usableStandby, hs, hy, hst]
    have ready := (Changed.refl (s.begun o) (keyOf o)).modStation (g := fun x => { x with inhibit := false })
      (fun a b hab => by
        simp only [Station.core, Station.mk.injEq] at hab ⊢
        simp [hab])
    have held := State.station_of_mod (s := s.begun o) (x := x) hx (fun x => { x with inhibit := false })
    have switched := ready.startSwitch held hs (z := y) hy .operator false
    obtain ⟨v, hv, core⟩ := switched.core x hx
    exact ⟨_, v, congrArg Host.Outcome.next (State.stationAction_takes acts own rfl), hv, core, switched.others,
      switched.marks, switched.only.besideStations (s.besideStations_begun o) _, switched.only.storeStates, rfl⟩
  · have own : firstFailing [s.airHold o (s.isLive (keyOf o)),
        stationTest (s.station (keyOf o)) (fun x => x.link = .parked) 11] = none :=
      passes_cons (State.airHold_fst live) (by simp [stationTest, hx, hl])
    have parked := (Changed.refl (s.begun o) (keyOf o)).parkStation
    obtain ⟨v, hv, core⟩ := parked.core x hx
    refine ⟨_, v, congrArg Host.Outcome.next (State.stationAction_takes acts own rfl), hv, core, fun hstack => ?_,
      fun hd => ?_, parked.others, parked.marks, parked.only.besideStations (s.besideStations_begun o) _,
      parked.only.storeStates, rfl⟩
    · obtain ⟨⟨z, hz, empty, _⟩, _⟩ := State.parkStation_down (s := s.begun o) (x := x) hx
      rw [hz] at hv
      cases hv
      exact empty hstack
    · obtain ⟨⟨z, hz, _, lamp⟩, silent⟩ := State.parkStation_down (s := s.begun o) (x := x) hx
      rw [hz] at hv
      cases hv
      exact ⟨lamp hd, fun c z h1 h2 hz => silent hd c h1 h2 z hz⟩


end Sys2Proof
end

section
/-! The timers of a station's link: the Tune Timeout, the watch, the recovery run and the clean age (R59, R62, R64, R70). -/

namespace Sys2Proof.Machine

/-! ## Marks of a station -/

/-- A mark of a station that exists. -/
theorem State.station_markStation {s : State} {k : Nat} {x : Station} (hx : s.station k = some x) (r : Nat) :
    (s.markStation k r).station k = some { x with mark := addReason r x.mark } := State.station_of_mod hx _

/-- A change of a station that ends with a mark. -/
theorem Changed.marked {s t : State} {k : Nat} {f : Station → Station} (h : Changed s t k f) {x : Station}
    (hx : s.station k = some x) (r : Nat) :
    ∃ v, (t.markStation k r).station k = some v ∧ v.core = (f x).core ∧ r ∈ v.mark := by
  obtain ⟨z, hz, core⟩ := h.core x hx
  exact ⟨_, State.station_markStation hz r, core, mem_addReason_self r z.mark⟩

/-! ## Timers that run out -/

/-- The part runs, and no record is damaged. -/
structure State.runsSound (s : State) : Prop where
  service : s.service = .inService ∨ s.service = .faultHandling
  sound : s.badCodes = []

theorem State.runsSound.running {s : State} (h : s.runsSound) : s.running = true := by
  rcases h.service with h | h <;> rw [State.running, h] <;> rfl

theorem State.runsSound.timer {s : State} (h : s.runsSound) (rs : List RecordId) (f : State → State) : s.timer rs f = f s :=
  State.timer_sound h.running h.sound rs f

/-- What a cascade from one station leaves alone. -/
theorem Changed.around {s t : State} {k : Nat} {f : Station → Station} (h : Changed s t k f) : s.aroundStation t k :=
  ⟨h.others, h.marks, ⟨h.only.windows, h.only.galleries, h.only.settings, h.only.checkQueue, h.only.engine,
    h.only.sameMachine⟩, h.only.storeStates, h.only.port⟩

/-- A link set, and its notices, change no carrier. -/
theorem State.setLink_carriers (s : State) (k : Nat) (l : Link) : (s.setLink k l).carriers = s.carriers := by
  unfold State.setLink
  split
  · rfl
  · exact ((Quiet.soft _).linkNotices (Quiet.refl _) _ _ _).2.1

/-! ## The Tune Timeout -/

/-- A tune to any carrier, or to none, changes the station alone. -/
theorem Changed.tuneTo_any {s t : State} {k : Nat} {f : Station → Station} (h : Changed s t k f) (c n : Nat) (b : Bool) :
    ∃ g, Changed s (t.tuneTo k c n b) k g := by
  cases hy : t.carrier c with
  | some y => exact ⟨_, h.tuneTo hy n b⟩
  | none =>
    have nothing : t.tuneTo k c n b = t := by
      unfold State.tuneTo
      rw [hy]
      cases t.station k <;> rfl
    exact ⟨f, nothing.symm ▸ h⟩

/-- A switch that fails leaves the station Weak or Lost (R66). -/
@[reducible] def Station.switchFailed (x : Station) (lost : Bool) : Station :=
  { x with switchKind := none, blockOutgoing := none, inhibit := true, link := if lost then .lost else .weak }

/-- What a switch does that fails, once its tune is started (R66). -/
theorem Changed.switchFailed {s t : State} {k : Nat} {f : Station → Station} (h : Changed s t k f) (x : Station)
    (lost : Bool) : Changed s (((t.modStation k (fun x => { x with
        switchKind := none, blockOutgoing := none, inhibit := true })).blockAbandoned x).setLink k
      (if lost then .lost else .weak)) k (fun x => (f x).switchFailed lost) := by
  refine ((h.modStation ?_).blockAbandoned x).setLink _
  intro a b hab
  simp only [Station.core, Station.mk.injEq] at hab ⊢
  simp [hab]

theorem State.switchFail_eq {s : State} {k : Nat} {x : Station} (hx : s.station k = some x) :
    s.switchFail k = (((((match x.primary with | some p => s.tuneTo k p 0 false | none => s).modStation k (fun x => { x with
        switchKind := none, blockOutgoing := none, inhibit := true })).blockAbandoned x).setLink k
      (if (decide (x.watch = Watch.runOut)) then .lost else .weak))).markStation k StationReason.switchFailed := by
  unfold State.switchFail
  rw [hx]
  simp only [decide_eq_true_eq] <;> rfl

/-- A switch that fails changes the station alone. -/
theorem State.switchFail_changes (s : State) (k : Nat) : ∃ g, Changed s (s.switchFail k) k g := by
  cases hx : s.station k with
  | none =>
    have nothing : s.switchFail k = s := by
      unfold State.switchFail
      rw [hx]
    exact ⟨id, nothing.symm ▸ Changed.refl s k⟩
  | some x =>
    rw [State.switchFail_eq hx]
    cases x.primary with
    | none => exact ⟨_, ((Changed.refl s k).switchFailed x _).markStation _ _⟩
    | some p =>
      obtain ⟨g, tuned⟩ := (Changed.refl s k).tuneTo_any p 0 false
      exact ⟨_, (tuned.switchFailed x _).markStation _ _⟩

/-- A switch that fails brings the station back to its primary (R66). -/
theorem State.switchFail_station {s : State} {k p : Nat} {x : Station} {y : Carrier} (hx : s.station k = some x)
    (hp : x.primary = some p) (hy : s.carrier p = some y) :
    ∃ v, (s.switchFail k).station k = some v ∧
      v.core = ((x.tunedTo y 0 none).switchFailed (x.watch = .runOut)).core ∧ 9 ∈ v.mark := by
  rw [State.switchFail_eq hx, hp]
  exact ((((Changed.refl s k).tuneTo (y := y) hy 0 false).switchFailed x _).marked hx StationReason.switchFailed)

/-- The attempt that a Tune Timeout ends. -/
theorem State.tuneTimeout_eq {s : State} {k : Nat} {x : Station} (hx : s.station k = some x) (ht : x.tuneTimer ≠ none) :
    s.tuneTimeout k =
      match x.link with
      | .tuning =>
        if x.attempts < 3 then
          (match x.primary with | some p => s.tuneTo k p (x.attempts + 1) true | none => s)
        else s.tuneFailed k
      | .switching =>
        if x.attempts < 3 then
          (match x.standby with | some c => s.tuneTo k c (x.attempts + 1) true | none => s)
        else s.switchFail k
      | .parked | .up | .weak | .lost => s := by
  unfold State.tuneTimeout
  rw [hx]
  dsimp only
  rw [if_neg (by simpa using ht)]
  rfl

/-- A Tune Timeout changes the station alone. -/
theorem State.tuneTimeout_changes {s : State} {k : Nat} {x : Station} (hx : s.station k = some x) (ht : x.tuneTimer ≠ none) :
    ∃ g, Changed s (s.tuneTimeout k) k g := by
  rw [State.tuneTimeout_eq hx ht]
  have stays : ∃ g, Changed s s k g := ⟨_, Changed.refl s k⟩
  have retunes : ∀ slot : Option Nat, ∃ g,
      Changed s (match slot with | some c => s.tuneTo k c (x.attempts + 1) true | none => s) k g := by
    intro slot
    cases slot with
    | none => exact stays
    | some c => exact (Changed.refl s k).tuneTo_any c _ true
  cases x.link with
  | tuning =>
    dsimp only
    split
    · exact retunes x.primary
    · exact ⟨_, ((Changed.refl s k).parkStation).markStation _ _⟩
  | switching =>
    dsimp only
    split
    · exact retunes x.standby
    · exact s.switchFail_changes k
  | parked => exact stays
  | up => exact stays
  | weak => exact stays
  | lost => exact stays

/-! ## Recovery and the clean age -/

/-- A recovery run that completes makes the Blocked standby Standby (R70). -/
theorem State.recover_eq {s : State} {k c ms : Nat} {x : Station} {y : Carrier} (hx : s.station k = some x)
    (hr : x.recoveryRun = some ms) (hc : x.standby = some c) (hy : s.carrier c = some y) :
    s.recover k = { s with
      carriers := s.carriers.put c { y with state := .standby, alternate := none, mark := addReason 10 y.mark }
      stations := s.stations.put k { x with recoveryRun := none } } := by
  have run : s.recover k = ((s.modCarrier c (fun y => { y with state := .standby, alternate := none })).markCarrier c
      CarrierReason.recovered).stopRecovery k := by
    unfold State.recover
    rw [hx]
    dsimp only
    rw [hr, hc]
  rw [run, State.stopRecovery, State.modCarrier_mark hy]
  exact State.modStation_besideCarriers hx _ _

/-- A clean age that passes Link Watch stops the recovery run of the station whose Blocked standby the carrier is (R70). -/
theorem State.cleanAgePasses_eq {s : State} {c age : Nat} {y : Carrier} (hy : s.carrier c = some y)
    (ha : y.cleanAge = some age) :
    let t : State := { s with
      carriers := s.carriers.put c { y with cleanAge := some (max age (s.settings.linkWatch + 1)) } }
    s.cleanAgePasses c = match y.blockedStandbyOf with | none => t | some k => t.stopRecovery k := by
  intro t
  unfold State.cleanAgePasses
  rw [hy]
  dsimp only
  rw [ha]
  dsimp only
  rw [State.modCarrier_of hy] <;> rfl

end Sys2Proof.Machine

namespace Sys2Proof
open Machine

/-- Settles O32. -/
theorem tuneTimeouts : Obligations.TuneTimeouts := by
  intro k s x hs hb hx
  have sound : s.runsSound := ⟨hs, hb⟩
  have runs : exec (.tuneTimeout k) s = .next (s.tuneTimeout k) := congrArg Host.Outcome.next (sound.timer _ _)
  refine ⟨fun ht => ?_, fun ht => ?_⟩
  · refine runs.trans (congrArg Host.Outcome.next ?_)
    unfold State.tuneTimeout
    rw [hx]
    simp [ht]
  · have ends := State.tuneTimeout_eq hx ht
    obtain ⟨g, changed⟩ := State.tuneTimeout_changes hx ht
    obtain ⟨others, marks, beside, stores, port⟩ := changed.around
    refine ⟨_, runs, others, marks, beside, stores, port, fun c y hn hy hslot => ?_, fun hn hl => ?_,
      fun c y hn hl hp hy => ?_⟩
    · have retuned : s.tuneTimeout k = s.tuneTo k c (x.attempts + 1) true := by
        rw [ends]
        rcases hslot with ⟨hl, hc⟩ | ⟨hl, hc⟩ <;> simp [hl, hc, hn]
      rw [retuned]
      exact ((Changed.refl s k).tuneTo (y := y) hy _ true).core x hx
    · have failed : s.tuneTimeout k = s.tuneFailed k := by
        rw [ends, hl]
        exact if_neg (Nat.not_lt.2 hn)
      rw [failed]
      exact (Changed.refl s k).parkStation.marked hx StationReason.tuneFailed
    · have failed : s.tuneTimeout k = s.switchFail k := by
        rw [ends, hl]
        exact if_neg (Nat.not_lt.2 hn)
      rw [failed]
      obtain ⟨v, hv, core, mark⟩ := State.switchFail_station hx hp hy
      refine ⟨v, hv, mark, core.trans ?_⟩
      simp [Station.switchFailed]

/-- Settles O33. -/
theorem watchRunsOut : Obligations.WatchRunsOut := by
  intro k ms s x hs hb hx hw
  have sound : s.runsSound := ⟨hs, hb⟩
  have runs : exec (.watchRunsOut k) s = .next (s.watchRunsOut k) := congrArg Host.Outcome.next (sound.timer _ _)
  have held := State.station_of_mod hx (fun x => { x with watch := .runOut })
  refine ⟨fun hl => ?_, fun hl => ?_⟩
  · have lost : s.watchRunsOut k =
        ((s.modStation k (fun x => { x with watch := .runOut })).setLink k .lost).markStation k StationReason.linkLost := by
      unfold State.watchRunsOut
      rw [hx]
      rcases hl with h | h <;> simp [hw, h]
    have changed := ((Changed.refl s k).modStation (g := fun x => { x with watch := .runOut }) (fun a b hab => by
      simp only [Station.core, Station.mk.injEq] at hab ⊢
      simp [hab])).setLink .lost
    obtain ⟨others, marks, beside, stores, port⟩ := (changed.markStation k StationReason.linkLost).around
    have deliverable : x.link.deliverable = true := by rcases hl with h | h <;> rw [h] <;> rfl
    obtain ⟨⟨z, hz, empty, lamp⟩, _⟩ := State.setLink_down (new := .lost) rfl held
    obtain ⟨w, hw, core⟩ := changed.core x hx
    rw [hz] at hw
    cases hw
    refine ⟨_, _, runs.trans (congrArg Host.Outcome.next lost), State.station_markStation hz _, core,
      mem_addReason_self _ _, empty, lamp deliverable, others, ?_, beside, stores, port⟩
    exact State.setLink_carriers _ _ _
  · have noted : s.watchRunsOut k = s.modStation k (fun x => { x with watch := .runOut }) := by
      unfold State.watchRunsOut
      rw [hx]
      dsimp only
      rw [hw, hl]
    exact runs.trans (congrArg Host.Outcome.next (noted.trans (State.modStation_of hx _)))

/-- Settles O34. -/
theorem recoveryRuns : Obligations.RecoveryRuns := by
  refine ⟨fun k c ms s x y hs hb hx hr hc hy => ?_, fun c age s y hs hb hy ha => ?_⟩
  · refine congrArg Host.Outcome.next ((State.runsSound.timer ⟨hs, hb⟩ _ _).trans ?_)
    exact State.recover_eq hx hr hc hy
  · have runs : exec (.cleanAgePassingLinkWatch c) s = .next (s.cleanAgePasses c) :=
      congrArg Host.Outcome.next (State.runsSound.timer ⟨hs, hb⟩ _ _)
    have passes := State.cleanAgePasses_eq hy ha
    refine ⟨fun k x hst hbound hx => runs.trans (congrArg Host.Outcome.next (passes.trans ?_)),
      fun hno => runs.trans (congrArg Host.Outcome.next (passes.trans ?_))⟩
    · rw [(y.blockedStandbyOf_eq_some k).2 ⟨hst, hbound⟩]
      exact State.modStation_besideCarriers hx _ _
    · have none : y.blockedStandbyOf = none := by
        rw [Option.eq_none_iff_forall_ne_some]
        intro k hk
        obtain ⟨hst, hbound⟩ := (y.blockedStandbyOf_eq_some k).1 hk
        exact hno.elim (fun h => h hst) (fun h => h k hbound)
      rw [none]

end Sys2Proof
end

section
/-! Calls, and the cue orders (R90, R91, R116 to R122). -/

namespace Sys2Proof.Machine

/-! ## Lamps -/

/-- Recomputing a lamp keeps what neither a lamp nor a delivery base bears on. -/
theorem State.recomputeLamp_keeps {p : Nat} {F : Station → Prop} (hb : ∀ x kd b, F x → F (x.withBase kd b))
    (hl : ∀ x l, F x → F { x with lamp := l }) {s : State} (h : ∃ z, s.station p = some z ∧ F z) (j : Nat) :
    ∃ z, (s.recomputeLamp j).station p = some z ∧ F z := by
  unfold State.recomputeLamp
  cases hj : s.station j with
  | none => exact h
  | some y =>
    dsimp only
    split
    · exact h
    · refine (Decides.ofStation p hb).hand ?_ _ _
      obtain ⟨z, hz, hf⟩ := h
      by_cases hp : p = j
      · subst hp
        exact ⟨_, State.station_of_mod hz _, hl z _ hf⟩
      · exact ⟨z, by rw [State.station_modStation, if_neg hp, hz], hf⟩

/-- Recomputing the lamps of a station and its partner keeps what neither a lamp nor a delivery base bears on. -/
theorem State.recomputeLamps_keeps {p : Nat} {F : Station → Prop} (hb : ∀ x kd b, F x → F (x.withBase kd b))
    (hl : ∀ x l, F x → F { x with lamp := l }) {s : State} (h : ∃ z, s.station p = some z ∧ F z) (k : Nat) :
    ∃ z, (s.recomputeLamps k).station p = some z ∧ F z := by
  unfold State.recomputeLamps
  split
  · exact h
  · dsimp only
    split
    · exact State.recomputeLamp_keeps hb hl (State.recomputeLamp_keeps hb hl h k) _
    · exact State.recomputeLamp_keeps hb hl h k

/-- A station with a lamp and a call of its own. -/
structure Station.calls (x : Station) : Prop where
  lamp : x.kind.hasLamp = true
  call : x.call.isSome = true

/-- The lamp shows a call. -/
def Station.showsCall (x : Station) : Prop := ∃ l, x.lamp = some l ∧ l.call = true

theorem State.lampOf_calls {s : State} {k : Nat} {x : Station} (hx : s.station k = some x) (h : x.calls) :
    ∃ l, s.lampOf k = some l ∧ l.call = true := by
  unfold State.lampOf
  simp only [hx, h.lamp, if_true]
  exact ⟨_, rfl, by simp [h.call]⟩

/-- A calling station's lamp shows its call once it is recomputed (R87). -/
theorem State.recomputeLamp_calls {s : State} {k : Nat} {x : Station} (hx : s.station k = some x) (h : x.calls) :
    ∃ z, (s.recomputeLamp k).station k = some z ∧ z.calls ∧ z.showsCall := by
  obtain ⟨l, hl, call⟩ := State.lampOf_calls hx h
  unfold State.recomputeLamp
  rw [hx]
  dsimp only
  rw [hl]
  split
  · next same => exact ⟨x, hx, h, l, same.symm, call⟩
  · refine (Decides.ofStation k (F := fun z => z.calls ∧ z.showsCall) ?_).hand ?_ _ _
    · rintro z kd b ⟨⟨lamp, held⟩, shown⟩
      cases kd <;> exact ⟨⟨lamp, held⟩, shown⟩
    · exact ⟨_, State.station_of_mod hx _, ⟨h.lamp, h.call⟩, l, rfl, call⟩

/-- Another station's lamp leaves a calling station's lamp alone. -/
theorem State.recomputeLamp_shows {s : State} {k : Nat} (h : ∃ z, s.station k = some z ∧ z.calls ∧ z.showsCall) (j : Nat) :
    ∃ z, (s.recomputeLamp j).station k = some z ∧ z.calls ∧ z.showsCall := by
  obtain ⟨z, hz, calls, shows⟩ := h
  by_cases hj : j = k
  · subst hj
    exact State.recomputeLamp_calls hz calls
  · unfold State.recomputeLamp
    split
    · exact ⟨z, hz, calls, shows⟩
    · dsimp only
      split
      · exact ⟨z, hz, calls, shows⟩
      · refine (Decides.ofStation k (F := fun z => z.calls ∧ z.showsCall) ?_).hand ?_ _ _
        · rintro z kd b ⟨⟨lamp, held⟩, shown⟩
          cases kd <;> exact ⟨⟨lamp, held⟩, shown⟩
        · exact ⟨z, by rw [State.station_modStation, if_neg (Ne.symm hj), hz], calls, shows⟩

theorem State.recomputeLamps_calls {s : State} {k : Nat} {x : Station} (hx : s.station k = some x) (h : x.calls) :
    ∃ z, (s.recomputeLamps k).station k = some z ∧ z.showsCall := by
  have shown : ∃ z, (s.recomputeLamps k).station k = some z ∧ z.calls ∧ z.showsCall := by
    unfold State.recomputeLamps
    rw [hx]
    dsimp only
    split
    · exact State.recomputeLamp_shows (State.recomputeLamp_calls hx h) _
    · exact State.recomputeLamp_calls hx h
  obtain ⟨z, hz, _, shows⟩ := shown
  exact ⟨z, hz, shows⟩

/-! ## A change of one station, and lamps and cues told -/

/-- A change of one station's core beside hushed notices. -/
theorem Hushed.others {s t : State} {k : Nat} {f : Station → Station} (h : Hushed (s.modStation k f) t) : s.othersKeep t k := by
  intro j hj
  rw [h.quiet.2.2 j, State.station_modStation, if_neg hj]

theorem Hushed.core {s t : State} (h : Hushed s t) {k : Nat} {x : Station} (hx : s.station k = some x) :
    ∃ v, t.station k = some v ∧ v.core = x.core := by
  have kept := h.quiet.2.2 k
  rw [hx] at kept
  exact Option.map_eq_some_iff.1 kept

theorem Hushed.trans {s t u : State} (h : Hushed s t) (g : Hushed t u) : Hushed s u :=
  ⟨⟨h.quiet.1.trans g.quiet.1, g.quiet.2.1.trans h.quiet.2.1, fun k => (g.quiet.2.2 k).trans (h.quiet.2.2 k)⟩,
    g.conferences.trans h.conferences, fun k => (g.lamps k).trans (h.lamps k)⟩

theorem Only.modStation (s : State) (k : Nat) (f : Station → Station) : Only s (s.modStation k f) := rfl

/-! ## Calls -/

/-- A call order whose tests pass has its effect. -/
theorem State.callOrder_takes {s : State} {o : Order} {x : Station} (ht : s.takes) (hr : s.holdsRight o .gallery)
    (hx : s.station (keyOf o) = some x) (hl : x.kind.hasLamp = true) (hp : o.params = []) {own : List Check1}
    (hown : firstFailing own = none) (verb : Nat) (f : State → State) :
    s.callOrder o verb own f = (f (s.begun o)).answer (doneReply o) := by
  refine State.takeOrder_takes ht (length_of_noParams hp) (by simp [hp]) ?_ rfl rfl
  exact passes_append (passes_cons (State.lacks_fst hr 5) (by simp [hx, stationTest, hl])) hown

/-- The call of a station is ended, and that of its partner (R90). -/
structure State.callsEnded (s : State) (k : Nat) (x : Station) (t : State) : Prop where
  only : Only s t
  carriers : t.carriers = s.carriers
  conferences : t.conferences = s.conferences
  station : t.station k = some { x with call := none, callRemaining := none }
  partner : ∀ p y, x.pair = some p → p ≠ k → s.station p = some y →
    ∃ w, t.station p = some w ∧ w.call = none ∧ (y.call ≠ none → 16 ∈ w.mark)
  others : ∀ j, j ≠ k → x.pair ≠ some j → t.station j = s.station j

/-- The partner's call is ended with a mark, when it holds one. -/
theorem State.endCallMarked_station {s : State} {p : Nat} {y : Station} (hy : s.station p = some y) (r : Nat) :
    ∃ w, (s.endCallMarked p r).station p = some w ∧ w.call = none ∧ (y.call ≠ none → r ∈ w.mark) := by
  unfold State.endCallMarked State.callHeld
  rw [hy]
  dsimp only
  split
  · exact ⟨_, State.station_markStation (State.station_of_mod hy _) r, rfl, fun _ => mem_addReason_self _ _⟩
  · next h =>
    have none : y.call = none := by simpa using h
    exact ⟨y, hy, none, fun h => absurd none h⟩

theorem State.endCallMarked_others (s : State) (p r : Nat) {j : Nat} (h : j ≠ p) :
    (s.endCallMarked p r).station j = s.station j := by
  unfold State.endCallMarked
  split
  · rw [State.markStation, State.station_modStation, if_neg h, State.endCall, State.station_modStation, if_neg h]
  · rfl

theorem State.endCallMarked_frame (s : State) (p r : Nat) : Only s (s.endCallMarked p r) ∧
    (s.endCallMarked p r).carriers = s.carriers ∧ (s.endCallMarked p r).conferences = s.conferences := by
  unfold State.endCallMarked
  split <;> exact ⟨rfl, rfl, rfl⟩

/-- CLEAR CALL ends the calls of a station and its partner, before their lamps are recomputed. -/
theorem State.clearCalls_eq {s : State} {k : Nat} {x : Station} (hx : s.station k = some x) :
    ∃ t, s.clearCalls k = t.recomputeLamps k ∧ s.callsEnded k x t := by
  have held := State.station_of_mod hx (fun x => { x with call := none, callRemaining := none })
  have partner : s.partnerOf k = x.pair := congrArg (Option.bind · Station.pair) hx
  have ended : s.clearCalls k = (match x.pair with
      | some p => (s.endCall k).endCallMarked p StationReason.callEnded
      | none => s.endCall k).recomputeLamps k :=
    congrArg (fun q : Option Nat => (match q with
      | some p => (s.endCall k).endCallMarked p StationReason.callEnded
      | none => s.endCall k).recomputeLamps k) partner
  have others : ∀ j, j ≠ k → (s.endCall k).station j = s.station j := fun j hj => by
    rw [State.endCall, State.station_modStation, if_neg hj]
  refine ⟨_, ended, ?_⟩
  cases hp : x.pair with
  | none => exact ⟨rfl, rfl, rfl, held, fun _ _ h => absurd (hp.symm.trans h) nofun, fun j hj _ => others j hj⟩
  | some p =>
    obtain ⟨only, carriers, conferences⟩ := (s.endCall k).endCallMarked_frame p StationReason.callEnded
    refine ⟨(Only.modStation s k _).trans only, carriers, conferences, ?_, fun q y hq hne hy => ?_, fun j hj hq => ?_⟩
    · by_cases h : k = p
      · subst h
        have silent : (s.endCall k).callHeld k = false := by
          unfold State.callHeld
          rw [State.endCall, held]
          rfl
        dsimp only
        rw [State.endCallMarked, silent]
        exact held
      · exact ((s.endCall k).endCallMarked_others p _ h).trans held
    · obtain rfl : p = q := Option.some.inj (hp.symm.trans hq)
      exact State.endCallMarked_station ((others p hne).trans hy) _
    · have h : j ≠ p := fun h => hq (h ▸ hp)
      exact ((s.endCall k).endCallMarked_others p _ h).trans (others j hj)

end Sys2Proof.Machine

namespace Sys2Proof
open Machine

/-- Settles O35. -/
theorem calls : Obligations.Calls := by
  refine ⟨fun o s x ht hr hx hl hp => ⟨?_, fun hcall => ?_⟩, fun k ms s x hs hb hx hc => ?_⟩
  · have taken := State.callOrder_takes ht hr hx hl hp firstFailing_nil 21 (State.startCall · (keyOf o))
    have held := State.station_of_mod (s := s.begun o) (x := x) hx (fun x => { x with
      call := some x.callMode
      callRemaining := match x.callMode with | .single => some Config.callTime | .latched => none })
    have hushed := (Hushed.calm _).recomputeLamps (Hushed.refl ((s.begun o).modStation (keyOf o) (fun x => { x with
      call := some x.callMode
      callRemaining := match x.callMode with | .single => some Config.callTime | .latched => none }))) (keyOf o)
    obtain ⟨v, hv, core⟩ := hushed.core held
    obtain ⟨z, hz, shows⟩ := State.recomputeLamps_calls held ⟨hl, rfl⟩
    rw [hv] at hz
    cases hz
    exact ⟨_, v, congrArg Host.Outcome.next taken, hv, core, shows, hushed.others, hushed.quiet.2.1, hushed.conferences,
      ((Only.modStation _ _ _).trans hushed.quiet.1).besideStations (s.besideStations_begun o) _, hushed.quiet.1.storeStates, rfl⟩
  · have any : s.anyCall (keyOf o) = true := by
      unfold State.anyCall State.partnerOf State.callHeld
      rcases hcall with h | ⟨p, y, hp, hy, h⟩
      · simp [hx, Option.isSome_iff_ne_none.2 h]
      · simp [hx, hp, hy, Option.isSome_iff_ne_none.2 h]
    have taken := State.callOrder_takes ht hr hx hl hp (own := [failIf (!s.anyCall (keyOf o)) .state 15]) (by simp [any]) 22
      (State.clearCalls · (keyOf o))
    obtain ⟨u, cleared, ended⟩ := State.clearCalls_eq (s := s.begun o) (x := x) hx
    rw [cleared] at taken
    have hushed := (Hushed.calm u).recomputeLamps (Hushed.refl u) (keyOf o)
    obtain ⟨v, hv, core⟩ := hushed.core ended.station
    refine ⟨_, v, congrArg Host.Outcome.next taken, hv, core, fun p y hp hne hy => ?_, fun j hj hp => ?_,
      hushed.quiet.2.1.trans ended.carriers, hushed.conferences.trans ended.conferences,
      (ended.only.trans hushed.quiet.1).besideStations (s.besideStations_begun o) _,
      (ended.only.trans hushed.quiet.1).storeStates, rfl⟩
    · exact State.recomputeLamps_keeps (F := fun w => w.call = none ∧ (y.call ≠ none → 16 ∈ w.mark))
        (fun _ kd _ h => by cases kd <;> exact h) (fun _ _ h => h) (ended.partner p y hp hne hy) (keyOf o)
    · exact (hushed.quiet.2.2 j).trans (congrArg (Option.map Station.core) (ended.others j hj hp))
  · have runs : exec (.callTimeout k) s = .next (s.callRunsOut k) :=
      congrArg Host.Outcome.next (State.runsSound.timer ⟨hs, hb⟩ _ _)
    have ends : s.callRunsOut k = ((s.endCall k).recomputeLamps k).markStation k StationReason.callEnded := by
      unfold State.callRunsOut
      rw [hx]
      simp [hc]
    have held := State.station_of_mod (s := s) (x := x) hx (fun x => { x with call := none, callRemaining := none })
    have hushed := (Hushed.calm _).recomputeLamps (Hushed.refl (s.endCall k)) k
    obtain ⟨w, hw, core⟩ := hushed.core (k := k) held
    have marked := hushed.trans ((Hushed.calm _).markStation (Hushed.refl _) k StationReason.callEnded)
    have only := (Only.modStation s k _).trans marked.quiet.1
    exact ⟨_, _, runs.trans (congrArg Host.Outcome.next ends), State.station_markStation hw _, core, mem_addReason_self _ _,
      marked.others, marked.quiet.2.1, marked.conferences, ⟨only.windows, only.galleries, only.settings, only.checkQueue, only.engine,
    only.sameMachine⟩, only.storeStates, only.port⟩

end Sys2Proof
end

section
/-! The cue orders and the cue timer (R116 to R122). -/

namespace Sys2Proof.Machine

/-! ## Cue orders -/

/-- A cue order whose own tests pass has its effect. -/
theorem State.cueOrder_takes {s : State} {o : Order} {x : Station} (ht : s.takes) (hr : s.holdsRight o .talkback)
    (hx : s.station (keyOf o) = some x) (hk : x.kind.hasCue = true) {count : Nat} (hp : o.params.length = count)
    (hc : count ≤ 16) {bad : Bool} (hb : bad = false) {own : List Check1} (hown : firstFailing own = none) (verb : Nat)
    {f : State → State × Reply} {u : State} {r : Reply} (hu : (f (s.begun o)).1 = u) (hr' : (f (s.begun o)).2 = r) :
    s.cueOrder o verb count bad own f = u.answer r := by
  refine State.takeOrder_takes ht (by omega) (by simp [hp]) ?_ hu hr'
  exact passes_append (passes_cons (State.lacks_fst hr 6) (by simp [hx, hb, stationTest, hk])) hown

/-- A cue order whose own tests fail is refused. -/
theorem State.cueOrder_refuses {s : State} {o : Order} {x : Station} (ht : s.takes) (hr : s.holdsRight o .talkback)
    (hx : s.station (keyOf o) = some x) (hk : x.kind.hasCue = true) {count : Nat} (hp : o.params.length = count)
    (hc : count ≤ 16) {bad : Bool} (hb : bad = false) {own : List Check1} {st : Status} {d : Nat} {ws : List Word}
    (hown : firstFailing own = some ⟨st, d, ws⟩) (verb : Nat) {f : State → State × Reply} :
    s.cueOrder o verb count bad own f = s.answered o st d ws := by
  refine State.takeOrder_refuses ht (by omega) (by simp [hp]) ?_
  exact (firstFailing_append (passes_cons (State.lacks_fst hr 6) (by simp [hx, hb, stationTest, hk])) own).trans hown

@[simp] theorem cueLevelOf_code (l : CueLevel) : cueLevelOf l.code = l := by cases l <;> rfl

/-- The level at which an operator's press is honoured (R117). -/
def operatorLevel (n : Nat) (asked : CueLevel) : CueLevel := if n = 0 then asked else .floor

theorem State.legalLevel_operator (s : State) (n : Nat) (asked : CueLevel) :
    s.legalLevel (.operator n) asked = operatorLevel n asked := by
  cases asked with
  | floor => simp [State.legalLevel, operatorLevel]
  | director => rfl

theorem holdsEntry_iff {stack : List CueEntry} {src : Source} :
    holdsEntry stack src = true ↔ ∃ e ∈ stack, e.source = src := by
  simp [holdsEntry]

theorem holdsEntry_eq_false {stack : List CueEntry} {src : Source} :
    holdsEntry stack src = false ↔ ∀ e ∈ stack, e.source ≠ src := by
  simp [holdsEntry]

/-! ## What a press meets -/

theorem pressResult_down {x : Station} (h : x.link = .parked ∨ x.link = .lost) (src : Source) (level : CueLevel) :
    pressResult x src level = .linkDown := by
  rcases h with h | h <;> simp [pressResult, h, Link.parkedOrLost]

theorem Link.stands {l : Link} (hp : l ≠ .parked) (hl : l ≠ .lost) : l.parkedOrLost = false := by
  cases l with
  | parked => exact absurd rfl hp
  | lost => exact absurd rfl hl
  | tuning => rfl
  | up => rfl
  | weak => rfl
  | switching => rfl

theorem pressResult_repeated {x : Station} (hl : x.link.parkedOrLost = false) {src : Source}
    (h : holdsEntry x.stack src = true) (level : CueLevel) : pressResult x src level = .repeated := by
  simp [pressResult, hl, h]

theorem pressResult_declined {x : Station} (hl : x.link.parkedOrLost = false) (hs : x.stack = []) (ha : x.accept = false)
    (src : Source) : pressResult x src .floor = .declined := by
  simp [pressResult, hl, hs, ha, holdsEntry]

theorem pressResult_pushed {x : Station} (hl : x.link.parkedOrLost = false) {src : Source}
    (hn : holdsEntry x.stack src = false) {level : CueLevel}
    (h : (x.stack = [] ∧ (level = .director ∨ x.accept = true)) ∨ (∃ e, x.stack = [e] ∧ e.level = .floor ∧ level = .director)) :
    pressResult x src level = .pushed := by
  rcases h with ⟨hs, ha⟩ | ⟨e, hs, he, rfl⟩
  · cases level with
    | director => simp [pressResult, hl, hs, holdsEntry]
    | floor =>
      have accepts : x.accept = true := ha.resolve_left nofun
      simp [pressResult, hl, hs, holdsEntry, accepts]
  · rw [hs] at hn
    simp [pressResult, hl, hs, hn, he]

/-- A press on a full stack, or at a level that the stack's one entry does not let over it, meets a busy stack. -/
theorem pressResult_busy {x : Station} (hl : x.link.parkedOrLost = false) {src : Source}
    (hn : holdsEntry x.stack src = false) {level : CueLevel}
    (h : 2 ≤ x.stack.length ∨ ∃ e, x.stack = [e] ∧ (level = .floor ∨ e.level = .director)) :
    pressResult x src level = .busy := by
  rcases h with h | ⟨e, hs, h⟩
  · match hs : x.stack, h with
    | a :: b :: rest, _ =>
      rw [hs] at hn
      cases level <;> simp [pressResult, hl, hs, hn]
  · rw [hs] at hn
    cases level with
    | floor => simp [pressResult, hl, hs, hn]
    | director =>
      have top : e.level = .director := h.resolve_left nofun
      simp [pressResult, hl, hs, hn, top]

/-! ## Releases -/

theorem Hushed.keep {s t : State} (h : Hushed s t) (k : Nat) : s.othersKeep t k := fun j _ => h.quiet.2.2 j

/-- The tests of a CUE that a press or a release makes. -/
def State.cueTests (s : State) (o : Order) : List Check1 :=
  let src := Source.operator o.operator.val
  let press := fieldNat o.params 1 = 1
  let result := (s.station (keyOf o)).map (fun x => pressResult x src (s.legalLevel src (cueLevelOf (fieldNat o.params 0))))
  let held := match s.station (keyOf o) with | some x => holdsEntry x.stack src | none => false
  [failIf (press && result = some .linkDown) .state 17,
    failIf (press && result = some .declined) .state 18,
    failIf (press && (result = some .busy || result = some .repeated)) .state 19,
    failIf (!press && !held) .state 20]

/-- What a release leaves, by the stack's entries (R119). -/
theorem Station.afterRelease_of {x v : Station} {src : Source} (hs : v.stack = (releaseFrom x.stack x.accept src).1)
    (ha : v.accept = (releaseFrom x.stack x.accept src).2) (hr : v.cueRoute = currentSource v.stack) :
    x.afterRelease src v := by
  refine ⟨hr, fun e he hsrc => ?_, fun b e he hsrc => ?_, fun b e he hne hsrc => ?_⟩
  · rw [he] at hs ha
    simp only [releaseFrom, hsrc, if_true] at hs ha
    exact ⟨hs, ha⟩
  · rw [he] at hs ha
    simp only [releaseFrom, hsrc, if_true] at hs ha
    exact ⟨hs, ha⟩
  · rw [he] at hs ha
    simp only [releaseFrom, hsrc, hne, if_true, if_false] at hs ha
    exact ⟨hs, ha⟩

/-- A release of an entry that a stack holds. -/
theorem State.cueRelease_leaves {s : State} {k : Nat} {x : Station} (hx : s.station k = some x) {src : Source}
    (h : ∃ e ∈ x.stack, e.source = src) :
    Hushed s (s.cueRelease k src) ∧
      ∃ v, (s.cueRelease k src).station k = some v ∧ v.core = x.core ∧ x.afterRelease src v := by
  have hushed := (Hushed.calm s).cueRelease (Hushed.refl s) k src
  obtain ⟨v, hv, core⟩ := hushed.core hx
  obtain ⟨z, hz, stack, accept, route⟩ := State.cueRelease_station hx (holdsEntry_iff.2 h)
  rw [hv] at hz
  cases hz
  exact ⟨hushed, v, hv, core, Station.afterRelease_of stack accept route⟩

/-- A push leaves its entry on top of the stack, and the station declines (R116). -/
theorem State.cuePush_leaves {s : State} {k : Nat} {x : Station} (hx : s.station k = some x) (src : Source) (level : CueLevel) :
    Hushed s (s.cuePush k src level) ∧ ∃ v, (s.cuePush k src level).station k = some v ∧ v.core = x.core ∧
      v.stack = x.stack ++ [⟨src, level, x.accept, s.settings.cueLimit * 1000⟩] ∧ v.accept = false ∧ v.cueRoute = some src := by
  have pushes : s.cuePush k src level =
      s.setStack k (x.stack ++ [⟨src, level, x.accept, s.settings.cueLimit * 1000⟩]) false := by
    simp only [State.cuePush, hx]
  have hushed := (Hushed.calm s).setStack (Hushed.refl _) k
    (x.stack ++ [⟨src, level, x.accept, s.settings.cueLimit * 1000⟩]) false
  obtain ⟨v, hv, core⟩ := hushed.core hx
  obtain ⟨z, hz, stack, accept, route⟩ := State.setStack_station hx
    (x.stack ++ [⟨src, level, x.accept, s.settings.cueLimit * 1000⟩]) false
  rw [hv] at hz
  cases hz
  rw [pushes]
  refine ⟨hushed, v, hv, core, stack, accept, ?_⟩
  rw [route, currentSource, List.getLast?_concat, Option.map_some]

theorem Station.setAccept_empty {x : Station} (h : x.stack = []) (accept : Bool) :
    x.setAccept accept = { x with accept := accept } := by
  unfold Station.setAccept
  split
  · rfl
  · next hs => rw [h] at hs; cases hs

theorem Station.setAccept_held {x : Station} {e : CueEntry} {rest : List CueEntry} (h : x.stack = e :: rest) (accept : Bool) :
    x.setAccept accept = { x with stack := { e with saved := accept } :: rest } := by
  unfold Station.setAccept
  split
  · next hs => rw [h] at hs; cases hs
  · next hs =>
    rw [h] at hs
    cases hs
    rfl

end Sys2Proof.Machine

namespace Sys2Proof
open Machine

/-- Settles O36. -/
theorem cuePress : Obligations.CuePress := by
  intro o s x asked ht hr hx hk hp hlevel hpress source level
  have legal : s.legalLevel source (cueLevelOf (fieldNat o.params 0)) = level := by
    rw [hlevel, cueLevelOf_code]
    exact s.legalLevel_operator _ asked
  have met : (s.station (keyOf o)).map (fun x => pressResult x source (s.legalLevel source (cueLevelOf (fieldNat o.params 0)))) =
      some (pressResult x source level) := by rw [legal, hx]; rfl
  have bad : (decide (1 < fieldNat o.params 0) || decide (1 < fieldNat o.params 1)) = false := by
    rw [hlevel, hpress]
    cases asked <;> rfl
  have refuses : ∀ d, firstFailing (s.cueTests o) = some ⟨.state, d, []⟩ → exec (.cue o) s = .next (s.answered o .state d []) :=
    fun d h => congrArg Host.Outcome.next (State.cueOrder_refuses ht hr hx hk hp (by decide) bad h 24)
  refine ⟨fun hl => refuses 17 ?_, fun hnp hnl hsrc => ⟨fun hs hf ha => refuses 18 ?_, fun hpush => ?_⟩,
    fun hnp hnl hbusy => refuses 19 ?_⟩
  · simp only [State.cueTests]
    rw [met, pressResult_down hl]
    simp [hpress]
  · simp only [State.cueTests]
    rw [met, hf, pressResult_declined (Link.stands hnp hnl) hs ha]
    simp [hpress]
  · have pushed := pressResult_pushed (Link.stands hnp hnl) (holdsEntry_eq_false.2 hsrc) hpush
    have own : firstFailing (s.cueTests o) = none := by
      simp only [State.cueTests]
      rw [met, pushed]
      simp [hpress]
    have held : (s.begun o).station (keyOf o) = some x := hx
    have taken : exec (.cue o) s = .next (((s.begun o).cuePush (keyOf o) source level).answer
        (adjustedReply o (level != asked) 2)) := by
      refine congrArg Host.Outcome.next (State.cueOrder_takes ht hr hx hk hp (by decide) bad own 24 ?_ ?_)
      · rw [legal, hpress]
        rfl
      · rw [legal, hpress, hlevel, cueLevelOf_code]
        rfl
    obtain ⟨hushed, v, hv, core, stack, accept, route⟩ := State.cuePush_leaves held source level
    refine ⟨_, v, taken, hv, core, stack, accept, route, hushed.keep _, hushed.quiet.2.1, hushed.conferences,
      hushed.quiet.1.besideStations (s.besideStations_begun o) _, hushed.quiet.1.storeStates, ?_⟩
    by_cases h : level = asked <;> simp [State.answer, adjustedReply, doneReply, h]
  · have standing := Link.stands hnp hnl
    have result : pressResult x source level = .busy ∨ pressResult x source level = .repeated := by
      by_cases held : holdsEntry x.stack source = true
      · exact .inr (pressResult_repeated standing held level)
      · refine .inl (pressResult_busy standing (by simpa using held) (hbusy.resolve_left (fun h => held (holdsEntry_iff.2 h))))
    simp only [State.cueTests]
    rw [met]
    rcases result with h | h <;> rw [h] <;> simp [hpress]

/-- Settles O37. -/
theorem cueReleasesAndAccept : Obligations.CueReleasesAndAccept := by
  refine ⟨fun o s x ht hr hx hk hp h0 h1 => ?_, fun k w source s x hs hb hx hw hl hheld => ?_,
    fun o s x e rest ht hr hx hk hp hstack hrest => ?_, fun o s x ht hr hx hk hp h0 => ?_⟩
  · have bad : (decide (1 < fieldNat o.params 0) || decide (1 < fieldNat o.params 1)) = false := by
      simp [h1, Nat.not_lt.2 h0]
    refine ⟨fun hn => congrArg Host.Outcome.next (State.cueOrder_refuses ht hr hx hk hp (by decide) bad
      (own := s.cueTests o) ?_ 24), fun _ hheld => ?_⟩
    · simp [State.cueTests, h1, hx, holdsEntry_eq_false.2 hn]
    · have own : firstFailing (s.cueTests o) = none := by
        simp [State.cueTests, h1, hx, holdsEntry_iff.2 hheld]
      have taken : exec (.cue o) s =
          .next (((s.begun o).cueRelease (keyOf o) (.operator o.operator.val)).answer (doneReply o)) := by
        refine congrArg Host.Outcome.next (State.cueOrder_takes ht hr hx hk hp (by decide) bad own 24 ?_ ?_)
        · rw [h1]
          rfl
        · rw [h1]
          rfl
      obtain ⟨hushed, v, hv, core, after⟩ := State.cueRelease_leaves (s := s.begun o) (x := x) hx hheld
      exact ⟨_, v, taken, hv, core, after, hushed.keep _, hushed.quiet.2.1, hushed.conferences,
        hushed.quiet.1.besideStations (s.besideStations_begun o) _, hushed.quiet.1.storeStates, rfl⟩
  · have ends : exec (.cueTimeout k w) s = .next ((s.cueRelease k source).markStation k StationReason.cueTimeout) := by
      show execCueTimeout k w s = _
      unfold execCueTimeout
      rw [hw]
      refine congrArg Host.Outcome.next ((State.runsSound.timer ⟨hs, hb⟩ _ _).trans ?_)
      unfold State.cueRunsOut
      rw [hx]
      exact if_pos (holdsEntry_iff.2 hheld)
    obtain ⟨hushed, v, hv, core, after⟩ := State.cueRelease_leaves hx hheld
    have marked := hushed.trans ((Hushed.calm _).markStation (Hushed.refl _) k StationReason.cueTimeout)
    exact ⟨_, _, ends, State.station_markStation hv _, core, after, mem_addReason_self _ _, marked.keep k, marked.quiet.2.1,
      marked.conferences, ⟨marked.quiet.1.windows, marked.quiet.1.galleries, marked.quiet.1.settings,
      marked.quiet.1.checkQueue, marked.quiet.1.engine, marked.quiet.1.sameMachine⟩, marked.quiet.1.storeStates,
      marked.quiet.1.port⟩
  · have own : firstFailing [stationTest (s.station (keyOf o)) (fun x => x.stack.isEmpty) 20] = none := by
      simp [stationTest, hx, hstack]
    have taken : exec (.clearCues o) s = .next (((s.begun o).releaseAllCues (keyOf o)).answer (doneReply o)) :=
      congrArg Host.Outcome.next
        (State.cueOrder_takes ht hr hx hk (congrArg List.length hp) (by decide) rfl own 25 rfl rfl)
    have hushed : Hushed (s.begun o) ((s.begun o).releaseAllCues (keyOf o)) :=
      (Hushed.calm _).releaseWhere (Hushed.refl _) _ _
    obtain ⟨v, hv, core⟩ := hushed.core (k := keyOf o) (x := x) hx
    obtain ⟨z, hz, empty, accept, route⟩ := State.releaseAllCues_station (s := s.begun o) (k := keyOf o) (x := x) hx
      (by rw [hstack]; exact Nat.succ_le_succ hrest)
    rw [hv] at hz
    cases hz
    rw [hstack] at accept
    exact ⟨_, v, taken, hv, core, empty, accept, route (by simp [hstack]), hushed.keep _, hushed.quiet.2.1,
      hushed.conferences, hushed.quiet.1.besideStations (s.besideStations_begun o) _, hushed.quiet.1.storeStates, rfl⟩
  · have set := State.modStation_of (s := s.begun o) (x := x) hx (fun x => x.setAccept (fieldNat o.params 0 = 1))
    have taken := State.cueOrder_takes (own := []) ht hr hx hk hp (by decide) (bad := decide (1 < fieldNat o.params 0))
      (by simpa using h0) rfl 23 (f := fun t => (t.modStation (keyOf o) (fun x => x.setAccept (fieldNat o.params 0 = 1)),
        doneReply o)) set rfl
    refine ⟨fun hstack => congrArg Host.Outcome.next (taken.trans ?_), fun e rest hstack =>
      congrArg Host.Outcome.next (taken.trans ?_)⟩
    · rw [Station.setAccept_empty hstack]
      rfl
    · rw [Station.setAccept_held hstack]
      rfl

end Sys2Proof
end

section
/-! The orders on conferences and their members (R98 to R101). -/

namespace Sys2Proof.Machine

/-! ## One conference changed -/

/-- Nothing but one conference, the Directive Queue and the final deliveries differs. -/
structure State.besideConference (s t : State) (k : Nat) : Prop where
  only : Only s t
  stations : t.stations = s.stations
  carriers : t.carriers = s.carriers
  others : ∀ c, c ≠ k → t.conference c = s.conference c

theorem State.besideConference.refl (s : State) (k : Nat) : s.besideConference s k := ⟨rfl, rfl, rfl, fun _ _ => rfl⟩

theorem State.besideConference.trans {s t u : State} {k : Nat} (h : s.besideConference t k) (g : t.besideConference u k) :
    s.besideConference u k :=
  ⟨h.only.trans g.only, g.stations.trans h.stations, g.carriers.trans h.carriers,
    fun c hc => (g.others c hc).trans (h.others c hc)⟩

theorem State.besideConference_mod (s : State) (k : Nat) (f : Conference → Conference) :
    s.besideConference (s.modConference k f) k :=
  ⟨rfl, rfl, rfl, fun c hc => by rw [State.conference_modConference, if_neg hc]⟩

theorem State.conference_of_mod {s : State} {k : Nat} {x : Conference} (h : s.conference k = some x)
    (f : Conference → Conference) : (s.modConference k f).conference k = some (f x) := by
  rw [State.conference_modConference, if_pos rfl, h]
  rfl

theorem State.modConference_of {s : State} {k : Nat} {x : Conference} (h : s.conference k = some x)
    (f : Conference → Conference) : s.modConference k f = { s with conferences := s.conferences.put k (f x) } :=
  congrArg (fun t => { s with conferences := t }) (Table.modify_of_get h f)

/-! ## Routings handed on -/

/-- The base of a conference's delivery is set in its record alone. -/
theorem State.setBase_conference {s : State} {k : Nat} {x : Conference} (hx : s.conference k = some x) (b : DeliveryBase) :
    s.setBase .routing k b = s.modConference k (fun x => { x with routingBase := b }) := by
  unfold State.setBase State.owned
  simp only [hx, Option.isSome_some, if_true]

/-- Deciding a conference's delivery changes its base and the queue alone, or nothing. -/
theorem State.decideDelivery_conference {s : State} {k : Nat} {x : Conference} (hx : s.conference k = some x) :
    s.decideDelivery .routing k = s ∨
      ∃ b q, s.decideDelivery .routing k = { s.modConference k (fun x => { x with routingBase := b }) with queue := q } := by
  unfold State.decideDelivery
  split
  · exact .inl rfl
  · simp only [State.setBase_conference hx]
    refine .inr ?_
    split
    · exact ⟨_, _, rfl⟩
    · split
      · exact ⟨_, _, rfl⟩
      · split
        · exact ⟨_, _, rfl⟩
        · split
          · exact ⟨_, _, rfl⟩
          · exact ⟨_, _, rfl⟩

/-- What deciding a conference's delivery leaves. -/
theorem State.decideDelivery_rerouted {s : State} {k : Nat} {x : Conference} (hx : s.conference k = some x) :
    s.besideConference (s.decideDelivery .routing k) k ∧
      ∃ b, (s.decideDelivery .routing k).conference k = some { x with routingBase := b } := by
  rcases State.decideDelivery_conference hx with h | ⟨b, q, h⟩
  · rw [h]
    exact ⟨State.besideConference.refl s k, x.routingBase, hx⟩
  · rw [h]
    have beside := s.besideConference_mod k (fun x => { x with routingBase := b })
    exact ⟨⟨rfl, rfl, rfl, beside.others⟩, b, State.conference_of_mod hx _⟩

theorem State.hand_rerouted {s : State} {k : Nat} {x : Conference} (hx : s.conference k = some x) :
    s.besideConference (s.hand .routing k) k ∧
      ∃ b, (s.hand .routing k).conference k = some { x with routingBase := b } := by
  have stays : s.besideConference s k ∧ ∃ b, s.conference k = some { x with routingBase := b } :=
    ⟨State.besideConference.refl s k, x.routingBase, hx⟩
  unfold State.hand
  split
  · exact stays
  · split
    · exact State.decideDelivery_rerouted hx
    · exact stays

/-- Recomputing a conference's routing makes it what its lists give, and changes nothing else but its delivery (R112). -/
theorem State.recomputeRouting_rerouted {s : State} {k : Nat} {x : Conference} (hx : s.conference k = some x) :
    s.besideConference (s.recomputeRouting k) k ∧
      ∃ b, (s.recomputeRouting k).conference k = some { x with routing := x.routed, routingBase := b } := by
  unfold State.recomputeRouting
  rw [hx]
  dsimp only
  split
  · next same => exact ⟨State.besideConference.refl s k, x.routingBase, by rw [hx, same]⟩
  · obtain ⟨beside, b, held⟩ := State.hand_rerouted (State.conference_of_mod hx (fun x => { x with routing := x.routed }))
    exact ⟨(s.besideConference_mod k _).trans beside, b, held⟩

/-- A conference order's effect: one conference, its store state and the answer. -/
theorem State.besideConference.besideStations {s t : State} {o : Order} {k : Nat} (h : (s.begun o).besideConference t k)
    (r : Reply) : s.besideStations (t.conferenceChanged.answer r) := by
  have kept := h.only.besideStations (s.besideStations_begun o) r
  obtain ⟨windows, galleries, settings, checkQueue, engine, machine⟩ := kept
  refine ⟨windows, galleries, settings, checkQueue, engine, ?_⟩
  cases machine
  constructor <;> assumption

theorem State.besideConference.storeStates {s t : State} {o : Order} {k : Nat} (h : (s.begun o).besideConference t k)
    (r : Reply) : (t.conferenceChanged.answer r).storeStates = { s.storeStates with conference := true } :=
  congrArg (fun x : StoreStates => { x with conference := true }) h.only.storeStates

/-! ## Tests of conferences -/

/-- The tests that every order on a conference that exists begins with. -/
theorem passes_conference {s : State} {o : Order} {x : Conference} (ha : s.admits o .talkback)
    (hx : s.conference (keyOf o) = some x) (hc : claimFree o x.claim) :
    firstFailing ([s.lacks o .talkback 6, failIf (s.conference (keyOf o)).isNone .key 1, claimHold o x.claim] ++ s.holds o) =
      none :=
  passes_append (passes_cons (State.lacks_fst ha.2.1 6) (passes_cons (by simp [hx])
    (passes_cons (claimHold_fst hc) firstFailing_nil))) (State.passes_holds ha.2.2)

theorem passes_labelRange {ps : List (Nat × Word)} {ws : List Word} (hf : badField (fieldIndex 6) ps = false)
    (hl : labelBad ws = false) : firstFailing (labelRange ps ws) = none := by
  simp [labelRange, hf, hl]

/-! ## Members -/

theorem Conference.memberOf_isSome {x : Conference} {id : Source} :
    (x.memberOf id).isSome = true ↔ ∃ m ∈ x.members, m.id = id := by
  simp [Conference.memberOf]

theorem Conference.memberOf_isNone {x : Conference} {id : Source} :
    (x.memberOf id).isNone = true ↔ ∀ m ∈ x.members, m.id ≠ id := by
  simp [Conference.memberOf]

/-! ## ADD MEMBER -/

/-- The member that an ADD MEMBER makes (R100). -/
@[reducible] def State.memberAdded (s : State) (o : Order) (id : Source) : Member :=
  ⟨id, decide (s.kindOf id = some .inEar) || fieldNat o.params 1 % 2 = 1,
    !decide (s.kindOf id = some .inEar) && 2 ≤ fieldNat o.params 1, fieldNat o.params 2, .fixed, [], s.absentNow id⟩

/-- The rights and the priority that an ADD MEMBER gives are in their ranges. -/
abbrev memberRange (o : Order) : Prop :=
  1 ≤ fieldNat o.params 1 ∧ fieldNat o.params 1 ≤ 3 ∧ fieldNat o.params 2 ≤ 3

/-- The tests of an ADD MEMBER on its new member. -/
theorem passes_newMember {s : State} {o : Order} {x : Conference} {id : Source}
    (hid : identityOf (fieldNat o.params 0) = some id) (hrange : memberRange o)
    (hstation : ∀ k, id = .station k → ∃ z, s.station k = some z ∧ z.kind ≠ .camera ∧ z.kind ≠ .mic)
    (hroom : (∃ m ∈ x.members, m.id = id) ∨ x.members.length < 16) :
    firstFailing [failIf ((identityOf (fieldNat o.params 0)).isNone || fieldNat o.params 1 = 0 || 3 < fieldNat o.params 1 ||
        3 < fieldNat o.params 2) .range 2,
      failIf (s.identityGone id) .state 1,
      failIf (unsuitedMember (s.kindOf id)) .state 2,
      failIf ((x.memberOf id).isNone && Config.memberMax ≤ x.members.length) .full 1] = none := by
  have here : s.identityGone id = false ∧ unsuitedMember (s.kindOf id) = false := by
    cases id with
    | station k =>
      obtain ⟨z, hz, camera, mic⟩ := hstation k rfl
      simp [State.identityGone, unsuitedMember, State.kindOf, hz, camera, mic]
    | port _ => exact ⟨rfl, rfl⟩
    | operator _ => exact ⟨rfl, rfl⟩
  have room : ((x.memberOf id).isNone && Config.memberMax ≤ x.members.length) = false := by
    rcases hroom with h | h
    · rw [Option.isNone_eq_false_iff.2 (Conference.memberOf_isSome.2 h)]
      rfl
    · have short : ¬ Config.memberMax ≤ x.members.length := Nat.not_le.2 h
      simp [short]
  have rights : ¬ fieldNat o.params 1 = 0 ∧ ¬ 3 < fieldNat o.params 1 ∧ ¬ 3 < fieldNat o.params 2 := by
    obtain ⟨h1, h3, hp⟩ := hrange
    omega
  simp [hid, rights, here, room]

/-- An ADD MEMBER that is taken fixes its member, and recomputes the routing. -/
theorem State.addMember_takes {s : State} {o : Order} {x : Conference} {id : Source} (ha : s.admits o .talkback)
    (hx : s.conference (keyOf o) = some x) (hc : claimFree o x.claim) (hp : o.params.length = 3)
    (hid : identityOf (fieldNat o.params 0) = some id) (hrange : memberRange o)
    (hstation : ∀ k, id = .station k → ∃ z, s.station k = some z ∧ z.kind ≠ .camera ∧ z.kind ≠ .mic)
    (hroom : (∃ m ∈ x.members, m.id = id) ∨ x.members.length < 16) :
    exec (.addMember o) s = .next
      ((((s.begun o).modConference (keyOf o) (·.fix (s.memberAdded o id))).recomputeRouting (keyOf o)).conferenceChanged.answer
        (adjustedReply o (decide (s.kindOf id = some .inEar) && 2 ≤ fieldNat o.params 1) 1)) := by
  have known : (identityOf (fieldNat o.params 0)).getD (.station 0) = id := by rw [hid]; rfl
  have record : (s.conference (keyOf o)).getD Conference.blank = x := by rw [hx]; rfl
  refine congrArg Host.Outcome.next (State.takeOrder_takes ha.1 (by omega) (by simp [hp]) ?_ (by rw [known] <;> rfl)
    (by rw [known] <;> rfl))
  rw [known, record]
  exact passes_append (passes_conference ha hx hc) (passes_newMember hid hrange hstation hroom)

/-! ## The wait list -/

/-- A conference changed in its lists and marks alone. -/
structure State.listsEdited (s t : State) (k : Nat) (x : Conference) : Prop where
  beside : s.besideConference t k
  kept : ∃ z, t.conference k = some z ∧ z.label = x.label ∧ z.claim = x.claim ∧ z.talkers = x.talkers

theorem State.listsEdited.mod {s t : State} {k : Nat} {x : Conference} (h : s.listsEdited t k x) {f : Conference → Conference}
    (hf : ∀ z, (f z).label = z.label ∧ (f z).claim = z.claim ∧ (f z).talkers = z.talkers) :
    s.listsEdited (t.modConference k f) k x := by
  obtain ⟨z, hz, label, claim, talkers⟩ := h.kept
  obtain ⟨sameLabel, sameClaim, sameTalkers⟩ := hf z
  exact ⟨h.beside.trans (t.besideConference_mod k f), _, State.conference_of_mod hz f, sameLabel.trans label,
    sameClaim.trans claim, sameTalkers.trans talkers⟩

/-- Serving a wait list changes the conference's lists and marks alone (R107). -/
theorem serveList_edits {s t : State} {k : Nat} {x : Conference} (h : s.listsEdited t k x) (ov : FollowOverride)
    (silent : Bool) (ps : List Nat) : s.listsEdited (serveList ov silent k ps t) k x := by
  induction ps generalizing t with
  | nil => exact h
  | cons p rest ih =>
    have shorter := h.mod (f := fun x => { x with waiting := rest }) (fun _ => ⟨rfl, rfl, rfl⟩)
    unfold serveList
    dsimp only
    split
    · exact ih (shorter.mod (fun _ => ⟨rfl, rfl, rfl⟩))
    · split
      · exact shorter.mod (fun _ => ⟨rfl, rfl, rfl⟩)
      · refine (shorter.mod ?_).mod ?_ <;> exact fun _ => ⟨rfl, rfl, rfl⟩

/-- The due reasons of a station do not depend on the conferences. -/
theorem State.dueReasons_besideConference (s : State) (k : Nat) (f : Conference → Conference) (ov : FollowOverride) (p c : Nat) :
    (s.modConference k f).dueReasons ov p c = s.dueReasons ov p c := rfl

/-- The oldest waiting station that is still due joins (R107). -/
theorem serveList_joins {s : State} {k p : Nat} {rest : List Nat} {x : Conference} (hx : s.conference k = some x)
    {ov : FollowOverride} (hd : s.dueReasons ov p k ≠ []) (silent : Bool) :
    ∃ z, (serveList ov silent k (p :: rest) s).conference k = some z ∧ z.waiting = rest ∧ z.talkers = x.talkers ∧
      z.members = x.members ++ [⟨.station p, true, true, 0, .follow, s.dueReasons ov p k, s.absentNow (.station p)⟩] := by
  have shorter := State.conference_of_mod hx (fun x => { x with waiting := rest })
  unfold serveList
  dsimp only
  rw [State.dueReasons_besideConference]
  cases hr : s.dueReasons ov p k with
  | nil => exact absurd hr hd
  | cons g gs =>
    have joined := State.conference_of_mod shorter (fun x => { x with
      members := x.members ++ [(s.modConference k (fun x => { x with waiting := rest })).followMember p (g :: gs)] })
    cases silent with
    | true => exact ⟨_, joined, rfl, rfl, rfl⟩
    | false => exact ⟨_, State.conference_of_mod joined _, rfl, rfl, rfl⟩

/-- The due reasons of no station. -/
theorem State.followReasons_eq_nil {s : State} {id : Source} {c : Nat} :
    s.followReasons id c = [] ↔ ∀ k, id = .station k → s.dueReasons none k c = [] := by
  cases id with
  | station p => exact ⟨fun h k hk => by cases hk; exact h, fun h => h p rfl⟩
  | port _ => exact ⟨fun _ _ => nofun, fun _ => rfl⟩
  | operator _ => exact ⟨fun _ _ => nofun, fun _ => rfl⟩

/-- The end of a Fixed membership, before the routing is recomputed (R101). -/
theorem State.endFixed_eq {s : State} {k : Nat} {x : Conference} (hx : s.conference k = some x) (id : Source) :
    ∃ u v, s.endFixed k id = u.recomputeRouting k ∧ s.besideConference u k ∧ u.conference k = some v ∧
      v.label = x.label ∧ v.claim = x.claim ∧
      (∀ p, id = .station p → s.dueReasons none p k ≠ [] →
        v.talkers = x.talkers ∧ v.waiting = x.waiting ∧
        v.members = x.members.map (fun m => if m.id = id then
          { m with listen := true, talk := true, priority := 0, join := .follow, reasons := s.dueReasons none p k } else m)) ∧
      ((∀ p, id = .station p → s.dueReasons none p k = []) →
        v.talkers = x.talkers.filter (· != id) ∧
        (x.waiting = [] → v.waiting = [] ∧ v.members = x.members.filter (fun m => m.id != id)) ∧
        (∀ p rest, x.waiting = p :: rest → s.dueReasons none p k ≠ [] → v.waiting = rest ∧
          v.members = x.members.filter (fun m => m.id != id) ++
            [⟨.station p, true, true, 0, .follow, s.dueReasons none p k, s.absentNow (.station p)⟩])) := by
  unfold State.endFixed
  dsimp only
  by_cases hd : s.followReasons id k = []
  · rw [hd, List.isEmpty_nil, if_pos rfl]
    have dropped := State.conference_of_mod hx (·.dropMember id)
    have served : (s.modConference k (·.dropMember id)).serveWaitList none true k =
        serveList none true k x.waiting (s.modConference k (·.dropMember id)) := by
      unfold State.serveWaitList
      rw [dropped]
      rfl
    have start : s.listsEdited (s.modConference k (·.dropMember id)) k (x.dropMember id) :=
      ⟨s.besideConference_mod k _, _, dropped, rfl, rfl, rfl⟩
    have edits := serveList_edits start none true x.waiting
    obtain ⟨v, hv, label, claim, talkers⟩ := edits.kept
    refine ⟨_, v, rfl, served ▸ edits.beside, served ▸ hv, label, claim, fun p hp hne => absurd (State.followReasons_eq_nil.1 hd p hp) hne,
      fun _ => ⟨talkers, fun hw => ?_, fun p rest hw hne => ?_⟩⟩
    · rw [hw, serveList, dropped] at hv
      cases hv
      exact ⟨hw, rfl⟩
    · obtain ⟨z, hz, waiting, _, members⟩ := serveList_joins (rest := rest) dropped
        (by rw [State.dueReasons_besideConference]; exact hne) true
      rw [hw, hz] at hv
      cases hv
      exact ⟨waiting, members⟩
  · have some : (s.followReasons id k).isEmpty = false := by simpa using hd
    rw [some, if_neg (by nofun)]
    refine ⟨_, _, rfl, s.besideConference_mod k _, State.conference_of_mod hx _, rfl, rfl, fun p hp hne => ?_, fun h =>
      absurd (State.followReasons_eq_nil.2 h) hd⟩
    subst hp
    exact ⟨rfl, rfl, rfl⟩

end Sys2Proof.Machine

namespace Sys2Proof
open Machine

/-- Settles O40. -/
theorem addMember : Obligations.AddMember := by
  intro o s x id ha hx hc hp hid h1 h3 hprio hstation hroom inEar talk
  have taken := State.addMember_takes ha hx hc hp hid ⟨h1, h3, hprio⟩ hstation hroom
  generalize hm : s.memberAdded o id = m at taken
  have fixed := State.conference_of_mod (s := s.begun o) (x := x) hx (·.fix m)
  obtain ⟨beside, b, held⟩ := State.recomputeRouting_rerouted fixed
  have whole := ((s.begun o).besideConference_mod (keyOf o) (·.fix m)).trans beside
  generalize ((s.begun o).modConference (keyOf o) (·.fix m)).recomputeRouting (keyOf o) = u at taken held whole
  have named : m.id = id := by rw [← hm]
  have talks : m.talk = talk := by rw [← hm]; simp [talk, inEar, Bool.and_comm]
  refine ⟨_, _, m, taken, held, ?_, fun h => ?_, fun h => ?_, ?_, rfl, whole.others, whole.stations, whole.carriers,
    whole.besideStations _, whole.storeStates _, ?_⟩
  · rw [← hm]
    simp [talk, inEar, Bool.or_comm, Bool.and_comm]
  · rw [← named] at h ⊢
    exact if_pos (Conference.memberOf_isSome.2 h)
  · rw [← named] at h
    refine if_neg ?_
    rw [Bool.not_eq_true, Option.isSome_eq_false_iff]
    exact Conference.memberOf_isNone.2 h
  · rw [← talks, ← named]
    rfl
  · by_cases hk : s.kindOf id = some .inEar <;> by_cases h2 : 2 ≤ fieldNat o.params 1 <;>
      simp [State.answer, adjustedReply, doneReply, inEar, hk, h2]

/-- Settles O41. -/
theorem removeMember : Obligations.RemoveMember := by
  intro o s x id ha hx hc hp hid hmember hfixed
  have known : (identityOf (fieldNat o.params 0)).getD (.station 0) = id := by rw [hid]; rfl
  have record : (s.conference (keyOf o)).getD Conference.blank = x := by rw [hx]; rfl
  obtain ⟨m, hm⟩ := Option.isSome_iff_exists.1 (Conference.memberOf_isSome.2 hmember)
  have fixed : m.join = .fixed :=
    hfixed m (List.mem_of_find?_eq_some hm) (by simpa using List.find?_some hm)
  have taken : exec (.removeMember o) s =
      .next (((s.begun o).endFixed (keyOf o) id).conferenceChanged.answer (doneReply o)) := by
    refine congrArg Host.Outcome.next (State.takeOrder_takes ha.1 (by omega) (by simp [hp]) ?_ (by rw [known]) rfl)
    rw [known, record]
    refine passes_append (passes_conference ha hx hc) ?_
    simp [hid, hm, fixed]
  obtain ⟨u, w, ended, lists, hw, label, claim, turned, left⟩ := State.endFixed_eq (s := s.begun o) (x := x) hx id
  obtain ⟨beside, b, held⟩ := State.recomputeRouting_rerouted hw
  have whole := lists.trans beside
  rw [ended] at taken
  exact ⟨_, _, taken, held, turned, left, rfl, label, claim, whole.others, whole.stations, whole.carriers,
    whole.besideStations _, whole.storeStates _, rfl⟩

end Sys2Proof
end

section
/-! The orders on conference records (R98, R99). -/

namespace Sys2Proof.Machine

/-! ## Follow fields cleared -/

/-- The galleries that follow into a conference. -/
def State.followers (s : State) (c : Nat) : List Nat :=
  (s.galleries.records.filter (fun q => q.2.follow = some c)).map (·.1)

/-- A gallery whose follow field is cleared (R86). -/
@[reducible] def Gallery.unfollowed (x : Gallery) : Gallery := { x with follow := none, mark := addReason 4 x.mark }

theorem Table.records_nodup {α : Type} {t : Table α} (h : t.wf = true) : (t.records.map (·.1)).Nodup := by
  rw [List.Nodup, List.pairwise_map]
  exact (Table.records_rise h).imp Nat.ne_of_lt

theorem State.mem_followers {s : State} (h : s.galleries.wf = true) {c g : Nat} {x : Gallery} (hx : s.gallery g = some x) :
    g ∈ s.followers c ↔ x.follow = some c := by
  simp only [State.followers, List.mem_map, List.mem_filter, decide_eq_true_eq]
  constructor
  · rintro ⟨⟨j, y⟩, ⟨hm, hf⟩, rfl⟩
    have held := (Table.mem_records h j y).1 hm
    rw [State.gallery, held] at hx
    cases hx
    exact hf
  · exact fun hf => ⟨(g, x), ⟨(Table.mem_records h g x).2 hx, hf⟩, rfl⟩

/-- The follow fields that name a conference are cleared, and only the galleries and their store state change (R86). -/
theorem State.unfollow_eq (s : State) (c : Nat) : s.unfollow c true = { s with
    galleries := s.galleries.modifyAll (s.followers c) Gallery.unfollowed
    storeStates := { s.storeStates with
      gallery := s.storeStates.gallery || s.galleries.records.any (fun p => p.2.follow = some c) } } := by
  have step : ∀ (t : State) (g : Nat), (t.modGallery g (fun x => { x with follow := none })).markGallery g
      GalleryReason.followGone = t.modGallery g Gallery.unfollowed := by
    intro t g
    exact congrArg (fun m => { t with galleries := m }) (Table.modify_modify t.galleries g _ _)
  have edits := s.forEach_modGallery (s.followers c) Gallery.unfollowed
  have any : (s.followers c).isEmpty = !s.galleries.records.any (fun p => p.2.follow = some c) := by
    rw [Bool.eq_iff_iff]
    simp [State.followers, List.filter_eq_nil_iff]
  have unfolded : s.unfollow c true = (if !(s.followers c).isEmpty then
      State.galleryChanged { s with galleries := s.galleries.modifyAll (s.followers c) Gallery.unfollowed }
      else { s with galleries := s.galleries.modifyAll (s.followers c) Gallery.unfollowed }) := by
    rw [← edits]
    unfold State.unfollow
    simp only [step, Bool.true_and]
    rfl
  rw [unfolded, any, Bool.not_not]
  cases s.galleries.records.any (fun p => p.2.follow = some c) with
  | true => simp [State.galleryChanged]
  | false => simp

theorem State.unfollowed_gallery {s : State} (h : s.galleries.wf = true) (c g : Nat) :
    (s.galleries.modifyAll (s.followers c) Gallery.unfollowed).get g = (s.gallery g).map (fun x =>
      if x.follow = some c then x.unfollowed else x) := by
  have distinct : (s.followers c).Nodup :=
    (Table.records_nodup h).sublist (List.filter_sublist.map _)
  rw [Table.get_modifyAll _ distinct]
  cases hx : s.gallery g with
  | none =>
    rw [State.gallery] at hx
    simp [hx]
  | some x =>
    have named := State.mem_followers h (c := c) hx
    rw [State.gallery] at hx
    rw [hx]
    by_cases hf : x.follow = some c <;> simp [named, hf]

/-! ## DEFINE CONFERENCE -/

/-- A new conference is put into its slot, and its empty routing is decided (R98). -/
def State.withConference (s : State) (k : Nat) (x : Conference) : State :=
  ((State.conferenceChanged { s with conferences := s.conferences.put k x }).dropFinal .routing k).decideDelivery .routing k

theorem State.withConference_spec (s : State) (k : Nat) (x : Conference) :
    (State.conferenceChanged { s with conferences := s.conferences.put k x }).besideConference (s.withConference k x) k ∧
      ∃ b, (s.withConference k x).conference k = some { x with routingBase := b } := by
  have put : (State.dropFinal (State.conferenceChanged { s with conferences := s.conferences.put k x }) .routing k).conference k =
      some x := Table.get_put_self _ _ _
  obtain ⟨beside, held⟩ := State.decideDelivery_rerouted put
  exact ⟨⟨beside.only, beside.stations, beside.carriers, beside.others⟩, held⟩

/-- The state of an order but for its tables of conferences and its store states. -/
theorem State.besideStations_conferences (s : State) (o : Order) (cs : Table Conference) :
    s.besideStations (State.conferenceChanged { s.begun o with conferences := cs }) := by
  obtain ⟨windows, galleries, settings, checkQueue, engine, machine⟩ := s.besideStations_begun o
  refine ⟨windows, galleries, settings, checkQueue, engine, ?_⟩
  cases machine
  constructor <;> assumption

/-! ## RETIRE CONFERENCE -/

/-- A wanted routing that is not the delivered one is not Current once it is handed on (R150). -/
theorem State.hand_undelivered {s : State} {k : Nat} {x : Conference} (hx : s.conference k = some x)
    (hd : x.deliveredRouting ≠ some x.routing) :
    ∃ z, (s.hand .routing k).conference k = some z ∧ z.routingBase ≠ .current := by
  have based : ∀ b, b ≠ DeliveryBase.current → ∃ z, (s.setBase .routing k b).conference k = some z ∧ z.routingBase ≠ .current :=
    fun b hb => by
      rw [State.setBase_conference hx]
      exact ⟨_, State.conference_of_mod hx _, hb⟩
  have delivery : s.delivery .routing k =
      some ⟨s.settings.matrixUnit, .routing x.routing, x.deliveredRouting.map .routing, x.routingBase⟩ := by
    simp [State.delivery, hx]
  have differs : x.deliveredRouting.map Content.routing ≠ some (.routing x.routing) := by
    cases hv : x.deliveredRouting with
    | none => nofun
    | some v =>
      intro h
      cases h
      exact hd hv
  unfold State.hand State.decideDelivery
  rw [delivery]
  dsimp only
  rw [if_neg differs]
  split
  · split
    · exact based _ nofun
    · split
      · exact based _ nofun
      · split
        · exact based _ nofun
        · exact based _ nofun
  · next h => exact ⟨x, hx, fun hb => h (by simp [hb])⟩

/-- Where a delivery goes that the Line Controller would take over. -/
@[reducible] def State.asDelivery (s : State) (f : Final) : Delivery := ⟨s.finalDestination f, f.wanted, f.delivered, f.base⟩

/-- The final deliveries with one more, in the place of one of its key. -/
@[reducible] def State.finalsWith (s : State) (f : Final) : List Final :=
  s.finals.filter (fun x => !(x.kind = f.kind && x.target = f.target)) ++ [f]

/-- A delivery of a record that has left its table stands as a final delivery, unless it is Current without an entry (R153). -/
theorem State.takeOver_stands {s : State} {f : Final}
    (hown : ∀ fs, State.delivery { s with finals := fs } f.kind f.target =
      State.finalDelivery { s with finals := fs } f.kind f.target)
    (h : f.base = .current → (s.entryOf (s.asDelivery f) f.kind f.target).isSome = true) :
    f ∈ (s.takeOver f false).finals := by
  have found : State.finalAt { s with finals := s.finalsWith f } f.kind f.target = some f := by
    unfold State.finalAt
    rw [List.find?_append, List.find?_eq_none.2]
    · simp
    · intro g hg
      have := (List.mem_filter.1 hg).2
      simpa [imp_iff_not_or] using this
  unfold State.takeOver
  dsimp only
  rw [if_neg (by nofun)]
  split
  · next d hd =>
    have named : d = s.asDelivery f := by
      rw [State.dropFinal, hown, State.finalDelivery, found] at hd
      exact (Option.some.inj hd).symm
    rw [named]
    split
    · next stops =>
      rw [Bool.and_eq_true, decide_eq_true_eq] at stops
      have entry : (s.entryOf (s.asDelivery f) f.kind f.target).isNone = true := stops.2
      have some := h stops.1
      rw [Option.isNone_iff_eq_none] at entry
      rw [entry] at some
      cases some
    · exact List.mem_append_right _ (List.mem_singleton.2 rfl)
  · exact List.mem_append_right _ (List.mem_singleton.2 rfl)

/-- Taking over a delivery as it stood changes the final deliveries alone. -/
theorem State.takeOver_frame (s : State) (f : Final) : ∃ fs, s.takeOver f false = { s with finals := fs } := by
  unfold State.takeOver
  dsimp only
  rw [if_neg (by nofun)]
  split
  · split
    · exact ⟨_, rfl⟩
    · exact ⟨_, rfl⟩
  · exact ⟨_, rfl⟩

/-- A conference whose lists are dropped (R99). -/
@[reducible] def Conference.emptied (x : Conference) : Conference := { x with members := [], talkers := [], waiting := [] }

/-- What a conference leaves that leaves its table by order. -/
structure State.conferenceLeft (s : State) (k : Nat) (t : State) : Prop where
  only : Only (s.unfollow k true) t
  stations : t.stations = s.stations
  carriers : t.carriers = s.carriers
  slot : t.conferences.slot k = none
  others : ∀ c, c ≠ k → t.conference c = s.conference c
  final : ∀ x, s.conference k = some x → x.deliveredRouting ≠ some ⟨[], []⟩ →
    (x.routing ≠ ⟨[], []⟩ ∨ s.deliveryCode .routing k ≠ some 0) →
    ∃ f ∈ t.finals, f = ⟨.routing, k, none, .routing ⟨[], []⟩, x.deliveredRouting.map .routing, f.base⟩

/-- A routing that is not delivered, in its state: Current alone while it has an entry. -/
theorem State.entry_of_code {s : State} {k : Nat} {x : Conference} (hx : s.conference k = some x)
    (h : s.deliveryCode .routing k ≠ some 0) (hb : x.routingBase = .current) :
    (s.entryOf ⟨s.settings.matrixUnit, .routing ⟨[], []⟩, x.deliveredRouting.map .routing, x.routingBase⟩ .routing k).isSome =
      true := by
  have delivery : s.delivery .routing k =
      some ⟨s.settings.matrixUnit, .routing x.routing, x.deliveredRouting.map .routing, x.routingBase⟩ := by
    simp [State.delivery, hx]
  cases he : s.entryOf ⟨s.settings.matrixUnit, .routing x.routing, x.deliveredRouting.map .routing, x.routingBase⟩
      .routing k with
  | some e => exact Option.isSome_of_eq_some he
  | none =>
    refine absurd ?_ h
    rw [State.deliveryCode, delivery]
    dsimp only
    rw [he, hb]

/-- The delivery of a conference that has left its table is the Line Controller's. -/
theorem State.delivery_retired {s : State} {k : Nat} (h : s.conference k = none) :
    s.delivery .routing k = s.finalDelivery .routing k := by
  simp only [State.delivery, h]

theorem State.begun_deliveryCode (s : State) (o : Order) (kd : DeliveryKind) (k : Nat) :
    (s.begun o).deliveryCode kd k = s.deliveryCode kd k := rfl

theorem State.removeConference_left (s : State) (k : Nat) : s.conferenceLeft k (s.removeConference k) := by
  have kept : ∀ c, (s.unfollow k true).conference c = s.conference c := fun c => by rw [State.unfollow_eq]; rfl
  have frame : (s.unfollow k true).stations = s.stations ∧ (s.unfollow k true).carriers = s.carriers := by
    rw [State.unfollow_eq]
    exact ⟨rfl, rfl⟩
  obtain ⟨stations, carriers⟩ := frame
  generalize hu : s.unfollow k true = u at kept stations carriers
  have settings : u.settings = s.settings := by rw [← hu, State.unfollow_eq]
  have queue : u.queue = s.queue := by rw [← hu, State.unfollow_eq]
  have removed : s.removeConference k = (match ((u.modConference k Conference.emptied).recomputeRouting k).conference k with
      | none => { (u.modConference k Conference.emptied).recomputeRouting k with
          conferences := ((u.modConference k Conference.emptied).recomputeRouting k).conferences.erase k }
      | some x => State.takeOver { (u.modConference k Conference.emptied).recomputeRouting k with
          conferences := ((u.modConference k Conference.emptied).recomputeRouting k).conferences.erase k }
        ⟨.routing, k, none, .routing ⟨[], []⟩, x.deliveredRouting.map .routing, x.routingBase⟩ false) := by
    rw [← hu]
    rfl
  generalize ht : (u.modConference k Conference.emptied).recomputeRouting k = t at removed
  have gone : (t.conferences.erase k).slot k = none := by simp
  have away : ∀ c, c ≠ k → (t.conferences.erase k).get c = t.conference c := fun c hc =>
    (Table.get_erase _ _ _).trans (if_neg hc)
  cases hx : s.conference k with
  | none =>
    have empty : u.conference k = none := (kept k).trans hx
    have same : t = u := by
      have unchanged : u.modConference k Conference.emptied = u :=
        congrArg (fun m => { u with conferences := m }) (Table.modify_of_none empty _)
      rw [← ht, unchanged, State.recomputeRouting, empty]
    subst same
    rw [empty] at removed
    dsimp only at removed
    rw [removed]
    refine ⟨by rw [hu]; rfl, stations, carriers, gone, fun c hc => (away c hc).trans (kept c), fun x h => ?_⟩
    rw [hx] at h
    cases h
  | some x =>
    have held : u.conference k = some x := (kept k).trans hx
    have dropped := State.conference_of_mod held Conference.emptied
    obtain ⟨beside, b, hv⟩ := State.recomputeRouting_rerouted dropped
    have whole := (u.besideConference_mod k Conference.emptied).trans beside
    rw [ht] at whole hv
    rw [hv] at removed
    dsimp only at removed
    obtain ⟨fs, frame⟩ := State.takeOver_frame { t with conferences := t.conferences.erase k }
      ⟨.routing, k, none, .routing ⟨[], []⟩, x.deliveredRouting.map .routing, b⟩
    have only : Only u { t with conferences := t.conferences.erase k, finals := fs } := by
      have h := whole.only
      unfold Only at h ⊢
      rw [h]
    refine ⟨?_, ?_, ?_, ?_, fun c hc => ?_, fun z hz hd hcode => ?_⟩
    · rw [removed, frame, hu]
      exact only
    · rw [removed, frame]
      exact whole.stations.trans stations
    · rw [removed, frame]
      exact whole.carriers.trans carriers
    · rw [removed, frame]
      exact gone
    · rw [removed, frame]
      exact (away c hc).trans ((whole.others c hc).trans (kept c))
    · rw [hx] at hz
      cases hz
      rw [removed]
      refine ⟨_, State.takeOver_stands (fun fs => ?_) (fun hb => ?_), rfl⟩
      · have none : (t.conferences.erase k).get k = .none := by simp [Table.get, gone]
        exact State.delivery_retired (s := { t with conferences := t.conferences.erase k, finals := fs }) none
      · have empty : x.emptied.routed = ⟨[], []⟩ := rfl
        by_cases hr : x.routing = ⟨[], []⟩
        · have same : t = u.modConference k Conference.emptied := by
            rw [← ht, State.recomputeRouting, dropped]
            exact if_pos (empty.trans hr.symm)
          rw [same, dropped] at hv
          have base : x.routingBase = b := (congrArg Conference.routingBase (Option.some.inj hv) :)
          rw [← base] at hb ⊢
          have entry := State.entry_of_code hx (hcode.resolve_left (fun h => h hr)) hb
          rw [same]
          unfold State.entryOf at entry ⊢
          rw [← settings, ← queue] at entry
          exact entry
        · have rerouted : t = ((u.modConference k Conference.emptied).modConference k
              (fun x => { x with routing := x.routed })).hand .routing k := by
            rw [← ht, State.recomputeRouting, dropped]
            exact if_neg (fun h => hr (h.symm.trans empty))
          obtain ⟨w, hw, undelivered⟩ := State.hand_undelivered
            (State.conference_of_mod dropped (fun x => { x with routing := x.routed })) hd
          rw [← rerouted, hv] at hw
          rw [← Option.some.inj hw] at undelivered
          exact absurd hb undelivered

end Sys2Proof.Machine

namespace Sys2Proof
open Machine

/-- Settles O39. -/
theorem conferenceOrders : Obligations.ConferenceOrders := by
  refine ⟨fun o s => ?_, fun o s old => ?_, fun o s ha h1 h24 hp hwf hfree => ?_⟩
  · intro words ha h1 h24 hn hc hf hl
    have tests : firstFailing ([s.lacks o .talkback 6, failIf (!conferenceKey (keyOf o)) .key 1,
        failIf (s.conference (keyOf o)).isSome .key 2] ++ s.holds o ++ labelRange (pairsOf o.params) words) = none := by
      refine passes_append (passes_append (passes_cons (State.lacks_fst ha.2.1 6) ?_) (State.passes_holds ha.2.2))
        (passes_labelRange hf hl)
      simp [conferenceKey, h1, h24, hn]
    have short : o.params.length ≤ 16 := (evenCount_le hc).trans (by decide)
    have taken : exec (.defineConference o) s = .next (((s.begun o).withConference (keyOf o)
        { Conference.blank with label := words }).answer (doneReply o)) :=
      congrArg Host.Outcome.next (State.takeOrder_takes ha.1 short hc tests rfl rfl)
    obtain ⟨beside, b, held⟩ := (s.begun o).withConference_spec (keyOf o) { Conference.blank with label := words }
    exact ⟨_, b, taken, held, fun c hc => (beside.others c hc).trans ((Table.get_put _ _ _ _).trans (if_neg hc)),
      beside.stations, beside.carriers, beside.only.besideStations (s.besideStations_conferences o _) _,
      beside.only.storeStates, rfl⟩
  · intro words ha hx hc hcount hf hl
    have record : (s.conference (keyOf o)).getD Conference.blank = old := by rw [hx]; rfl
    have short : o.params.length ≤ 16 := (evenCount_le hcount).trans (by decide)
    obtain rfl : old = (s.conference (keyOf o)).getD Conference.blank := record.symm
    have tests : firstFailing (([s.lacks o .talkback 6, failIf (s.conference (keyOf o)).isNone .key 1,
        claimHold o ((s.conference (keyOf o)).getD Conference.blank).claim] ++ s.holds o) ++
        labelRange (pairsOf o.params) words) = none :=
      passes_append (passes_conference ha hx hc) (passes_labelRange hf hl)
    refine ⟨fun same => congrArg Host.Outcome.next ?_, fun changed => congrArg Host.Outcome.next ?_⟩
    · refine (State.takeOrder_takes (u := s.begun o) (r := doneReply o) ha.1 short hcount tests ?_ rfl).trans rfl
      exact if_pos same
    · refine (State.takeOrder_takes (u := ((s.begun o).modConference (keyOf o)
        (fun x => { x with label := words })).conferenceChanged) (r := doneReply o) ha.1 short hcount tests ?_ rfl).trans ?_
      · exact if_neg changed
      · rw [State.modConference_of (s := s.begun o) hx]
        rfl
  · have slot : (s.conferences.slot (keyOf o)).isSome = true ∧ claimFree o ((s.conference (keyOf o)).bind Conference.claim) := by
      rcases hfree with ⟨x, hx, hc⟩ | ⟨m, hm⟩
      · exact ⟨Table.slot_isSome_of_get hx, by simpa [hx] using hc⟩
      · have hx : s.conference (keyOf o) = none := by simp [State.conference, Table.get, hm]
        simp [hm, hx, claimFree]
    have key : (!conferenceKey (keyOf o) || (s.conferences.slot (keyOf o)).isNone) = false := by
      simp [conferenceKey, h1, h24, slot.1]
    have taken : exec (.retireConference o) s =
        .next (((s.begun o).removeConference (keyOf o)).conferenceChanged.answer (doneReply o)) :=
      congrArg Host.Outcome.next (State.takeOrder_takes ha.1 (by simp [hp]) (by simp [hp])
        (passes_append (passes_cons (State.lacks_fst ha.2.1 6) (passes_cons key (passes_cons (claimHold_fst slot.2)
          firstFailing_nil))) (State.passes_holds ha.2.2)) rfl rfl)
    have left := (s.begun o).removeConference_left (keyOf o)
    generalize (s.begun o).removeConference (keyOf o) = u at taken left
    have only := left.only
    rw [State.unfollow_eq] at only
    refine ⟨_, taken, left.slot, left.others, fun g => ?_, fun x hx hd hcode => ?_, left.stations, left.carriers, only.windows,
      only.settings, only.checkQueue, only.engine, ?_, ?_, rfl⟩
    · exact (congrArg (Table.get · g) only.galleries).trans (State.unfollowed_gallery (s := s.begun o) hwf (keyOf o) g)
    · exact left.final x hx hd (by rw [State.begun_deliveryCode]; exact hcode)
    · have machine := only.sameMachine
      cases machine
      constructor <;> assumption
    · exact congrArg (fun x : StoreStates => { x with conference := true }) only.storeStates

end Sys2Proof
end

section
/-! The report items of an answered Poll: CLEAN, QUALITY and TUNED (R57, R61, R62, R65 to R70, R148). -/

namespace Sys2Proof.Machine

/-! ## Items -/

theorem toNat_wordOf {n : Nat} (h : n < 65536) : (wordOf n).toNat = n := by
  rw [wordOf, BitVec.toNat_ofNat]
  exact Nat.mod_eq_of_lt h

/-- The Poll of a unit that is Present is on the line: its answer's items are taken (R145, R148). -/
structure State.polls (s : State) (a seq : Nat) (u : LineUnit) (kind : UnitKind) : Prop where
  line : s.onLine (.poll a) seq u
  present : u.state = .present
  kind : u.kind = some kind

/-- The unit noted as its answer is taken. -/
@[reducible] def State.answeredBy (s : State) (a : Nat) (u : LineUnit) : State := s.unitNoted a { u with missed := 0 }

/-- The answer that is one item takes the item's effect. -/
theorem State.polls.takes {s t : State} {a seq : Nat} {u : LineUnit} {kind : UnitKind} (h : s.polls a seq u kind)
    {body : List Word} (hb : body.length ≤ 104) {act : State → State} (hi : parseItem a body = some (act, []))
    (ht : act (s.answeredBy a u) = t) (hl : Only (s.answeredBy a u) t) :
    exec (.pollAnswered (unitFrame (.poll a) seq kind body)) s = .next t := by
  have load : (act (s.answeredBy a u)).load = .none := by
    rw [ht]
    exact hl.sameMachine.load.trans (State.onLine_noted h.line _).2.1
  rw [State.oneItem h.line h.present h.kind hb hi load, ht]

/-- The kind of the unit that answers. -/
theorem State.polls.unitKind {s : State} {a seq : Nat} {u : LineUnit} {kind : UnitKind} (h : s.polls a seq u kind) :
    (s.answeredBy a u).unitKind a = some kind := by
  rw [State.unitKind, (State.onLine_noted h.line { u with missed := 0 }).2.2]
  exact h.kind

/-- No read of an item fails. -/
theorem State.polls.item {s : State} {a seq : Nat} {u : LineUnit} {kind : UnitKind} (h : s.polls a seq u kind)
    (names : List RecordId) (f : State → State) : (s.answeredBy a u).item a names f = f (s.answeredBy a u) :=
  State.acting_sound (State.onLine_noted h.line { u with missed := 0 }).1 _ _ f

/-! ## CLEAN -/

/-- The clean score of a carrier is recorded. -/
@[reducible] def State.cleanHeard (s : State) (c : Nat) (y : Carrier) (score : Nat) : State :=
  { s with carriers := s.carriers.put c { y with cleanScore := some score, cleanAge := some 0 } }

/-- A CLEAN item of a carrier that is no station's Blocked standby records the score alone (R19). -/
theorem State.cleanItem_other {s : State} {c : Nat} {y : Carrier} (hy : s.carrier c = some y)
    (hb : y.blockedStandbyOf = none) (score : Nat) : s.cleanItem c score = s.cleanHeard c y score := by
  unfold State.cleanItem
  rw [hy]
  dsimp only
  rw [hb]
  exact State.modCarrier_of hy _

/-- A CLEAN item of a station's Blocked standby begins, keeps or stops the recovery run (R70). -/
theorem State.cleanItem_standby {s : State} {c k : Nat} {y : Carrier} {x : Station} (hy : s.carrier c = some y)
    (hb : y.blockedStandbyOf = some k) (hx : s.station k = some x) (score : Nat) :
    s.cleanItem c score = { s.cleanHeard c y score with
      stations := s.stations.put k { x with
        recoveryRun := if s.settings.returnLevel < score then some (x.recoveryRun.getD 0) else none } } := by
  unfold State.cleanItem
  rw [hy]
  dsimp only
  rw [hb]
  dsimp only
  rw [State.modCarrier_of hy]
  exact State.modStation_besideCarriers hx _ _

/-- The station whose Blocked standby a carrier is not. -/
theorem Carrier.blockedStandbyOf_eq_none {y : Carrier} (h : y.state ≠ .blocked ∨ ∀ k, y.bound ≠ some (k, .standby)) :
    y.blockedStandbyOf = none := by
  rw [Option.eq_none_iff_forall_ne_some]
  intro k hk
  obtain ⟨hst, hbound⟩ := (y.blockedStandbyOf_eq_some k).1 hk
  exact h.elim (fun h => h hst) (fun h => h k hbound)

/-! ## QUALITY -/

/-- The station as a QUALITY item leaves it before its link is looked at (R61, R67). -/
@[reducible] def Station.heard (x : Station) (s : State) (q : Nat) : Station :=
  { x with
    quality := some q
    qualityAge := some 0
    watch := if x.link = .tuning then x.watch else .running 0
    inhibit := if x.link.upOrWeak || x.link = .lost then x.inhibit && q < s.settings.returnLevel else x.inhibit }

theorem Station.heard_eq {x : Station} {s : State} {q : Nat} {w : Watch} {b : Bool}
    (hw : (if x.link = .tuning then x.watch else .running 0) = w)
    (hb : (if x.link.upOrWeak || x.link = .lost then x.inhibit && q < s.settings.returnLevel else x.inhibit) = b) :
    x.heard s q = { x with quality := some q, qualityAge := some 0, watch := w, inhibit := b } := by
  rw [← hw, ← hb]

/-- A QUALITY item of a station's primary records the quality; what follows is by the link (R61, R62, R67, R68). -/
theorem State.qualityItem_eq {s : State} {k c : Nat} {x : Station} (hx : s.station k = some x) (hl : x.link ≠ .parked)
    (hp : x.primary = some c) (q : Nat) :
    let t := s.modStation k (fun x => x.heard s q)
    s.qualityItem k c q = match x.link with
      | .parked | .tuning | .switching => t
      | .up | .weak => if t.fallsBack (x.heard s q) q then t.startSwitch k .automatic false else t.hysteresis k x.link q
      | .lost =>
        if s.settings.fallbackFloor ≤ q then (t.setLink k .up).markStation k StationReason.linkRestored
        else (t.setLink k .weak).markStation k StationReason.linkWeak := by
  intro t
  have held : t.station k = some (x.heard s q) := State.station_of_mod hx _
  have taken : (decide (x.link = .parked) || x.primary != some c) = false := by simp [hl, hp]
  unfold State.qualityItem
  rw [hx]
  dsimp only
  rw [taken, if_neg (by nofun)]
  have read : ∀ f : Station → State, (match t.station k with | none => t | some y => f y) = f (x.heard s q) := fun f => by
    rw [held]
  cases x.link with
  | parked => rfl
  | tuning => rfl
  | switching => rfl
  | lost => rfl
  | up => exact read _
  | weak => exact read _

/-- In Tuning and in Switching a quality is recorded and nothing follows. -/
theorem State.qualityItem_recorded {s : State} {k c : Nat} {x : Station} (hx : s.station k = some x)
    (hl : x.link = .tuning ∨ x.link = .switching) (hp : x.primary = some c) (q : Nat) :
    s.qualityItem k c q = { s with stations := s.stations.put k (x.heard s q) } := by
  have parked : x.link ≠ .parked := by rcases hl with h | h <;> simp [h]
  rw [State.qualityItem_eq hx parked hp, ← State.modStation_of hx (fun x => x.heard s q)]
  rcases hl with h | h <;> simp [h]

/-- In Up and Weak a quality may begin a Fallback switch; else the link follows it (R62, R67). -/
theorem State.qualityItem_up {s : State} {k c : Nat} {x : Station} (hx : s.station k = some x) {l : Link}
    (hl : x.link = l) (hul : l = .up ∨ l = .weak) (hp : x.primary = some c) (q : Nat) :
    s.qualityItem k c q = if (s.modStation k (fun x => x.heard s q)).fallsBack (x.heard s q) q then
        (s.modStation k (fun x => x.heard s q)).startSwitch k .automatic false
      else (s.modStation k (fun x => x.heard s q)).hysteresis k l q := by
  subst hl
  have parked : x.link ≠ .parked := by rcases hul with h | h <;> simp [h]
  rw [State.qualityItem_eq hx parked hp]
  rcases hul with h | h <;> simp [h]

/-- A Lost link returns (R68). -/
theorem State.qualityItem_lost {s : State} {k c : Nat} {x : Station} (hx : s.station k = some x) (hl : x.link = .lost)
    (hp : x.primary = some c) (q : Nat) :
    s.qualityItem k c q = if s.settings.fallbackFloor ≤ q then
        ((s.modStation k (fun x => x.heard s q)).setLink k .up).markStation k StationReason.linkRestored
      else ((s.modStation k (fun x => x.heard s q)).setLink k .weak).markStation k StationReason.linkWeak := by
  rw [State.qualityItem_eq hx (by simp [hl]) hp]
  simp [hl]

/-- The fallback test (R67). -/
theorem State.fallsBack_iff (s : State) (x : Station) (q : Nat) : s.fallsBack x q = true ↔
    x.inhibit = false ∧ q < s.settings.fallbackFloor ∧
      ∃ c z score age, x.standby = some c ∧ s.carrier c = some z ∧ z.state = .standby ∧ z.cleanScore = some score ∧
        z.cleanAge = some age ∧ age ≤ s.settings.linkWatch ∧ q + s.settings.fallbackMargin < score := by
  unfold State.fallsBack State.usableStandby
  cases hc : x.standby with
  | none => simp
  | some c =>
    cases hz : s.carrier c with
    | none => simp [hz]
    | some z =>
      cases hs : z.cleanScore with
      | none => simp [hz, hs]
      | some score =>
        cases ha : z.cleanAge with
        | none => simp [hz, hs, ha]
        | some age => simp [hz, hs, ha, and_assoc]

/-- The quality and its age, the watch and the inhibit are of the station's core alone. -/
theorem Changed.heard (s : State) (k q : Nat) :
    Changed s (s.modStation k (fun x => x.heard s q)) k (fun x => x.heard s q) :=
  (Changed.refl s k).modStation (fun a b hab => by
    simp only [Station.core, Station.mk.injEq] at hab ⊢
    simp [hab])

end Sys2Proof.Machine

namespace Sys2Proof
open Machine

/-- Settles O48. -/
theorem cleanItem : Obligations.CleanItem := by
  intro a seq c score s u y hon hp hk hc hy hscore answer noted
  have polls : s.polls a seq u .rx := ⟨hon, hp, hk⟩
  have parsed : parseItem a [2#16, wordOf c, wordOf score] = some ((State.takeClean · a c score), []) := by
    simp [parseItem, toNat_wordOf (show c < 65536 by omega), toNat_wordOf (show score < 65536 by omega)]
  have held : (s.answeredBy a u).carrier c = some y := hy
  have taken : (s.answeredBy a u).takeClean a c score = (s.answeredBy a u).cleanItem c score := by
    unfold State.takeClean
    rw [polls.unitKind, held, polls.item]
    simp [hscore]
  have takes : ∀ t, (s.answeredBy a u).cleanItem c score = t → exec answer s = .next t := fun t ht =>
    polls.takes (by simp) parsed (taken.trans ht) (ht ▸ (Only.broad _).cleanItem (Only.refl _) c score)
  exact ⟨fun hno => takes _ (State.cleanItem_other held (Carrier.blockedStandbyOf_eq_none hno) score),
    fun k x hst hb hx => takes _ (State.cleanItem_standby held ((y.blockedStandbyOf_eq_some k).2 ⟨hst, hb⟩) (x := x) hx score)⟩

/-- Settles O49. -/
theorem qualityItem : Obligations.QualityItem := by
  intro a seq k c q s u x hon hp hk hk96 hc hx hcar hq answer noted heard back y fallsBack
  have polls : s.polls a seq u .rx := ⟨hon, hp, hk⟩
  have parsed : parseItem a [1#16, wordOf k, wordOf c, wordOf q] = some ((State.takeQuality · a k c q), []) := by
    simp [parseItem, toNat_wordOf (show c < 65536 by omega), toNat_wordOf (show k < 65536 by omega),
      toNat_wordOf (show q < 65536 by omega)]
  have held : (s.answeredBy a u).station k = some x := hx
  have taken : (s.answeredBy a u).takeQuality a k c q = (s.answeredBy a u).qualityItem k c q := by
    have carrier : ((s.answeredBy a u).carrier c).isSome = true := Option.isSome_iff_ne_none.2 hcar
    unfold State.takeQuality
    rw [polls.unitKind, held, carrier, polls.item]
    simp [hq]
  have takes : ∀ t, (s.answeredBy a u).qualityItem k c q = t → exec answer s = .next t := fun t ht =>
    polls.takes (by simp) parsed (taken.trans ht) (ht ▸ (Only.broad _).qualityItem (Only.refl _) k c q)
  have changed := Changed.heard (s.answeredBy a u) k q
  have marked : ∀ l r, ∃ t v, t = (((s.answeredBy a u).modStation k (fun x => x.heard (s.answeredBy a u) q)).setLink k l).markStation k r ∧
      t.station k = some v ∧ v.core = { x.heard (s.answeredBy a u) q with link := l : Station }.core ∧ r ∈ v.mark ∧
      (s.answeredBy a u).aroundStation t k := fun l r => by
    obtain ⟨v, hv, core, mark⟩ := (changed.setLink l).marked held r
    exact ⟨_, v, rfl, hv, core, mark, ((changed.setLink l).markStation k r).around⟩
  have returned : decide (q < (s.answeredBy a u).settings.returnLevel) = !back := by
    rw [← decide_not, decide_eq_decide]
    exact Nat.not_le.symm
  have heardUp : x.link = .up ∨ x.link = .weak ∨ x.link = .lost → x.heard (s.answeredBy a u) q = y := by
    intro h
    have watch : ¬ x.link = .tuning := by rcases h with h | h | h <;> simp [h]
    have inhibits : (x.link.upOrWeak || decide (x.link = .lost)) = true := by
      rcases h with h | h | h <;> simp [h, Link.upOrWeak]
    exact Station.heard_eq (if_neg watch) ((if_pos inhibits).trans (congrArg (x.inhibit && ·) returned))
  have falls : ∀ h : x.link = .up ∨ x.link = .weak, ((s.answeredBy a u).modStation k (fun x => x.heard (s.answeredBy a u) q)).fallsBack
      (x.heard (s.answeredBy a u) q) q = true ↔ fallsBack := by
    intro h
    rw [State.fallsBack_iff, heardUp (h.imp_right .inl)]
    exact Iff.rfl
  have puts : ∀ {v w : Station}, v = w → ({ s.answeredBy a u with stations := s.stations.put k v } : State) =
      { s.answeredBy a u with stations := s.stations.put k w } :=
    fun e => congrArg (fun z => { s.answeredBy a u with stations := s.stations.put k z }) e
  refine ⟨fun h => takes _ ?_, fun hprim => ⟨fun hl => takes _ ?_, fun hl => takes _ ?_, ?_, fun hl hno => ?_, fun hl hno => ?_,
    fun hl => ?_⟩⟩
  · unfold State.qualityItem
    rw [held]
    exact if_pos (by simpa using h)
  · exact (State.qualityItem_recorded held (.inl hl) hprim q).trans
      (puts (Station.heard_eq (if_pos hl) (if_neg (by simp [hl, Link.upOrWeak]))))
  · exact (State.qualityItem_recorded held (.inr hl) hprim q).trans
      (puts (Station.heard_eq (if_neg (by simp [hl])) (if_neg (by simp [hl, Link.upOrWeak]))))
  · intro c2 z score age hl hinh hlow hstandby hz hst hclean hage hwatch hbetter
    have fell := (falls hl).2 ⟨hinh, hlow, c2, z, score, age, hstandby, hz, hst, hclean, hage, hwatch, hbetter⟩
    have effect := State.qualityItem_up held rfl hl hprim q
    rw [if_pos fell] at effect
    have switched := changed.startSwitch (State.station_of_mod held _) (x := x.heard (s.answeredBy a u) q) hstandby
      (z := z) hz .automatic false
    obtain ⟨v, hv, core⟩ := switched.core x held
    rw [heardUp (hl.imp_right .inl)] at core
    exact ⟨_, v, takes _ effect, hv, core, switched.around⟩
  · have effect := State.qualityItem_up held hl (.inl rfl) hprim q
    rw [if_neg (fun h => hno ((falls (.inl hl)).1 h))] at effect
    refine ⟨fun hfloor => takes _ (effect.trans ?_), fun hlow => ?_⟩
    · refine (if_neg (Nat.not_lt.2 hfloor)).trans ?_
      exact (State.modStation_of held _).trans (puts (heardUp (.inl hl)))
    · obtain ⟨t, v, ht, hv, core, mark, around⟩ := marked .weak StationReason.linkWeak
      rw [heardUp (.inl hl)] at core
      exact ⟨t, v, takes _ ((effect.trans (if_pos hlow)).trans ht.symm), hv, core, mark, around⟩
  · have effect := State.qualityItem_up held hl (.inr rfl) hprim q
    rw [if_neg (fun h => hno ((falls (.inr hl)).1 h))] at effect
    refine ⟨fun hback => takes _ (effect.trans ?_), fun hback => ?_⟩
    · refine (if_neg (of_decide_eq_false hback)).trans ?_
      exact (State.modStation_of held _).trans (puts (heardUp (.inr (.inl hl))))
    · obtain ⟨t, v, ht, hv, core, mark, around⟩ := marked .up StationReason.linkRestored
      rw [heardUp (.inr (.inl hl))] at core
      exact ⟨t, v, takes _ ((effect.trans (if_pos (of_decide_eq_true hback))).trans ht.symm), hv, core, mark, around⟩
  · have effect := State.qualityItem_lost held hl hprim q
    rw [heardUp (.inr (.inr hl))] at marked
    by_cases hfloor : s.settings.fallbackFloor ≤ q
    · obtain ⟨t, v, ht, hv, core, mark, around⟩ := marked .up StationReason.linkRestored
      rw [if_pos hfloor, if_pos hfloor]
      exact ⟨t, v, takes _ ((effect.trans (if_pos hfloor)).trans ht.symm), hv, core, mark, around⟩
    · obtain ⟨t, v, ht, hv, core, mark, around⟩ := marked .weak StationReason.linkWeak
      rw [if_neg hfloor, if_neg hfloor]
      exact ⟨t, v, takes _ ((effect.trans (if_neg hfloor)).trans ht.symm), hv, core, mark, around⟩

end Sys2Proof
end

section
/-! The TUNED items (R57, R59, R65, R66). -/

namespace Sys2Proof.Machine

theorem mem_addReason_of_mem (r : Nat) {a : Nat} {m : List Nat} (h : a ∈ m) : a ∈ addReason r m := by
  induction m with
  | nil => cases h
  | cons b rest ih =>
    unfold addReason
    split
    · exact List.mem_cons_of_mem _ h
    · split
      · exact h
      · rcases List.mem_cons.1 h with rfl | h
        · exact List.mem_cons_self
        · exact List.mem_cons_of_mem _ (ih h)

/-- A TUNED report ends Tuning (R59). -/
theorem Changed.tuneDone (s : State) (k : Nat) : Changed s ((s.modStation k (fun x => { x with
    attempts := 0, tuneTimer := none, watch := .running 0 })).setLink k .up) k (fun x => { x with
    attempts := 0, tuneTimer := none, watch := .running 0, link := .up }) := by
  refine ((Changed.refl s k).modStation ?_).setLink .up
  intro a b hab
  simp only [Station.core, Station.mk.injEq] at hab ⊢
  simp [hab]

/-- The standby's carrier once the switch to it is made (R65). -/
@[reducible] def Carrier.promoted (z : Carrier) (k : Nat) : Carrier :=
  { z with state := .assigned, bound := some (k, .primary), alternate := none, mark := addReason 7 z.mark }

/-- The primary's carrier once the switch away from it is made (R65). -/
@[reducible] def Carrier.demoted (y : Carrier) (k c : Nat) (automatic blocked : Bool) : Carrier :=
  { y with
    state := if automatic || blocked then .blocked else .standby
    bound := some (k, .standby)
    alternate := if automatic then some c else none
    mark := addReason (if automatic then 6 else if blocked then 8 else 7) y.mark }

/-- The station once a switch is made, but for its link (R65). -/
@[reducible] def Station.switched (x : Station) (p c : Nat) (run : Option Nat) : Station :=
  { x with
    primary := some c
    standby := some p
    switchKind := none
    blockOutgoing := none
    attempts := 0
    tuneTimer := none
    quality := none
    qualityAge := none
    watch := .running 0
    recoveryRun := run }

/-- The carriers of a station have exchanged slots (R65). -/
@[reducible] def State.exchanged (s : State) (k p c : Nat) (y z : Carrier) (automatic blocked : Bool) : State :=
  { s with carriers := (s.carriers.put c (z.promoted k)).put p (y.demoted k c automatic blocked) }

/-- A switch that is made, as a change of the station beside its exchanged carriers. -/
theorem State.switchDone_eq {s : State} {k p c : Nat} {x : Station} {y z : Carrier} (hx : s.station k = some x)
    (hp : x.primary = some p) (hc : x.standby = some c) (hne : p ≠ c) (hy : s.carrier p = some y) (hz : s.carrier c = some z)
    {automatic blocked : Bool} (ha : decide (x.switchKind = some .automatic) = automatic)
    (hb : decide (x.blockOutgoing = some true) = blocked) :
    s.switchDone k =
      let t := (s.exchanged k p c y z automatic blocked).modStation k (·.switched p c none)
      let t := ((if automatic || blocked then t.beginRecovery k p else t).setLink k .up).markStation k StationReason.switched
      if automatic then t.markStation k StationReason.fallback else t := by
  have promoted : (s.modCarrier c (fun y => { y with
      state := .assigned, bound := some (k, .primary), alternate := none })).markCarrier c CarrierReason.roleChanged =
      { s with carriers := s.carriers.put c (z.promoted k) } := State.modCarrier_mark hz _ _
  have other : State.carrier { s with carriers := s.carriers.put c (z.promoted k) } p = some y :=
    (Table.get_put _ _ _ _).trans ((if_neg hne).trans hy)
  have demoted := State.modCarrier_mark (s := { s with carriers := s.carriers.put c (z.promoted k) }) other
    (fun y => { y with
      state := if automatic || blocked then .blocked else .standby
      bound := some (k, .standby)
      alternate := if automatic then some c else none })
    (if automatic then CarrierReason.fallback else if blocked then CarrierReason.blockDone else CarrierReason.roleChanged)
  unfold State.switchDone
  rw [hx]
  dsimp only
  rw [hp, hc]
  dsimp only
  rw [promoted]
  subst ha hb
  simp only [decide_eq_true_eq, State.exchanged, Carrier.demoted] at demoted ⊢
  rw [demoted] <;> rfl

/-- The recovery run of the new standby begins when it is heard clean and has become Blocked (R65, R70). -/
@[reducible] def State.newRun (s : State) (p : Nat) (blocked : Bool) : Option Nat :=
  if blocked && s.heardClean p then some 0 else none

theorem State.heardClean_put (s : State) {cs : Table Carrier} {p : Nat} {y z : Carrier} (hy : s.carrier p = some y)
    (hz : cs.get p = some z) (hs : z.cleanScore = y.cleanScore) (ha : z.cleanAge = y.cleanAge) (st : Table Station) :
    State.heardClean { s with carriers := cs, stations := st } p = s.heardClean p := by
  unfold State.heardClean
  have held : State.carrier { s with carriers := cs, stations := st } p = some z := hz
  rw [held, hy]
  dsimp only
  rw [hs, ha]

/-- What a switch that is made does to the station, beside its exchanged carriers (R65). -/
theorem State.switchDone_changes {s : State} {k p c : Nat} {x : Station} {y z : Carrier} (hx : s.station k = some x)
    (hp : x.primary = some p) (hc : x.standby = some c) (hne : p ≠ c) (hy : s.carrier p = some y) (hz : s.carrier c = some z)
    {automatic blocked : Bool} (ha : decide (x.switchKind = some .automatic) = automatic)
    (hb : decide (x.blockOutgoing = some true) = blocked) :
    Changed (s.exchanged k p c y z automatic blocked) (s.switchDone k) k
        (fun x => { x.switched p c (s.newRun p (automatic || blocked)) with link := .up }) ∧
      (s.switchDone k).carriers = (s.exchanged k p c y z automatic blocked).carriers ∧
      ∃ v, (s.switchDone k).station k = some v ∧ 7 ∈ v.mark ∧ (automatic = true → 8 ∈ v.mark) := by
  rw [State.switchDone_eq hx hp hc hne hy hz ha hb]
  generalize hr : s.exchanged k p c y z automatic blocked = r
  have start : Changed r (r.modStation k (·.switched p c none)) k (·.switched p c none) :=
    (Changed.refl r k).modStation (fun a b hab => by
      simp only [Station.core, Station.mk.injEq] at hab ⊢
      simp [hab])
  have clean : (r.modStation k (·.switched p c none)).heardClean p = s.heardClean p := by
    rw [← hr]
    exact State.heardClean_put s (y := y) (z := y.demoted k c automatic blocked) hy (Table.get_put_self _ _ _) rfl rfl _
  have run : Changed r (if automatic || blocked then (r.modStation k (·.switched p c none)).beginRecovery k p
      else r.modStation k (·.switched p c none)) k (·.switched p c (s.newRun p (automatic || blocked))) := by
    cases hab : automatic || blocked with
    | false => exact start
    | true =>
      rw [if_pos rfl, State.beginRecovery, clean]
      refine (start.modStation ?_).congr (fun _ _ => ?_)
      · intro a b hab
        simp only [Station.core, Station.mk.injEq] at hab ⊢
        simp [hab]
      · simp [State.newRun]
  have same : (if automatic || blocked then (r.modStation k (·.switched p c none)).beginRecovery k p
      else r.modStation k (·.switched p c none)).carriers = r.carriers := by
    split <;> rfl
  dsimp only
  generalize (if automatic || blocked then (r.modStation k (·.switched p c none)).beginRecovery k p
      else r.modStation k (·.switched p c none)) = t at run same
  have linked := run.setLink .up
  have carriers : (t.setLink k .up).carriers = r.carriers := (State.setLink_carriers t k .up).trans same
  have station : r.station k = some x := by rw [← hr]; exact hx
  obtain ⟨v, hv, _, mark⟩ := linked.marked station StationReason.switched
  cases automatic with
  | false =>
    rw [if_neg (by nofun)]
    exact ⟨linked.markStation k _, carriers, v, hv, mark, nofun⟩
  | true =>
    rw [if_pos rfl]
    exact ⟨(linked.markStation k _).markStation k _, carriers, _, State.station_markStation hv _,
      mem_addReason_of_mem _ mark, fun _ => mem_addReason_self _ _⟩

/-- What a TUNED item with the station's token does from its control unit, by the link (R57). -/
theorem State.tunedItem_eq {s : State} {k a token : Nat} {x : Station} (hx : s.station k = some x)
    (hu : x.controlUnit = some a) (ht : x.token = token) (done : Bool) :
    (x.link = .tuning → s.tunedItem k a token done = if done then s.tuneDone k else s.tuneFailed k) ∧
      (x.link = .switching → s.tunedItem k a token done = if done then s.switchDone k else s.switchFail k) := by
  unfold State.tunedItem
  rw [hx]
  dsimp only
  rw [if_pos (by simp [hu, ht])]
  exact ⟨fun hl => by rw [hl], fun hl => by rw [hl]⟩

/-- A TUNED item that is not the station's is discarded (R57). -/
theorem State.tunedItem_discarded {s : State} {k a token : Nat} {x : Station} (hx : s.station k = some x)
    (h : x.controlUnit ≠ some a ∨ x.token ≠ token ∨ (x.link ≠ .tuning ∧ x.link ≠ .switching)) (done : Bool) :
    s.tunedItem k a token done = s := by
  unfold State.tunedItem
  rw [hx]
  dsimp only
  split
  · next hc =>
    rw [Bool.and_eq_true, decide_eq_true_eq, decide_eq_true_eq] at hc
    obtain ⟨hu, ht⟩ := hc
    have link : x.link ≠ .tuning ∧ x.link ≠ .switching :=
      (h.resolve_left (fun n => n hu)).resolve_left (fun n => n ht)
    cases hl : x.link with
    | tuning => exact absurd hl link.1
    | switching => exact absurd hl link.2
    | parked => rfl
    | up => rfl
    | weak => rfl
    | lost => rfl
  · rfl

end Sys2Proof.Machine

namespace Sys2Proof
open Machine

/-- Settles O50. -/
theorem tunedItem : Obligations.TunedItem := by
  intro a seq k token done s u x hon hp hk hk96 htoken hx answer noted
  have polls : s.polls a seq u .txc := ⟨hon, hp, hk⟩
  have held : (s.answeredBy a u).station k = some x := hx
  have parsed : parseItem a [3#16, wordOf k, wordOf token, if done then 0#16 else 1#16] =
      some ((State.takeTuned · a k token (if done then 0 else 1)), []) := by
    cases done <;> simp [parseItem, toNat_wordOf (show k < 65536 by omega), toNat_wordOf (show token < 65536 by omega)]
  have taken : (s.answeredBy a u).takeTuned a k token (if done then 0 else 1) =
      (s.answeredBy a u).tunedItem k a token done := by
    unfold State.takeTuned
    rw [polls.unitKind, held, polls.item]
    cases done <;> simp [htoken]
  have takes : ∀ t, (s.answeredBy a u).tunedItem k a token done = t → exec answer s = .next t := fun t ht =>
    polls.takes (by cases done <;> simp) parsed (taken.trans ht)
      (ht ▸ (Only.broad _).tunedItem (Only.refl _) k a token done)
  refine ⟨fun h => takes _ (State.tunedItem_discarded held h done), fun hu ht hl => ?_,
    fun p c y z hu ht hl hprim hstandby hne hy hz => ?_⟩
  · have effect := (State.tunedItem_eq held hu ht done).1 hl
    cases done with
    | true =>
      have changed := Changed.tuneDone (s.answeredBy a u) k
      obtain ⟨v, hv, core, mark⟩ := changed.marked held StationReason.tuned
      exact ⟨_, v, takes _ effect, hv, (changed.markStation k _).around, fun _ => ⟨mark, core⟩, nofun⟩
    | false =>
      have changed := (Changed.refl (s.answeredBy a u) k).parkStation
      obtain ⟨v, hv, core, mark⟩ := changed.marked held StationReason.tuneFailed
      exact ⟨_, v, takes _ effect, hv, (changed.markStation k _).around, nofun, fun _ => ⟨mark, core⟩⟩
  · have effect := (State.tunedItem_eq held hu ht done).2 hl
    cases done with
    | true =>
      obtain ⟨changed, carriers, v, hv, switched, fallback⟩ :=
        State.switchDone_changes held hprim hstandby hne hy hz rfl rfl
      obtain ⟨w, hw, core⟩ := changed.core x held
      rw [hv] at hw
      cases hw
      have only : Only (s.answeredBy a u) ((s.answeredBy a u).switchDone k) :=
        (Only.broad _).switchDone (Only.refl _) k
      refine ⟨_, v, takes _ effect, hv, fun _ => ⟨switched, fallback, core, ?_, ?_, fun j hjc hjp => ?_, changed.others,
        ⟨only.windows, only.galleries, only.settings, only.checkQueue, only.engine, only.sameMachine⟩, only.storeStates,
        only.port⟩, nofun⟩
      · exact (congrArg (Table.get · c) carriers).trans ((Table.get_put _ _ _ _).trans
          ((if_neg (Ne.symm hne)).trans (Table.get_put_self _ _ _)))
      · exact (congrArg (Table.get · p) carriers).trans (Table.get_put_self _ _ _)
      · exact (congrArg (Table.get · j) carriers).trans ((Table.get_put _ _ _ _).trans
          ((if_neg hjp).trans ((Table.get_put _ _ _ _).trans (if_neg hjc))))
    | false =>
      obtain ⟨v, hv, core, mark⟩ := State.switchFail_station held hprim (y := y) hy
      obtain ⟨g, changed⟩ := (s.answeredBy a u).switchFail_changes k
      refine ⟨_, v, takes _ effect, hv, nofun, fun _ => ⟨mark, changed.around, core.trans ?_⟩⟩
      simp [Station.switchFailed]

end Sys2Proof
end

section
/-! The KEY items: Talk, Cue, Call and Answer keys (R92, R102, R103, R117 to R119). -/

namespace Sys2Proof.Machine

/-! ## The item -/

/-- A key's source has a number of one word. -/
theorem State.keySource_lt {s : State} {n : Nat} {id : Source} (h : s.keySource n = some id) : n < 65536 := by
  by_contra hn
  have none : sourceOf n = none := by
    unfold sourceOf
    rw [if_neg, if_neg, if_neg] <;> simp <;> omega
  simp [State.keySource, identityOf, none] at h

/-- The words of a KEY item. -/
@[reducible] def keyWords (source kind target level action : Nat) : List Word :=
  [5#16, wordOf source, wordOf kind, wordOf target, wordOf level, wordOf action]

theorem parseItem_key {a source kind target level action : Nat} (hs : source < 65536) (hk : kind < 65536)
    (ht : target < 65536) (hl : level < 65536) (ha : action < 65536) :
    parseItem a (keyWords source kind target level action) =
      some ((State.takeKey · a source kind target level action), []) := by
  simp [parseItem, keyWords, toNat_wordOf hs, toNat_wordOf hk, toNat_wordOf ht, toNat_wordOf hl, toNat_wordOf ha]

/-- What a change of carriers, stations, conferences and deliveries leaves alone. -/
theorem Only.beside {s t : State} (h : Only s t) : s.besideStations t :=
  ⟨h.windows, h.galleries, h.settings, h.checkQueue, h.engine, h.sameMachine⟩

/-- Lamp and cue notices are around every station. -/
theorem Hushed.around {s t : State} (h : Hushed s t) (k : Nat) : s.aroundStation t k :=
  ⟨h.keep k, fun c => by rw [State.carrier, h.quiet.2.1]; rfl, h.quiet.1.beside, h.quiet.1.storeStates, h.quiet.1.port⟩

/-- A change of one station, and lamp and cue notices, are around it. -/
theorem Hushed.aroundChange {s t : State} {k : Nat} {f : Station → Station} (h : Hushed (s.modStation k f) t) :
    s.aroundStation t k := by
  have only := (Only.modStation s k f).trans h.quiet.1
  exact ⟨h.others, fun c => by rw [State.carrier, h.quiet.2.1]; rfl, only.beside, only.storeStates, only.port⟩

/-- The TKM unit that answers, and the key's source. -/
structure State.keys (s : State) (a seq : Nat) (u : LineUnit) (kind : UnitKind) (n : Nat) (id : Source) : Prop where
  polls : s.polls a seq u kind
  matrix : s.settings.matrixUnit = some a
  source : s.keySource n = some id

/-- A KEY item of the TKM unit is taken. -/
theorem State.keys.takes {s t : State} {a seq n : Nat} {u : LineUnit} {kind : UnitKind} {id : Source}
    (h : s.keys a seq u kind n id) {k target level action : Nat} (hk : k < 65536) (ht : target < 65536) (hl : level ≤ 1)
    (ha : action ≤ 1) (hd : (s.answeredBy a u).takeKey a n k target level action = t) (ho : Only (s.answeredBy a u) t) :
    exec (.pollAnswered (unitFrame (.poll a) seq kind (keyWords n k target level action))) s = .next t :=
  h.polls.takes (by simp) (parseItem_key (State.keySource_lt h.source) hk ht (by omega) (by omega)) hd ho

/-- A KEY item of the TKM unit, by its kind. -/
theorem State.keys.takeKey {s : State} {a seq n : Nat} {u : LineUnit} {kind : UnitKind} {id : Source}
    (h : s.keys a seq u kind n id) (target : Nat) {level action : Nat} (hl : level ≤ 1) (ha : action ≤ 1) :
    (s.answeredBy a u).takeKey a n 0 target level action = (s.answeredBy a u).takeTalk a id target action ∧
      (s.answeredBy a u).takeKey a n 1 target level action = (s.answeredBy a u).takeCue a id target level action ∧
      (s.answeredBy a u).takeKey a n 2 target level action = (s.answeredBy a u).takeCall a id target action ∧
      (s.answeredBy a u).takeKey a n 3 target level action = (s.answeredBy a u).takeAnswer a id action := by
  have source : (s.answeredBy a u).keySource n = some id := h.source
  have right : (decide ((s.answeredBy a u).settings.matrixUnit = some a) && decide (level ≤ 1) && decide (action ≤ 1)) =
      true := by
    rw [decide_eq_true hl, decide_eq_true ha, Bool.and_true, Bool.and_true, decide_eq_true_eq]
    exact h.matrix
  unfold State.takeKey
  rw [source]
  exact ⟨if_pos right, if_pos right, if_pos right, if_pos right⟩

/-! ## Talk keys -/

/-- A Talk key on a conference that exists. -/
theorem State.keys.talk {s t : State} {a seq n c : Nat} {u : LineUnit} {kind : UnitKind} {id : Source} {x : Conference}
    (h : s.keys a seq u kind n id) (hc : c ≤ 24) (hx : s.conference c = some x) {press : Bool}
    (ht : (if press then (s.answeredBy a u).talkPress c id else (s.answeredBy a u).talkRelease c id) = t)
    (ho : Only (s.answeredBy a u) t) :
    exec (.pollAnswered (unitFrame (.poll a) seq kind (keyWords n 0 c 0 (if press then 1 else 0)))) s = .next t := by
  have acts : (if press then 1 else 0) ≤ 1 := by cases press <;> decide
  refine h.takes (by omega) (by omega) (by omega) acts ((h.takeKey c (by omega) acts).1.trans ?_) ho
  have held : ((s.answeredBy a u).conference c).isSome = true := Option.isSome_of_eq_some hx
  rw [State.takeTalk, if_pos held, h.polls.item, ← ht]
  cases press <;> rfl

/-- A Talk press that changes nothing (R102). -/
theorem State.talkPress_discarded {s : State} {c : Nat} {id : Source} {x : Conference} {m : Member}
    (hx : s.conference c = some x) (hm : x.members.find? (fun m => m.id = id) = some m)
    (h : m.talk = false ∨ m.absent = true ∨ id ∈ x.talkers) : s.talkPress c id = s := by
  unfold State.talkPress
  rw [hx]
  dsimp only
  rw [hm]
  exact if_pos (by rcases h with h | h | h <;> simp [h])

/-- What a Talk press of a member does that may talk and does not yet (R102). -/
theorem State.talkPress_eq {s : State} {c : Nat} {id : Source} {x : Conference} {m : Member}
    (hx : s.conference c = some x) (hm : x.members.find? (fun m => m.id = id) = some m) (ht : m.talk = true)
    (ha : m.absent = false) (hn : id ∉ x.talkers) :
    (x.talkers.length < 4 → s.talkPress c id =
      (s.modConference c (fun x => { x with talkers := x.talkers ++ [id] })).recomputeRouting c) ∧
    (∀ oldest, 4 ≤ x.talkers.length → x.lowestTalker < m.priority →
      x.talkers.find? (fun t => x.priorityOf t = x.lowestTalker) = some oldest → s.talkPress c id =
      ((s.modConference c (fun x => { x with talkers := x.talkers.erase oldest ++ [id] })).markConference c
        ConferenceReason.preempted).recomputeRouting c) ∧
    (4 ≤ x.talkers.length → m.priority ≤ x.lowestTalker → s.talkPress c id = s.markConference c ConferenceReason.talkBusy) := by
  have may : ¬ (!m.talk || m.absent || x.talkers.contains id) = true := by simp [ht, ha, hn]
  unfold State.talkPress
  rw [hx]
  dsimp only
  rw [hm]
  dsimp only
  rw [if_neg may]
  have full : 4 ≤ x.talkers.length → ¬ x.talkers.length < Config.talkerMax := Nat.not_lt.2
  refine ⟨fun h => if_pos h, fun oldest h hl hf => ?_, fun h hl => ?_⟩
  · rw [if_neg (full h), if_pos hl, hf]
  · rw [if_neg (full h), if_neg (Nat.not_lt.2 hl)]

/-- A Talk release of a talker (R103). -/
theorem State.talkRelease_eq {s : State} {c : Nat} {id : Source} {x : Conference} (hx : s.conference c = some x)
    (h : id ∈ x.talkers) : s.talkRelease c id =
      (s.modConference c (fun x => { x with talkers := x.talkers.erase id })).recomputeRouting c := by
  unfold State.talkRelease
  rw [hx]
  exact if_pos (by simpa using h)

/-- A conference whose talkers have changed, and its routing recomputed. -/
structure State.retalked (s t : State) (c : Nat) (y : Conference) : Prop where
  beside : s.besideConference t c
  conference : ∃ b, t.conference c = some { y with routing := y.routed, routingBase := b }

theorem State.retalked_of {s : State} {c : Nat} {x : Conference} (hx : s.conference c = some x)
    (f : Conference → Conference) : s.retalked ((s.modConference c f).recomputeRouting c) c (f x) := by
  obtain ⟨beside, held⟩ := State.recomputeRouting_rerouted (State.conference_of_mod hx f)
  exact ⟨(s.besideConference_mod c f).trans beside, held⟩

theorem State.modConference_mark {s : State} (c : Nat) (f : Conference → Conference) (r : Nat) :
    (s.modConference c f).markConference c r =
      s.modConference c (fun x => { f x with mark := addReason r (f x).mark }) :=
  congrArg (fun m => { s with conferences := m }) (Table.modify_modify s.conferences c _ _)

/-! ## Cue keys -/

theorem State.keySource_port {s : State} {port : Nat} (h1 : 1 ≤ port) (h48 : port ≤ 48) :
    s.keySource (256 + port) = some (.port port) := by
  have source : sourceOf (256 + port) = some (.port port) := by
    unfold sourceOf
    rw [if_neg (by simp; omega), if_pos (by simp; omega), Nat.add_sub_cancel_left]
  simp [State.keySource, identityOf, source]

theorem State.keySource_station {s : State} {k : Nat} {x : Station} (h1 : 1 ≤ k) (h96 : k ≤ 96) (hx : s.station k = some x) :
    s.keySource k = some (.station k) := by
  have source : sourceOf k = some (.station k) := by
    unfold sourceOf
    rw [if_pos (by simp; omega)]
  simp [State.keySource, identityOf, source, hx]

/-- A Cue key of a panel port on a station with a cue stack (R117). -/
theorem State.cueKey_port {s : State} {k : Nat} {x : Station} (hx : s.station k = some x) (hk : x.kind.hasCue = true)
    (port : Nat) (level : CueLevel) (press : Bool) : s.cueKey k (.port port) level press =
      if press then s.cueKeyPress k (.port port) level else s.cueRelease k (.port port) := by
  unfold State.cueKey
  simp [hx, hk]

/-- A Cue key of a panel port, at Floor. -/
theorem State.keys.cue {s t : State} {a seq k port : Nat} {u : LineUnit} {kind : UnitKind} {x : Station}
    (h : s.keys a seq u kind (256 + port) (.port port)) (hk : k ≤ 96) (hx : s.station k = some x)
    (hc : x.kind.hasCue = true) {press : Bool}
    (ht : (if press then (s.answeredBy a u).cueKeyPress k (.port port) .floor
      else (s.answeredBy a u).cueRelease k (.port port)) = t) :
    exec (.pollAnswered (unitFrame (.poll a) seq kind (keyWords (256 + port) 1 k 0 (if press then 1 else 0)))) s = .next t := by
  have acts : (if press then 1 else 0) ≤ 1 := by cases press <;> decide
  have held : (s.answeredBy a u).station k = some x := hx
  have keyed := State.cueKey_port held hc port .floor press
  have same : decide ((if press then 1 else 0) = 1) = press := by cases press <;> rfl
  refine h.takes (by omega) (by omega) (by omega) acts ((h.takeKey k (by omega) acts).2.1.trans ?_) ?_
  · rw [State.takeCue, if_pos (Option.isSome_of_eq_some held), h.polls.item, same]
    exact keyed.trans ht
  · rw [← ht, ← keyed]
    exact (Only.broad _).soft.cueKey (Only.refl _) k _ _ _

/-- A Cue press, by what it meets (R118). -/
theorem State.cueKeyPress_eq {s : State} {k : Nat} {x : Station} (hx : s.station k = some x) (port : Nat) :
    (pressResult x (.port port) .floor = .pushed → s.cueKeyPress k (.port port) .floor = s.cuePush k (.port port) .floor) ∧
      (pressResult x (.port port) .floor = .linkDown ∨ pressResult x (.port port) .floor = .declined →
        s.cueKeyPress k (.port port) .floor = s.markStation k StationReason.cueDeclined) ∧
      (pressResult x (.port port) .floor = .busy →
        s.cueKeyPress k (.port port) .floor = s.markStation k StationReason.cueBusy) := by
  have legal : s.legalLevel (.port port) .floor = .floor := rfl
  unfold State.cueKeyPress
  rw [hx, legal]
  dsimp only
  exact ⟨fun h => by rw [h], fun h => by rcases h with h | h <;> rw [h], fun h => by rw [h]⟩

/-- A press on a station that is Parked, or that declines with an empty stack (R118). -/
theorem pressResult_unheard {x : Station} (h : x.link = .parked ∨ (x.stack = [] ∧ x.accept = false)) (src : Source) :
    pressResult x src .floor = .linkDown ∨ pressResult x src .floor = .declined := by
  cases hl : x.link.parkedOrLost with
  | true => exact .inl (by simp [pressResult, hl])
  | false =>
    rcases h with h | ⟨hs, ha⟩
    · rw [h] at hl
      cases hl
    · exact .inr (pressResult_declined hl hs ha src)

/-! ## Call and Answer keys -/

/-- A Call key press on a station with a lamp starts its call (R92). -/
theorem State.callPress_leaves {s : State} {k : Nat} {x : Station} (hx : s.station k = some x) (hl : x.kind.hasLamp = true) :
    s.aroundStation (s.callPress k) k ∧ ∃ v, (s.callPress k).station k = some v ∧ 15 ∈ v.mark ∧ v.core = { x with
      call := some x.callMode
      callRemaining := match x.callMode with | .single => some 2000 | .latched => none : Station }.core := by
  have pressed : s.callPress k = (s.startCall k).markStation k StationReason.called := by
    unfold State.callPress
    rw [hx]
    exact if_pos hl
  have held := State.station_of_mod hx (fun x => { x with
    call := some x.callMode
    callRemaining := match x.callMode with | .single => some Config.callTime | .latched => none })
  have hushed := (Hushed.calm _).recomputeLamps (Hushed.refl (s.modStation k (fun x => { x with
    call := some x.callMode
    callRemaining := match x.callMode with | .single => some Config.callTime | .latched => none }))) k
  obtain ⟨v, hv, core⟩ := hushed.core held
  rw [pressed]
  exact ⟨((Hushed.calm _).markStation hushed k StationReason.called).aroundChange, _, State.station_markStation hv _,
    mem_addReason_self _ _, core⟩

/-- An Answer key press of a calling Beltpack without a partner ends its call (R92). -/
theorem State.answerPress_leaves {s : State} {k : Nat} {x : Station} (hx : s.station k = some x) (hk : x.kind = .beltpack)
    (hc : x.call ≠ none) (hp : x.pair = none) : s.aroundStation (s.answerPress k) k ∧
      ∃ v, (s.answerPress k).station k = some v ∧ 17 ∈ v.mark ∧
        v.core = { x with call := none, callRemaining := none : Station }.core := by
  have calling : s.callHeld k = true := by
    unfold State.callHeld
    rw [hx]
    exact Option.isSome_iff_ne_none.2 hc
  have answered : s.answerPress k = ((s.endCall k).markStation k StationReason.callAnswered).recomputeLamps k := by
    unfold State.answerPress
    rw [hx]
    dsimp only
    rw [if_pos hk, hp]
    dsimp only
    rw [State.endCallMarked, if_pos calling]
  have held := State.station_markStation (State.station_of_mod hx (fun x => { x with call := none, callRemaining := none }))
    StationReason.callAnswered
  have marked : Hushed (s.modStation k (fun x => { x with call := none, callRemaining := none }))
      ((s.endCall k).markStation k StationReason.callAnswered) := (Hushed.calm _).markStation (Hushed.refl _) k _
  have hushed := (Hushed.calm _).recomputeLamps marked k
  have last := (Hushed.calm _).recomputeLamps (Hushed.refl ((s.endCall k).markStation k StationReason.callAnswered)) k
  obtain ⟨v, hv, core⟩ := last.core held
  have kept : ∃ w, (((s.endCall k).markStation k StationReason.callAnswered).recomputeLamps k).station k = some w ∧
      17 ∈ w.mark := State.recomputeLamps_keeps (F := fun w => 17 ∈ w.mark)
    (fun _ kd _ h => by cases kd <;> exact h) (fun _ _ h => h) ⟨_, held, mem_addReason_self _ _⟩ k
  obtain ⟨w, hw, mark⟩ := kept
  rw [hv] at hw
  cases hw
  rw [answered]
  exact ⟨hushed.aroundChange, v, hv, mark, core⟩

end Sys2Proof.Machine

namespace Sys2Proof
open Machine

/-- The Talk keys of O52, in the words of what they leave of the conference. -/
theorem talkKeys {a seq n c : Nat} {s : State} {u : LineUnit} {kind : UnitKind} {id : Source} {x : Conference} {m : Member}
    (keys : s.keys a seq u kind n id) (hc : c ≤ 24) (hx : s.conference c = some x)
    (hm : x.members.find? (fun m => m.id = id) = some m) :
    (m.talk = false ∨ m.absent = true ∨ id ∈ x.talkers →
      exec (.pollAnswered (unitFrame (.poll a) seq kind (keyWords n 0 c 0 1))) s = .next (s.answeredBy a u)) ∧
    (m.talk = true → m.absent = false → id ∉ x.talkers →
      (x.talkers.length < 4 → ∃ t, exec (.pollAnswered (unitFrame (.poll a) seq kind (keyWords n 0 c 0 1))) s = .next t ∧
        (s.answeredBy a u).retalked t c { x with talkers := x.talkers ++ [id] }) ∧
      (4 ≤ x.talkers.length → x.lowestTalker < m.priority → ∀ oldest,
        x.talkers.find? (fun t => x.priorityOf t = x.lowestTalker) = some oldest →
        ∃ t, exec (.pollAnswered (unitFrame (.poll a) seq kind (keyWords n 0 c 0 1))) s = .next t ∧
          (s.answeredBy a u).retalked t c
            { x with talkers := x.talkers.erase oldest ++ [id], mark := addReason 1 x.mark }) ∧
      (4 ≤ x.talkers.length → m.priority ≤ x.lowestTalker →
        exec (.pollAnswered (unitFrame (.poll a) seq kind (keyWords n 0 c 0 1))) s = .next { s.answeredBy a u with
          conferences := s.conferences.put c { x with mark := addReason 2 x.mark } })) ∧
    (id ∈ x.talkers → ∃ t, exec (.pollAnswered (unitFrame (.poll a) seq kind (keyWords n 0 c 0 0))) s = .next t ∧
      (s.answeredBy a u).retalked t c { x with talkers := x.talkers.erase id }) := by
  have held : (s.answeredBy a u).conference c = some x := hx
  have pressed : ∀ t, (s.answeredBy a u).talkPress c id = t →
      exec (.pollAnswered (unitFrame (.poll a) seq kind (keyWords n 0 c 0 1))) s = .next t := fun t ht =>
    keys.talk (press := true) hc hx ht (ht ▸ (Only.broad _).soft.talkPress (Only.refl _) c id)
  refine ⟨fun h => pressed _ (State.talkPress_discarded held hm h), fun ht ha hn => ?_, fun hin => ?_⟩
  · obtain ⟨joins, preempts, busy⟩ := State.talkPress_eq held hm ht ha hn
    refine ⟨fun h => ⟨_, pressed _ (joins h), State.retalked_of held _⟩, fun h hl oldest hf => ?_, fun h hl => ?_⟩
    · refine ⟨_, pressed _ (preempts oldest h hl hf), ?_⟩
      rw [State.modConference_mark]
      exact State.retalked_of held _
    · exact pressed _ ((busy h hl).trans (State.modConference_of held _))
  · have released := State.talkRelease_eq held hin
    refine ⟨_, keys.talk (press := false) hc hx released ?_, State.retalked_of held _⟩
    exact (State.retalked_of held _).beside.only

/-- Settles O52. -/
theorem keyItems : Obligations.KeyItems := by
  intro a seq s u kind hon hp hk hmatrix key noted
  have polls : s.polls a seq u kind := ⟨hon, hp, hk⟩
  refine ⟨fun n c id x m hsrc hc hx hm => ?_, fun port k x hport h48 hk1 hk96 hx => ?_⟩
  · have keys : s.keys a seq u kind n id := ⟨polls, hmatrix, hsrc⟩
    obtain ⟨discards, presses, releases⟩ := talkKeys keys hc hx hm
    refine ⟨discards, fun ht ha hn => ?_, fun hin => ?_⟩
    · obtain ⟨joins, preempts, busy⟩ := presses ht ha hn
      refine ⟨fun h => ?_, fun h hl before oldest after hts hlow hbefore hold => ?_, busy⟩
      · obtain ⟨t, ht, beside, b, hv⟩ := joins h
        exact ⟨t, _, ht, hv, rfl, rfl, beside.others, beside.stations, beside.carriers, beside.only.beside,
          beside.only.storeStates, beside.only.port⟩
      · have first : x.talkers.find? (fun t => x.priorityOf t = x.lowestTalker) = some oldest := by
          rw [List.find?_eq_some_iff_append]
          exact ⟨by simp [hlow], before, after, hts, fun b hb => by simp [hbefore b hb]⟩
        have rest : x.talkers.erase oldest = before ++ after := by
          rw [hts, List.erase_append_right _ hold, List.erase_cons_head]
        obtain ⟨t, ht, beside, b, hv⟩ := preempts h hl oldest first
        rw [rest] at hv
        exact ⟨t, _, ht, hv, rfl, rfl, beside.others, beside.stations, beside.carriers, beside.only.beside,
          beside.only.storeStates, beside.only.port⟩
    · obtain ⟨t, ht, beside, b, hv⟩ := releases hin
      exact ⟨t, _, ht, hv, rfl, rfl, beside.others, beside.stations, beside.carriers, beside.only.beside,
        beside.only.storeStates, beside.only.port⟩
  · intro source
    have keys : s.keys a seq u kind (256 + port) (.port port) := ⟨polls, hmatrix, State.keySource_port hport h48⟩
    have held : (s.answeredBy a u).station k = some x := hx
    refine ⟨fun hcue => ?_, fun hlamp => ?_, fun hpack hcall hpair => ?_⟩
    · obtain ⟨pushes, declines, busies⟩ := State.cueKeyPress_eq held port
      have stands : x.link = .up ∨ x.link = .weak → x.link.parkedOrLost = false := by
        rintro (h | h) <;> rw [h] <;> rfl
      refine ⟨fun hl hs ha => ?_, fun h => ?_, fun e hl hs hne => ?_, fun hlen hheld => ?_⟩
      · have pushed := pressResult_pushed (src := .port port) (level := .floor) (stands hl) (by simp [hs, holdsEntry])
          (.inl ⟨hs, .inr ha⟩)
        obtain ⟨hushed, v, hv, core, stack, accept, route⟩ := State.cuePush_leaves held (.port port) .floor
        rw [hs, ha] at stack
        exact ⟨_, v, keys.cue (press := true) hk96 hx hcue (pushes pushed), hv, core, stack, accept, route, hushed.around k⟩
      · refine keys.cue (press := true) hk96 hx hcue ((declines (pressResult_unheard h _)).trans ?_)
        exact State.modStation_of held _
      · have held' : holdsEntry x.stack (.port port) = false := by simpa [hs, holdsEntry] using hne
        have busy := pressResult_busy (level := .floor) (stands hl) held' (.inr ⟨e, hs, .inl rfl⟩)
        exact keys.cue (press := true) hk96 hx hcue ((busies busy).trans (State.modStation_of held _))
      · obtain ⟨hushed, v, hv, core, after⟩ := State.cueRelease_leaves held hheld
        exact ⟨_, v, keys.cue (press := false) hk96 hx hcue rfl, hv, core, after, hushed.around k⟩
    · obtain ⟨around, v, hv, mark, core⟩ := State.callPress_leaves held hlamp
      refine ⟨_, v, keys.takes (by omega) (by omega) (by omega) (by omega) ((keys.takeKey k (by omega) (by omega)).2.2.1.trans
        ?_) ((Only.broad _).callPress (Only.refl _) k), hv, mark, core, around⟩
      rw [State.takeCall, if_pos (by simp [held, Source.isStation]), polls.item]
      exact if_pos rfl
    · have answers : s.keys a seq u kind k (.station k) := ⟨polls, hmatrix, State.keySource_station hk1 hk96 hx⟩
      obtain ⟨around, v, hv, mark, core⟩ := State.answerPress_leaves held hpack hcall hpair
      refine ⟨_, v, answers.takes (by omega) (by omega) (by omega) (by omega)
        ((answers.takeKey 0 (by omega) (by omega)).2.2.2.trans ?_) ((Only.broad _).answerPress (Only.refl _) k), hv, mark,
        core, around⟩
      rw [State.takeAnswer, polls.item]
      exact if_pos rfl

end Sys2Proof
end

section
/-! Evaluations of windows (R5, R6, R9, R11): what they make of each window, the Closing notices, and what they leave alone. -/

namespace Sys2Proof.Machine

/-! ## What an evaluation makes of a window -/

/-- The new state that an evaluation gives a window, before its notices (R5, R11). -/
def Window.stepped (x : Window) (byOrder : Bool) (c : Clock) : Window :=
  let mark := fun r => if byOrder then x.mark else addReason r x.mark
  match x.state, x.shouldBeOpen c with
  | .closed, true => { x with state := .opened, mark := mark WindowReason.opened }
  | .opened, false => { x with
      state := .closing
      grace := some (x.vacateGrace * 1000)
      mark := mark WindowReason.closing }
  | .closing, true => { x with state := .opened, grace := none, mark := mark WindowReason.reopened }
  | .closed, false | .opened, true | .closing, false => x

/-- A window whose grace has expired (R9, R11). -/
def Window.expired (x : Window) : Window :=
  { x with state := .closed, grace := none, mark := addReason WindowReason.expired x.mark }

/-- The notices of a window that has entered Closing make it expire at once at a vacate grace of 0 (R6). -/
def Window.noticed (x : Window) : Window := if x.grace = some 0 then x.expired else x

/-- An evaluation moves this window to Closing. -/
def Window.enters (x : Window) (c : Clock) : Bool := x.state = .opened && !x.shouldBeOpen c

theorem Window.stepped_of_enters {x : Window} {c : Clock} (h : x.enters c = true) (byOrder : Bool) :
    x.stepped byOrder c = { x with
      state := .closing
      grace := some (x.vacateGrace * 1000)
      mark := if byOrder then x.mark else addReason WindowReason.closing x.mark } := by
  simp only [Window.enters, Bool.and_eq_true, decide_eq_true_eq, Bool.not_eq_true'] at h
  simp only [Window.stepped, h.1, h.2]

theorem Window.evaluated_eq (x : Window) (c : Clock) :
    x.evaluated c = if x.enters c then (x.stepped false c).noticed else x.stepped false c := by
  unfold Window.evaluated Window.stepped Window.enters
  cases hs : x.state <;> cases ho : x.shouldBeOpen c
  case opened.false => by_cases hg : x.vacateGrace = 0 <;> simp [Window.noticed, Window.expired, hg, WindowReason.expired, WindowReason.closing]
  all_goals simp [WindowReason.opened, WindowReason.reopened]

/-! ## Changes of windows -/

/-- Every step of a loop over windows changes its own window alone, so the loop changes each window of the list once. -/
theorem State.forEach_windows {P : State → Prop} {f : State → Nat → State} {g : Window → Window}
    (hf : ∀ t w, P t → P (f t w) ∧ ∀ j, (f t w).window j = if j = w then (t.window j).map g else t.window j)
    {ws : List Nat} (hn : ws.Nodup) {s : State} (h : P s) :
    P (s.forEach ws f) ∧ ∀ j, (s.forEach ws f).window j = if j ∈ ws then (s.window j).map g else s.window j := by
  induction ws generalizing s with
  | nil => exact ⟨h, fun _ => rfl⟩
  | cons w ws ih =>
    obtain ⟨fresh, rest⟩ := List.nodup_cons.1 hn
    obtain ⟨kept, first⟩ := hf s w h
    obtain ⟨held, later⟩ := ih rest kept
    refine ⟨held, fun j => ?_⟩
    rw [show s.forEach (w :: ws) f = (f s w).forEach ws f from rfl, later j, first j]
    by_cases hj : j = w
    · subst hj
      simp [fresh]
    · simp [hj]

/-- Nothing but the windows differs. -/
def State.besideWindows (s t : State) : Prop := t = { s with windows := t.windows }

theorem State.window_markWindow (s : State) (k r j : Nat) : (s.markWindow k r).window j =
    if j = k then (s.window j).map (fun x => { x with mark := addReason r x.mark }) else s.window j :=
  State.window_modWindow s k _ j

/-- One window takes its new state. -/
theorem State.evaluateState_steps {s t : State} (h : s.besideWindows t) (byOrder : Bool) (w : Nat) :
    s.besideWindows (t.evaluateState byOrder w) ∧ ∀ j, (t.evaluateState byOrder w).window j =
      if j = w then (t.window j).map (·.stepped byOrder s.clock) else t.window j := by
  have clock : t.clock = s.clock := by rw [h]
  have changed : ∀ f, s.besideWindows (t.modWindow w f) := fun f => by unfold State.besideWindows at *; rw [h]; rfl
  have marked : ∀ f r, s.besideWindows ((t.modWindow w f).markWindow w r) := fun f r => by
    unfold State.besideWindows at *; rw [h]; rfl
  unfold State.evaluateState
  cases hw : t.window w with
  | none =>
    refine ⟨h, fun j => ?_⟩
    by_cases hj : j = w
    · subst hj; simp [hw]
    · simp [hj]
  | some x =>
    have stays : ∀ {g : Window → Window}, g x = x → ∀ j, t.window j = if j = w then (t.window j).map g else t.window j := by
      intro g hg j
      by_cases hj : j = w
      · subst hj; simp [hw, hg]
      · simp [hj]
    have moves : ∀ {f g : Window → Window}, f x = g x → ∀ j, (t.modWindow w f).window j =
        if j = w then (t.window j).map g else t.window j := by
      intro f g hg j
      rw [State.window_modWindow]
      by_cases hj : j = w
      · subst hj; simp [hw, hg]
      · simp [hj]
    have marks : ∀ {f g : Window → Window} {r : Nat}, ({ f x with mark := addReason r (f x).mark } : Window) = g x →
        ∀ j, ((t.modWindow w f).markWindow w r).window j = if j = w then (t.window j).map g else t.window j := by
      intro f g r hg j
      rw [State.window_markWindow, State.window_modWindow]
      by_cases hj : j = w
      · subst hj; simp [hw, hg]
      · simp [hj]
    dsimp only
    rw [clock]
    cases hst : x.state <;> cases ho : x.shouldBeOpen s.clock <;> dsimp only
    case closed.false | opened.true | closing.false => exact ⟨h, stays (by simp only [Window.stepped, hst, ho])⟩
    all_goals
      cases byOrder
      · exact ⟨marked _ _, marks (by simp only [Window.stepped, hst, ho]; rfl)⟩
      · exact ⟨changed _, moves (by simp only [Window.stepped, hst, ho]; rfl)⟩

/-- Nothing but the windows differs, and what an expiry of a window changes beside it. -/
def Evaluates (s t : State) : Prop := Only { s with windows := t.windows } t

theorem Evaluates.refl (s : State) : Evaluates s s := rfl

theorem Evaluates.trans {s t u : State} (h1 : Evaluates s t) (h2 : Evaluates t u) : Evaluates s u := by
  unfold Evaluates Only at *
  rw [h1] at h2
  exact h2

theorem Evaluates.only {s t : State} (h : Only s t) : Evaluates s t := by
  unfold Evaluates Only at *
  rw [h]

theorem State.besideWindows.evaluates {s t : State} (h : s.besideWindows t) : Evaluates s t := by
  unfold State.besideWindows at h
  unfold Evaluates Only
  rw [h]

theorem Evaluates.modWindow {s t : State} (h : Evaluates s t) (w : Nat) (f : Window → Window) : Evaluates s (t.modWindow w f) := by
  refine h.trans ?_
  unfold Evaluates Only
  rfl

theorem Evaluates.sameMachine {s t : State} (h : Evaluates s t) : s.sameMachine t :=
  State.sameMachine.trans (t := { s with windows := t.windows }) (by constructor <;> rfl) (Only.sameMachine h)

/-- The Expiry notices of a window. -/
theorem State.expiryNotices_only (s : State) (w : Nat) : Only s ((s.parkExpired w).expireCarriers w) :=
  (Only.broad s).expireCarriers ((Only.broad s).parkExpired (Only.refl s) w) w

theorem State.expireWindow_evaluates (s : State) (w : Nat) : Evaluates s (s.expireWindow w) :=
  ((Evaluates.only (s.expiryNotices_only w)).modWindow w _).modWindow w _

theorem State.expireWindow_window (s : State) (w j : Nat) :
    (s.expireWindow w).window j = if j = w then (s.window j).map Window.expired else s.window j := by
  have windows := (s.expiryNotices_only w).windows
  unfold State.expireWindow
  rw [State.window_markWindow, State.window_modWindow]
  simp only [State.window, windows]
  by_cases hj : j = w
  · simp only [hj, if_true, Option.map_map]
    rfl
  · simp only [if_neg hj]

theorem State.closingNotice_only (s : State) (w : Nat) : Only s (s.closingNotice w) :=
  (Only.broad s).closingNotice (Only.refl s) w

/-- A window that has entered Closing is kept, or expires at once. -/
theorem State.windowCloses_spec (s : State) (w : Nat) : Evaluates s (s.windowCloses w) ∧
    ∀ j, (s.windowCloses w).window j = if j = w then (s.window j).map Window.noticed else s.window j := by
  have only := s.closingNotice_only w
  have windows : ∀ j, (s.closingNotice w).window j = s.window j := fun j => by rw [State.window, State.window, only.windows]
  have stays : ∀ {x : Window}, x.grace ≠ some 0 → x.noticed = x := fun h => if_neg h
  unfold State.windowCloses
  dsimp only
  rw [windows w]
  cases hw : s.window w with
  | none =>
    refine ⟨Evaluates.only only, fun j => ?_⟩
    by_cases hj : j = w
    · subst hj; simp [windows, hw]
    · simp [hj, windows]
  | some x =>
    dsimp only
    by_cases hg : x.grace = some 0
    · rw [if_pos hg]
      refine ⟨(Evaluates.only only).trans (State.expireWindow_evaluates _ w), fun j => ?_⟩
      rw [State.expireWindow_window, windows]
      by_cases hj : j = w
      · subst hj; simp [hw, Window.noticed, hg]
      · simp [hj]
    · rw [if_neg hg]
      refine ⟨Evaluates.only only, fun j => ?_⟩
      by_cases hj : j = w
      · subst hj; simp [windows, hw, stays hg]
      · simp [hj, windows]

/-! ## Evaluations -/

/-- The windows that an evaluation moves to Closing. -/
def State.entering (s : State) (ws : List Nat) : List Nat :=
  ws.filter (fun w => (s.window w).any (·.enters s.clock))

/-- The windows have their new states, and no notice has been given. -/
def State.stepped (s : State) (byOrder : Bool) (ws : List Nat) : State := s.forEach ws (State.evaluateState · byOrder ·)

theorem State.evaluate_eq (s : State) (byOrder : Bool) (ws : List Nat) :
    s.evaluate byOrder ws = (s.stepped byOrder ws).forEach (s.entering ws) State.windowCloses := by
  unfold State.evaluate State.stepped State.entering
  dsimp only
  congr 2
  funext w
  cases s.window w <;> rfl

theorem State.stepped_spec (s : State) (byOrder : Bool) {ws : List Nat} (hn : ws.Nodup) :
    s.besideWindows (s.stepped byOrder ws) ∧ ∀ j, (s.stepped byOrder ws).window j =
      if j ∈ ws then (s.window j).map (·.stepped byOrder s.clock) else s.window j :=
  State.forEach_windows (P := s.besideWindows) (fun _ w h => State.evaluateState_steps h byOrder w) hn rfl

theorem State.evaluate_spec (s : State) (byOrder : Bool) {ws : List Nat} (hn : ws.Nodup) :
    Evaluates s (s.evaluate byOrder ws) ∧ ∀ j, (s.evaluate byOrder ws).window j =
      if j ∈ ws then (s.window j).map (fun x =>
        if x.enters s.clock then (x.stepped byOrder s.clock).noticed else x.stepped byOrder s.clock)
      else s.window j := by
  obtain ⟨beside, stepped⟩ := s.stepped_spec byOrder hn
  obtain ⟨kept, closed⟩ := State.forEach_windows (P := Evaluates s) (f := State.windowCloses) (g := Window.noticed)
    (fun t w h => ⟨h.trans (t.windowCloses_spec w).1, (t.windowCloses_spec w).2⟩)
    (ws := s.entering ws) (hn.filter _) beside.evaluates
  rw [State.evaluate_eq]
  refine ⟨kept, fun j => ?_⟩
  rw [closed j, stepped j]
  by_cases hj : j ∈ ws
  · cases hw : s.window j with
    | none => simp [hj]
    | some x => cases he : x.enters s.clock <;> simp [State.entering, hj, hw, he]
  · simp [State.entering, hj]

theorem upTo_nodup (n : Nat) : (upTo n).Nodup := List.nodup_range'

/-- An evaluation of every window. -/
theorem State.evaluateAll_spec (s : State) : Evaluates s s.evaluateAll ∧ s.windowsEvaluated s.evaluateAll s.clock := by
  obtain ⟨beside, windows⟩ := s.evaluate_spec false (upTo_nodup 16)
  refine ⟨beside, fun k h1 h2 => ?_⟩
  rw [State.evaluateAll, windows k, if_pos (mem_upTo.2 ⟨h1, h2⟩)]
  exact congrArg (Option.map · (s.window k)) (funext fun x => (x.evaluated_eq s.clock).symm)

end Sys2Proof.Machine
end

section
/-! The Closing notices (R6, R71): the Vacate switches of the eligible stations, and no other change. -/

namespace Sys2Proof.Machine

/-! ## One station -/

/-- A station begins its Vacate switch to a carrier (R64, R71). -/
@[reducible] def Station.vacating (x : Station) (z : Carrier) : Station :=
  { x with
    switchKind := some .vacate
    blockOutgoing := some false
    token := nextToken x.token
    attempts := 1
    tuneTimer := some 0
    wanted := ⟨some z.frequency, z.cls, x.power, false, nextToken x.token⟩
    link := .switching }

/-- Nothing but the stations and the queue differs. -/
def State.restationed (s t : State) : Prop := t = { s with stations := t.stations, queue := t.queue }

theorem State.restationed.refl (s : State) : s.restationed s := rfl

theorem State.restationed.trans {s t u : State} (h1 : s.restationed t) (h2 : t.restationed u) : s.restationed u := by
  unfold State.restationed at *
  rw [h1] at h2
  exact h2

theorem State.restationed.only {s t : State} (h : s.restationed t) : Only s t := by
  unfold State.restationed at h
  unfold Only
  rw [h]

/-- From Up or Weak a switch starts without a notice. -/
theorem State.startSwitch_eq {s : State} {k c : Nat} {x : Station} {z : Carrier} (hx : s.station k = some x)
    (hs : x.standby = some c) (hz : s.carrier c = some z) (hl : x.link.upOrWeak = true) :
    ∃ b q, s.startSwitch k .vacate false =
      { s with stations := s.stations.put k { x.vacating z with tuneBase := b }, queue := q } := by
  have standby : (s.station k).bind Station.standby = some c := by rw [hx]; exact hs
  have deliverable : x.link.deliverable = Link.switching.deliverable := by
    cases hlink : x.link <;> rw [hlink] at hl <;> first | rfl | cases hl
  have held := State.station_of_mod hx (fun x => { x with switchKind := some .vacate, blockOutgoing := some false })
  obtain ⟨b, q, tuned⟩ := State.tuneTo_eq held (y := z) hz 1 true
  have after : (State.tuneTo (s.modStation k (fun x => { x with switchKind := some .vacate, blockOutgoing := some false }))
      k c 1 true).station k = some { Station.tunedTo { x with switchKind := some .vacate, blockOutgoing := some false } z 1
        (some 0) with tuneBase := b } := by
    rw [tuned]
    exact Table.get_put_self _ _ _
  refine ⟨b, q, ?_⟩
  unfold State.startSwitch
  rw [standby]
  dsimp only
  rw [State.setLink_silent after deliverable rfl, tuned, State.modStation_of hx]
  simp only [Table.put_put]

/-- A Closing notice of a window finds a station eligible (R71). -/
def State.vacatesFrom (s : State) (x : Station) (w : Nat) : Bool :=
  s.primaryIn x w && x.link.upOrWeak && s.usableStandby x && s.standbyWindowOpen x

theorem State.vacatesFrom_congr {s t : State} {x y : Station} (h : s.restationed t) (hc : x.core = y.core) (w : Nat) :
    t.vacatesFrom y w = s.vacatesFrom x w := by
  have primary : x.primary = y.primary := (congrArg Station.primary hc :)
  have standby : x.standby = y.standby := (congrArg Station.standby hc :)
  have link : x.link = y.link := (congrArg Station.link hc :)
  have carrier : t.carrier = s.carrier := by rw [h]; rfl
  have window : t.window = s.window := by rw [h]; rfl
  unfold State.vacatesFrom State.primaryIn State.usableStandby State.standbyWindowOpen
  rw [primary, standby, link, carrier, window]

theorem State.vacatesFrom_link {s : State} {x : Station} {w : Nat} (h : s.vacatesFrom x w = true) : x.link.upOrWeak = true := by
  simp only [State.vacatesFrom, Bool.and_eq_true] at h
  exact h.1.1.2

theorem State.vacatesFrom_standby {s : State} {x : Station} {w : Nat} (h : s.vacatesFrom x w = true) :
    ∃ c z, x.standby = some c ∧ s.carrier c = some z := by
  simp only [State.vacatesFrom, Bool.and_eq_true] at h
  have usable := h.1.2
  unfold State.usableStandby at usable
  cases hs : x.standby with
  | none => simp [hs] at usable
  | some c =>
    cases hz : s.carrier c with
    | none => simp [hs, hz] at usable
    | some z => exact ⟨c, z, rfl, hz⟩

/-- The eligible stations are those of a Closing notice. -/
theorem State.vacatesFrom_iff {s u t : State} (hcar : u.carriers = s.carriers) (hwin : t.windows = u.windows)
    {closing : Nat → Prop} {x : Station} :
    (∃ w, closing w ∧ u.vacatesFrom x w = true) ↔ ∃ c z, s.vacatesTo t closing x c z := by
  have carrier : u.carrier = s.carrier := by unfold State.carrier; rw [hcar]
  have window : t.window = u.window := by unfold State.window; rw [hwin]
  have upOrWeak : x.link.upOrWeak = true ↔ x.link = .up ∨ x.link = .weak := by cases x.link <;> simp [Link.upOrWeak]
  simp only [State.vacatesFrom, Bool.and_eq_true, upOrWeak]
  unfold State.primaryIn State.usableStandby State.standbyWindowOpen
  rw [carrier]
  constructor
  · rintro ⟨w, hw, ⟨⟨primary, link⟩, usable⟩, opened⟩
    cases hp : x.primary with
    | none => simp [hp] at primary
    | some p =>
      cases hy : s.carrier p with
      | none => simp [hp, hy] at primary
      | some y =>
        cases hs : x.standby with
        | none => simp [hs] at usable
        | some c =>
          cases hz : s.carrier c with
          | none => simp [hs, hz] at usable
          | some z =>
            cases hzw : z.window with
            | none => simp [hs, hz, hzw] at opened
            | some v =>
              cases hv : u.window v with
              | none => simp [hs, hz, hzw, hv] at opened
              | some vw =>
                simp [hp, hy] at primary
                simp [hs, hz] at usable
                simp [hs, hz, hzw, hv] at opened
                exact ⟨c, z, ⟨⟨p, y, w, hp, hy, primary, hw⟩, link, hs, hz, usable, v, vw, hzw, by rw [window, hv], opened⟩⟩
  · rintro ⟨c, z, ⟨⟨p, y, w, hp, hy, hyw, hw⟩, link, hs, hz, usable, v, vw, hzw, hv, opened⟩⟩
    rw [window] at hv
    exact ⟨w, hw, by simp [hp, hy, hyw, link, hs, hz, usable, hzw, hv, opened]⟩

/-! ## All stations -/

/-- The stations after the Closing notices of some windows: station k has begun its switch when a notice found it eligible,
and else keeps its core. -/
def State.vacated (s t : State) (closing : Nat → Prop) (k : Nat) : Prop :=
  ∀ x, s.station k = some x →
    ((∃ w, closing w ∧ s.vacatesFrom x w = true) → ∃ c z v, x.standby = some c ∧ s.carrier c = some z ∧
      t.station k = some v ∧ v.core = (x.vacating z).core) ∧
    ((∀ w, closing w → s.vacatesFrom x w = false) → ∃ v, t.station k = some v ∧ v.core = x.core)

/-- The Closing notice of a window to one station (R71). -/
def State.noticeTo (w : Nat) (s : State) (k : Nat) : State :=
  match s.station k with
  | none => s
  | some x => if s.vacatesFrom x w then s.startSwitch k .vacate false else s

theorem State.closingNotice_eq (s : State) (w : Nat) : s.closingNotice w = s.forEach (upTo 96) (State.noticeTo w) := rfl

theorem State.noticeTo_other {s : State} {w k : Nat} (h : ∀ x, s.station k = some x → s.vacatesFrom x w = false) :
    s.noticeTo w k = s := by
  unfold State.noticeTo
  cases hx : s.station k with
  | none => rfl
  | some x => dsimp only; rw [h x hx]; rfl

theorem State.noticeTo_eligible {s : State} {w k : Nat} {x : Station} (hx : s.station k = some x)
    (h : s.vacatesFrom x w = true) : s.noticeTo w k = s.startSwitch k .vacate false := by
  unfold State.noticeTo
  rw [hx]
  dsimp only
  rw [if_pos h]

/-- A notice to one station changes that station and the queue. -/
theorem State.noticeTo_restationed (s : State) (w k : Nat) :
    s.restationed (s.noticeTo w k) ∧ ∀ j, j ≠ k → (s.noticeTo w k).station j = s.station j := by
  by_cases h : ∃ x, s.station k = some x ∧ s.vacatesFrom x w = true
  · obtain ⟨x, hx, h⟩ := h
    obtain ⟨c, z, hs, hz⟩ := State.vacatesFrom_standby h
    obtain ⟨b, q, started⟩ := State.startSwitch_eq hx hs hz (State.vacatesFrom_link h)
    rw [State.noticeTo_eligible hx h, started]
    refine ⟨rfl, fun j hj => ?_⟩
    simp only [State.station, Table.get_put, if_neg hj]
  · have quiet : ∀ x, s.station k = some x → s.vacatesFrom x w = false :=
      fun x hx => Bool.eq_false_iff.2 (fun hv => h ⟨x, hx, hv⟩)
    rw [State.noticeTo_other quiet]
    exact ⟨rfl, fun _ _ => rfl⟩

/-- A notice adds its window to those that station k has been told of. -/
theorem State.vacated.notice {s t : State} {closing : Nat → Prop} {k : Nat} (hr : s.restationed t)
    (h : s.vacated t closing k) (w : Nat) : s.vacated (t.noticeTo w k) (fun j => closing j ∨ j = w) k := by
  intro x hx
  obtain ⟨begun, kept⟩ := h x hx
  by_cases told : ∃ j, closing j ∧ s.vacatesFrom x j = true
  · obtain ⟨c, z, v, hs, hz, hv, core⟩ := begun told
    have switching : v.link = .switching := (congrArg Station.link core :)
    have quiet : t.noticeTo w k = t := State.noticeTo_other (fun y hy => by
      obtain rfl : v = y := Option.some.inj (hv.symm.trans hy)
      simp [State.vacatesFrom, switching, Link.upOrWeak])
    rw [quiet]
    obtain ⟨j, hj, eligible⟩ := told
    refine ⟨fun _ => ⟨c, z, v, hs, hz, hv, core⟩, fun none => ?_⟩
    rw [none j (.inl hj)] at eligible
    cases eligible
  · have untold : ∀ j, closing j → s.vacatesFrom x j = false :=
      fun j hj => Bool.eq_false_iff.2 (fun hv => told ⟨j, hj, hv⟩)
    obtain ⟨v, hv, core⟩ := kept untold
    have same : t.vacatesFrom v w = s.vacatesFrom x w := State.vacatesFrom_congr hr core.symm w
    cases eligible : s.vacatesFrom x w with
    | false =>
      have quiet : t.noticeTo w k = t := State.noticeTo_other (fun y hy => by
        obtain rfl : v = y := Option.some.inj (hv.symm.trans hy)
        rw [same, eligible])
      rw [quiet]
      refine ⟨?_, fun _ => ⟨v, hv, core⟩⟩
      rintro ⟨j, hj | rfl, found⟩
      · exact absurd ⟨j, hj, found⟩ told
      · rw [eligible] at found; cases found
    | true =>
      rw [eligible] at same
      obtain ⟨c, z, hs, hz⟩ := State.vacatesFrom_standby eligible
      have standby : v.standby = some c := (congrArg Station.standby core :).trans hs
      have power : v.power = x.power := (congrArg Station.power core :)
      have token : v.token = x.token := (congrArg Station.token core :)
      have carrier : t.carrier c = some z := by rw [hr]; exact hz
      obtain ⟨b, q, started⟩ := State.startSwitch_eq hv standby carrier (State.vacatesFrom_link same)
      have after : (t.noticeTo w k).station k = some { v.vacating z with tuneBase := b } := by
        rw [State.noticeTo_eligible hv same, started]
        exact Table.get_put_self _ _ _
      refine ⟨fun _ => ⟨c, z, _, hs, hz, after, ?_⟩, fun none => ?_⟩
      · simp only [Station.core, Station.mk.injEq] at core ⊢
        simp [core]
      · rw [none w (.inr rfl)] at eligible
        cases eligible

theorem State.vacated.other {s t u : State} {closing : Nat → Prop} {k : Nat} (h : s.vacated t closing k)
    (hk : u.station k = t.station k) : s.vacated u closing k := by
  unfold State.vacated
  rw [hk]
  exact h

theorem State.vacated.congr {s t : State} {c d : Nat → Prop} {k : Nat} (h : s.vacated t c k) (hcd : ∀ j, c j ↔ d j) :
    s.vacated t d k := by
  rwa [show d = c from funext fun j => propext (hcd j).symm]

/-- The notice of a window to some stations tells those, and no others. -/
theorem State.forEach_noticeTo {s : State} {closing : Nat → Prop} (w : Nat) {ks : List Nat} (hn : ks.Nodup) {t : State}
    (hr : s.restationed t) : s.restationed (t.forEach ks (State.noticeTo w)) ∧
      ∀ k, s.vacated t closing k → s.vacated (t.forEach ks (State.noticeTo w)) (fun j => closing j ∨ (j = w ∧ k ∈ ks)) k := by
  induction ks generalizing t closing with
  | nil => exact ⟨hr, fun k h => h.congr (fun j => by simp)⟩
  | cons a ks ih =>
    obtain ⟨fresh, rest⟩ := List.nodup_cons.1 hn
    obtain ⟨step, others⟩ := t.noticeTo_restationed w a
    have ready := hr.trans step
    refine ⟨(ih (closing := closing) rest ready).1, fun k h => ?_⟩
    by_cases hk : k = a
    · subst hk
      exact ((ih rest ready).2 k (h.notice hr w)).congr (fun j => by simp [fresh])
    · exact ((ih rest ready).2 k (h.other (others k hk))).congr (fun j => by simp [hk])

theorem State.forEach_cons {α : Type} (s : State) (a : α) (as : List α) (f : State → α → State) :
    s.forEach (a :: as) f = (f s a).forEach as f := rfl

/-- The notices of some windows. -/
theorem State.forEach_closingNotice {s : State} (ws : List Nat) {closing : Nat → Prop} {t : State} (hr : s.restationed t)
    (h : ∀ k, 1 ≤ k → k ≤ 96 → s.vacated t closing k) : s.restationed (t.forEach ws State.closingNotice) ∧
      ∀ k, 1 ≤ k → k ≤ 96 → s.vacated (t.forEach ws State.closingNotice) (fun j => closing j ∨ j ∈ ws) k := by
  induction ws generalizing t closing with
  | nil => exact ⟨hr, fun k h1 h2 => (h k h1 h2).congr (fun j => by simp)⟩
  | cons w ws ih =>
    obtain ⟨ready, told⟩ := State.forEach_noticeTo (s := s) (closing := closing) w (upTo_nodup 96) hr
    have first : ∀ k, 1 ≤ k → k ≤ 96 → s.vacated (t.closingNotice w) (fun j => closing j ∨ j = w) k := fun k h1 h2 =>
      (told k (h k h1 h2)).congr (fun j => or_congr_right (and_iff_left (mem_upTo.2 ⟨h1, h2⟩)))
    obtain ⟨held, all⟩ := ih ready first
    rw [State.forEach_cons]
    exact ⟨held, fun k h1 h2 => (all k h1 h2).congr (fun j => by simp [or_assoc])⟩

/-- The Closing notices of an evaluation by which no window expires at once. -/
theorem State.closingNotices {s u : State} (ws : List Nat) (hcar : u.carriers = s.carriers)
    (hconf : u.conferences = s.conferences) (hst : u.stations = s.stations) :
    let t := u.forEach ws State.closingNotice
    u.restationed t ∧ t.carriers = s.carriers ∧ t.conferences = s.conferences ∧ s.closingNoticed t (· ∈ ws) := by
  obtain ⟨held, told⟩ := State.forEach_closingNotice (s := u) (closing := fun _ => False) ws (State.restationed.refl u)
    (fun k _ _ x hx => ⟨nofun, fun _ => ⟨x, hx, rfl⟩⟩)
  dsimp only
  generalize u.forEach ws State.closingNotice = t at held told
  have carriers : t.carriers = u.carriers := by rw [held]
  have conferences : t.conferences = u.conferences := by rw [held]
  have windows : t.windows = u.windows := by rw [held]
  refine ⟨held, carriers.trans hcar, conferences.trans hconf, fun k x h1 h2 hx => ?_⟩
  have found : u.station k = some x := by rw [State.station, hst]; exact hx
  obtain ⟨begun, kept⟩ := (told k h1 h2).congr (d := (· ∈ ws)) (fun j => by simp) x found
  have eligible := State.vacatesFrom_iff hcar windows (closing := (· ∈ ws)) (x := x)
  refine ⟨fun c z hv => ?_, fun none => kept (fun w hw => Bool.eq_false_iff.2 fun hv => ?_)⟩
  · obtain ⟨c', z', v, hs, hz, after, core⟩ := begun (eligible.2 ⟨c, z, hv⟩)
    obtain rfl : c = c' := Option.some.inj (hv.standby.symm.trans hs)
    have carrier : s.carrier c = some z' := by rw [State.carrier, ← hcar]; exact hz
    obtain rfl : z = z' := Option.some.inj (hv.carrier.symm.trans carrier)
    exact ⟨v, after, core⟩
  · obtain ⟨c, z, hv⟩ := eligible.1 ⟨w, hw, hv⟩
    exact none c z hv

end Sys2Proof.Machine
end

section
/-! EDIT WINDOW and SET CLOCK (R3, R14, R15): an evaluation that their words or their clock causes. -/

namespace Sys2Proof.Machine

/-- The windows of a list have no grace of 0, so their notices make none expire. -/
theorem State.forEach_windowCloses {ws : List Nat} {s : State} (h : ∀ w ∈ ws, ∀ x, s.window w = some x → x.grace ≠ some 0) :
    s.forEach ws State.windowCloses = s.forEach ws State.closingNotice := by
  induction ws generalizing s with
  | nil => simp only [State.forEach, List.foldl_nil]
  | cons w ws ih =>
    have windows : (s.closingNotice w).window = s.window := by
      unfold State.window
      rw [(s.closingNotice_only w).windows]
    have first : s.windowCloses w = s.closingNotice w := by
      unfold State.windowCloses
      dsimp only
      rw [windows]
      cases hw : s.window w with
      | none => rfl
      | some x => exact if_neg (h w List.mem_cons_self x hw)
    rw [State.forEach_cons, State.forEach_cons, first]
    exact ih (fun v hv x hx => h v (List.mem_cons_of_mem w hv) x (by rwa [windows] at hx))

/-- An evaluation by which no window expires at once gives its Closing notices, and leaves carriers and conferences
alone. -/
theorem State.evaluate_notices (s : State) (byOrder : Bool) {ws : List Nat} (hn : ws.Nodup)
    (h : ∀ k ∈ ws, ∀ x, s.window k = some x → x.enters s.clock = true → x.vacateGrace ≠ 0) :
    (s.evaluate byOrder ws).carriers = s.carriers ∧ (s.evaluate byOrder ws).conferences = s.conferences ∧
      s.closingNoticed (s.evaluate byOrder ws) (· ∈ s.entering ws) := by
  obtain ⟨beside, windows⟩ := s.stepped_spec byOrder hn
  have graces : ∀ w ∈ s.entering ws, ∀ x, (s.stepped byOrder ws).window w = some x → x.grace ≠ some 0 := by
    intro w hw x hx
    obtain ⟨listed, enters⟩ := List.mem_filter.1 hw
    rw [windows w, if_pos listed] at hx
    cases hv : s.window w with
    | none => simp [hv] at hx
    | some v =>
      have entering : v.enters s.clock = true := by simpa [hv] using enters
      have grace := h w listed v hv entering
      simp only [hv, Option.map_some, Option.some.injEq, Window.stepped_of_enters entering] at hx
      subst hx
      simpa using grace
  rw [State.evaluate_eq, State.forEach_windowCloses graces]
  exact (State.closingNotices (s := s) (s.entering ws) (by rw [beside]) (by rw [beside]) (by rw [beside])).2

/-- The windows that an evaluation of all moves to Closing. -/
theorem State.mem_entering_all (s : State) (k : Nat) : k ∈ s.entering (upTo 16) ↔ 1 ≤ k ∧ k ≤ 16 ∧
    ∃ w, s.window k = some w ∧ w.state = .opened ∧ w.shouldBeOpen s.clock = false := by
  simp [State.entering, mem_upTo, Option.any_eq_true, Window.enters, and_assoc]

/-- The notices of an evaluation of every window. -/
theorem State.evaluateAll_notices (s : State) : s.noticesGiven s.evaluateAll s.clock := by
  intro h
  have noticed := s.evaluate_notices false (upTo_nodup 16) (fun k hk x hx enters => by
    obtain ⟨h1, h2⟩ := mem_upTo.1 hk
    simp only [Window.enters, Bool.and_eq_true, decide_eq_true_eq, Bool.not_eq_true'] at enters
    exact h k x h1 h2 hx enters.1 enters.2)
  rwa [show (· ∈ s.entering (upTo 16)) = _ from funext fun k => propext (s.mem_entering_all k)] at noticed

/-- What the Closing notices say is said of the stations, the carriers and the windows. -/
theorem State.closingNoticed.congr {s t s' t' : State} {closing : Nat → Prop} (h : s.closingNoticed t closing)
    (stations : s'.stations = s.stations) (carriers : s'.carriers = s.carriers) (stations' : t'.stations = t.stations)
    (windows' : t'.windows = t.windows) : s'.closingNoticed t' closing := by
  have station : s'.station = s.station := by unfold State.station; rw [stations]
  have carrier : s'.carrier = s.carrier := by unfold State.carrier; rw [carriers]
  have station' : t'.station = t.station := by unfold State.station; rw [stations']
  have window' : t'.window = t.window := by unfold State.window; rw [windows']
  intro k x h1 h2 hx
  rw [station] at hx
  obtain ⟨begun, kept⟩ := h k x h1 h2 hx
  rw [station']
  refine ⟨fun c z ⟨primary, link, standby, carried, state, window⟩ => begun c z ?_, fun none => kept fun c z hv => ?_⟩
  · rw [carrier] at primary carried
    rw [window'] at window
    exact ⟨primary, link, standby, carried, state, window⟩
  · obtain ⟨primary, link, standby, carried, state, window⟩ := hv
    refine none c z ⟨?_, link, standby, ?_, state, ?_⟩
    · rwa [carrier]
    · rwa [carrier]
    · rwa [window']

theorem State.noticesGiven.congr {s t s' t' : State} {c : Clock} (h : s.noticesGiven t c) (windows : s'.windows = s.windows)
    (stations : s'.stations = s.stations) (carriers : s'.carriers = s.carriers) (conferences : s'.conferences = s.conferences)
    (hst : t'.stations = t.stations) (hwin : t'.windows = t.windows) (hcar : t'.carriers = t.carriers)
    (hconf : t'.conferences = t.conferences) : s'.noticesGiven t' c := by
  have window : s'.window = s.window := by unfold State.window; rw [windows]
  intro none
  rw [window] at none ⊢
  obtain ⟨kept, same, noticed⟩ := h none
  exact ⟨by rw [hcar, kept, carriers], by rw [hconf, same, conferences], noticed.congr stations carriers hst hwin⟩

/-- An evaluation of every window after the clock has been set to c has made u. -/
structure State.evaluatedAt (s u : State) (c : Clock) : Prop where
  clock : u.clock = c
  windows : s.windowsEvaluated u c
  notices : s.noticesGiven u c
  galleries : u.galleries = s.galleries
  settings : u.settings = s.settings
  checkQueue : u.checkQueue = s.checkQueue
  engine : u.engine = s.engine
  storeStates : u.storeStates = s.storeStates
  port : u.port = s.port
  machine : ({ s with clock := c } : State).sameMachine u

theorem State.evaluateAll_at (s : State) (c : Clock) : s.evaluatedAt (State.evaluateAll { s with clock := c }) c := by
  obtain ⟨beside, windows⟩ := State.evaluateAll_spec { s with clock := c }
  have notices := State.evaluateAll_notices { s with clock := c }
  generalize State.evaluateAll { s with clock := c } = u at *
  have clock : u.clock = c := beside.sameMachine.clock
  exact ⟨clock, windows, notices.congr rfl rfl rfl rfl rfl rfl rfl rfl, by rw [beside], by rw [beside], by rw [beside], by rw [beside],
    by rw [beside], by rw [beside], beside.sameMachine⟩

/-- An answer, and the bytes of the order before it, leave an evaluation as it is. -/
theorem State.evaluatedAt.answer {s u : State} {c : Clock} {o : Order} (h : (s.begun o).evaluatedAt u c) (r : Reply) :
    (u.answer r).clock = c ∧ s.windowsEvaluated (u.answer r) c ∧ s.noticesGiven (u.answer r) c ∧
      (u.answer r).galleries = s.galleries ∧ (u.answer r).settings = s.settings ∧
      (u.answer r).checkQueue = s.checkQueue ∧ (u.answer r).engine = s.engine ∧
      (u.answer r).storeStates = s.storeStates ∧ ({ s with clock := c } : State).sameMachine (u.answer r) :=
  ⟨h.clock, h.windows, h.notices.congr rfl rfl rfl rfl rfl rfl rfl rfl, h.galleries, h.settings, h.checkQueue, h.engine, h.storeStates,
    State.sameMachine.trans (t := { s.begun o with clock := c }) (by constructor <;> rfl) (h.machine.answer r)⟩

end Sys2Proof.Machine

namespace Sys2Proof
open Machine

/-- Settles O17. -/
theorem setClockEvaluates : Obligations.SetClockEvaluates := by
  intro o s y m d hour minute second ht hright hfreeze _ hp hc
  have tests : firstFailing [s.lacks o .plan 1, s.freezeHold o, failIf (clockBad o.params) .range 2] = none :=
    passes_cons (State.lacks_fst hright 1) (passes_cons (State.freezeHold_fst hfreeze) (passes_cons hc firstFailing_nil))
  have loads : clockOfWords o.params = ({
      unset := false, year := y.toNat, month := m.toNat, day := d.toNat
      second := hour.toNat * 3600 + minute.toNat * 60 + second.toNat, phase := 0 } : Clock) := by rw [hp]; rfl
  have taken := State.takeOrder_takes ht (o := o) (by simp [hp]) (c := o.params.length = 6) (by simp [hp]) tests
    (a := Activity.order .part 16) (reads := s.orderReads o s.windowNames)
    (f := fun t => (State.evaluateAll { t with clock := clockOfWords o.params }, doneReply o)) rfl rfl
  have evaluated := (s.begun o).evaluateAll_at (clockOfWords o.params)
  generalize State.evaluateAll { s.begun o with clock := clockOfWords o.params } = u at taken evaluated
  obtain ⟨clock, windows, notices, galleries, settings, checkQueue, engine, storeStates, machine⟩ :=
    evaluated.answer (doneReply o)
  rw [← clock] at windows notices machine
  exact ⟨u.answer (doneReply o), congrArg Host.Outcome.next taken, clock.trans loads, windows, notices, galleries, settings,
    checkQueue, engine, storeStates, machine, rfl⟩

end Sys2Proof
end

section
/-! EDIT WINDOW (R14, R15), and the advance of the Show Clock with its calendar (R1 to R3). -/

namespace Sys2Proof.Machine

/-! ## The window of an order -/

/-- The window of an order that closes: it expires at once at a vacate grace of 0, and earns no reason for the closing. -/
theorem State.evaluate_closes (s : State) (k : Nat) {w : Window} (hs : w.state = .opened)
    (ho : w.shouldBeOpen s.clock = false) :
    Evaluates (s.putWindow k w) ((s.putWindow k w).evaluate true [k]) ∧
      ((s.putWindow k w).evaluate true [k]).window k = some (
        if w.vacateGrace = 0 then { w with state := .closed, grace := none, mark := addReason 4 w.mark }
        else { w with state := .closing, grace := some (w.vacateGrace * 1000) }) ∧
      ∀ j, j ≠ k → ((s.putWindow k w).evaluate true [k]).window j = s.window j := by
  obtain ⟨beside, windows⟩ := (s.putWindow k w).evaluate_spec true (List.nodup_singleton k)
  have enters : w.enters s.clock = true := by simp [Window.enters, hs, ho]
  refine ⟨beside, ?_, fun j hj => ?_⟩
  · rw [windows k, if_pos (List.mem_singleton_self k), State.putWindow_window, State.putWindow_clock, Option.map_some,
      if_pos enters, Window.stepped_of_enters enters]
    by_cases hg : w.vacateGrace = 0 <;> simp [Window.noticed, Window.expired, WindowReason.expired, hg]
  · rw [windows j, if_neg (by simpa using hj)]
    simp only [State.window, State.putWindow, Table.get_put, if_neg hj]

/-- With a vacate grace its Closing notice goes out, and carriers and conferences stand. -/
theorem State.evaluate_closes_notices (s : State) (k : Nat) {w : Window} (hs : w.state = .opened)
    (ho : w.shouldBeOpen s.clock = false) (hg : w.vacateGrace ≠ 0) :
    ((s.putWindow k w).evaluate true [k]).carriers = s.carriers ∧
      ((s.putWindow k w).evaluate true [k]).conferences = s.conferences ∧
      (s.putWindow k w).closingNoticed ((s.putWindow k w).evaluate true [k]) (fun j => j = k) := by
  have noticed := (s.putWindow k w).evaluate_notices true (List.nodup_singleton k) (fun j hj x hx _ => by
    obtain rfl := List.mem_singleton.1 hj
    rw [State.putWindow_window] at hx
    exact Option.some.inj hx ▸ hg)
  have entering : (s.putWindow k w).entering [k] = [k] := by
    simp [State.entering, Window.enters, hs, ho]
  simp only [entering, List.mem_singleton] at noticed
  exact noticed

/-- u is s after an order's window k has become w and has closed. -/
structure State.closedBy (s u : State) (k : Nat) (w : Window) : Prop where
  window : u.window k = some (
    if w.vacateGrace = 0 then { w with state := .closed, grace := none, mark := addReason 4 w.mark }
    else { w with state := .closing, grace := some (w.vacateGrace * 1000) })
  others : ∀ j, j ≠ k → u.window j = s.window j
  galleries : u.galleries = s.galleries
  settings : u.settings = s.settings
  checkQueue : u.checkQueue = s.checkQueue
  engine : u.engine = s.engine
  storeStates : u.storeStates = s.storeStates
  notices : w.vacateGrace ≠ 0 → u.carriers = s.carriers ∧ u.conferences = s.conferences ∧
    s.closingNoticed u (fun j => j = k)

theorem State.evaluate_closedBy (s : State) (k : Nat) {w : Window} (hs : w.state = .opened)
    (ho : w.shouldBeOpen s.clock = false) : s.closedBy ((s.putWindow k w).evaluate true [k]) k w := by
  obtain ⟨beside, window, others⟩ := s.evaluate_closes k hs ho
  have notices := s.evaluate_closes_notices k hs ho
  generalize (s.putWindow k w).evaluate true [k] = u at *
  refine ⟨window, others, by rw [beside]; rfl, by rw [beside]; rfl, by rw [beside]; rfl, by rw [beside]; rfl,
    by rw [beside]; rfl, fun hg => ?_⟩
  obtain ⟨carriers, conferences, noticed⟩ := notices hg
  exact ⟨carriers, conferences, noticed.congr rfl rfl rfl rfl⟩

/-- The answer leaves the closing as it is. -/
theorem State.closedBy.answer {s u : State} {k : Nat} {w : Window} (h : s.closedBy u k w) (r : Reply) :
    s.closedBy (u.answer r) k w where
  window := h.window
  others := h.others
  galleries := h.galleries
  settings := h.settings
  checkQueue := h.checkQueue
  engine := h.engine
  storeStates := h.storeStates
  notices hg := by
    obtain ⟨carriers, conferences, noticed⟩ := h.notices hg
    exact ⟨carriers, conferences, noticed.congr rfl rfl rfl rfl⟩

/-- The closing of an EDIT WINDOW's window, seen from the state before the order. -/
theorem State.closedBy.edited {s u : State} {o : Order} {k : Nat} {w : Window}
    (h : (s.begun o).windowChanged.closedBy u k w) :
    ({ s with storeStates := { s.storeStates with window := true } } : State).closedBy u k w where
  window := h.window
  others := h.others
  galleries := h.galleries
  settings := h.settings
  checkQueue := h.checkQueue
  engine := h.engine
  storeStates := h.storeStates
  notices hg := by
    obtain ⟨carriers, conferences, noticed⟩ := h.notices hg
    exact ⟨carriers, conferences, noticed.congr rfl rfl rfl rfl⟩

theorem State.evaluate_closed_machine (s : State) (k : Nat) (w : Window) :
    s.sameMachine ((s.putWindow k w).evaluate true [k]) :=
  State.sameMachine.trans (t := s.putWindow k w) (by constructor <;> rfl)
    ((s.putWindow k w).evaluate_spec true (List.nodup_singleton k)).1.sameMachine

/-- The tests of an EDIT WINDOW that is accepted (R14, R15). -/
theorem State.editWindow_tests {s : State} {o : Order} {old : Window} {ws : List Word} (hright : s.holdsRight o .plan)
    (hplan : s.planFree o) (hw : s.window (keyOf o) = some old) (hclaim : claimFree o old.claim)
    (hf : badField (fieldIndex 19) (pairsOf o.params) = false) (hr : windowRangeBad ws = false) (hl : labelBad ws = false)
    (he : edgesBad ws = false)
    (edges : ((old.withWords ws).lowEdge = old.lowEdge ∧ (old.withWords ws).highEdge = old.highEdge) ∨
      s.committedIn (keyOf o) = [])
    (classes : ∀ y ∈ s.committedIn (keyOf o), classAllowed old.classes y.cls = true →
      classAllowed (old.withWords ws).classes y.cls = true) :
    firstFailing ([s.lacks o .plan 1, failIf (s.window (keyOf o)).isNone .key 1, claimHold o old.claim, s.freezeHold o,
        s.saveHold] ++ windowRange (pairsOf o.params) ws ++
      [failIf (((old.withWords ws).lowEdge != old.lowEdge || (old.withWords ws).highEdge != old.highEdge) &&
          !(s.committedIn (keyOf o)).isEmpty) .state 1,
        failIf ((s.committedIn (keyOf o)).any (fun y =>
          classAllowed old.classes y.cls && !classAllowed (old.withWords ws).classes y.cls)) .state 2]) = none := by
  have moved : (((old.withWords ws).lowEdge != old.lowEdge || (old.withWords ws).highEdge != old.highEdge) &&
      !(s.committedIn (keyOf o)).isEmpty) = false := by
    rcases edges with ⟨low, high⟩ | h
    · simp [low, high]
    · simp [h]
  have barred : (s.committedIn (keyOf o)).any (fun y =>
      classAllowed old.classes y.cls && !classAllowed (old.withWords ws).classes y.cls) = false := by
    rw [List.any_eq_false]
    intro y hy
    cases hold : classAllowed old.classes y.cls with
    | false => simp
    | true => simp [classes y hy hold]
  refine passes_append (passes_append ?_ (passes_windowRange hf hr hl he))
    (passes_cons moved (passes_cons barred firstFailing_nil))
  exact passes_cons (State.lacks_fst hright 1) (passes_cons (by simp [hw]) (passes_cons (claimHold_fst hclaim)
    (State.passes_holds hplan)))

theorem State.sameMachine_windowChanged (s : State) (o : Order) : s.sameMachine (s.begun o).windowChanged := by
  obtain ⟨_, _, _, _, _, begun⟩ := s.besideStations_begun o
  exact begun.trans (by constructor <;> rfl)

/-- EDIT WINDOW, accepted: its window is put, and evaluated without a mark. -/
theorem exec_editWindow {s : State} {o : Order} {old : Window} (ha : s.admits o .plan) (hw : s.window (keyOf o) = some old)
    (hclaim : claimFree o old.claim) (hc : evenCount 2 16 o.params = true) {ws : List Word}
    (hws : applyPairs (fieldIndex 19) (windowWords old) (pairsOf o.params) = ws)
    (hf : badField (fieldIndex 19) (pairsOf o.params) = false) (hr : windowRangeBad ws = false) (hl : labelBad ws = false)
    (he : edgesBad ws = false)
    (edges : ((old.withWords ws).lowEdge = old.lowEdge ∧ (old.withWords ws).highEdge = old.highEdge) ∨
      s.committedIn (keyOf o) = [])
    (classes : ∀ y ∈ s.committedIn (keyOf o), classAllowed old.classes y.cls = true →
      classAllowed (old.withWords ws).classes y.cls = true) :
    exec (.editWindow o) s = .next (((((s.begun o).windowChanged).putWindow (keyOf o) (old.withWords ws)).evaluate true
      [keyOf o]).answer (adjustedReply o (fieldNat ws 18 % 5 != 0) 1)) := by
  obtain ⟨ht, hright, hplan⟩ := ha
  have tests := State.editWindow_tests hright hplan hw hclaim hf hr hl he edges classes
  have reply : adjustedReply o (graceRounded ws) 1 = adjustedReply o (fieldNat ws 18 % 5 != 0) 1 := by
    rw [graceRounded, legalGrace_ne]
  refine congrArg Host.Outcome.next ?_
  unfold State.editWindow
  simp only [hw, Option.getD_some, hws] at tests ⊢
  exact State.takeOrder_takes ht (evenCount_le hc) hc tests rfl reply

end Sys2Proof.Machine

namespace Sys2Proof
open Machine

/-- Settles O14. -/
theorem editWindow : Obligations.EditWindow := by
  intro o s old k words new adjusted ha hw hclaim hc hf hr hl he edges classes
  have state : new.state = old.state := rfl
  have taken : exec (.editWindow o) s =
      .next (((((s.begun o).windowChanged).putWindow k new).evaluate true [k]).answer (adjustedReply o adjusted 1)) :=
    exec_editWindow ha hw hclaim hc rfl hf hr hl he edges classes
  rw [taken]
  refine ⟨fun hopen => ?_, fun ⟨hopened, hshut⟩ => ?_⟩
  · have evaluated := State.evaluate_ordered (s.begun o).windowChanged k (w := new) (by rwa [state])
    rw [evaluated, State.putWindow_answer]
    rfl
  · have closes := State.evaluate_closedBy (s.begun o).windowChanged k (state.trans hopened) hshut
    have machine := State.evaluate_closed_machine (s.begun o).windowChanged k new
    generalize (((s.begun o).windowChanged).putWindow k new).evaluate true [k] = u at closes machine
    have same : s.sameMachine u := (s.sameMachine_windowChanged o).trans machine
    obtain ⟨window, others, galleries, settings, checkQueue, engine, storeStates, notices⟩ :=
      closes.edited.answer (adjustedReply o adjusted 1)
    refine ⟨_, rfl, window, others, galleries, settings, checkQueue, engine, storeStates, same.answer _, fun hg => ?_, ?_⟩
    · obtain ⟨carriers, conferences, noticed⟩ := notices hg
      exact ⟨carriers, conferences, noticed.congr rfl rfl rfl rfl⟩
    · rw [adjustedReply_eq]
      rfl

end Sys2Proof
end

section
/-! The advance of the Show Clock (R1 to R3) and its calendar. -/

namespace Sys2Proof.Machine

/-! ## The calendar -/

theorem daysBeforeMonth_succ (y : Nat) {m : Nat} (h : 1 ≤ m) :
    daysBeforeMonth y (m + 1) = daysBeforeMonth y m + monthLength y m := by
  obtain ⟨n, rfl⟩ : ∃ n, m = n + 1 := ⟨m - 1, by omega⟩
  simp only [daysBeforeMonth, upTo, Nat.add_sub_cancel, List.range'_1_concat, List.foldl_append, List.foldl_cons,
    List.foldl_nil, Nat.add_comm 1 n]

/-- A year has 366 days when four divides it, else 365. -/
theorem daysBeforeMonth_year (y : Nat) :
    daysBeforeMonth y 12 + monthLength y 12 = if y % 4 = 0 then 366 else 365 := by
  by_cases h : y % 4 = 0 <;> simp [daysBeforeMonth, upTo, List.range'_succ, monthLength, leapYear, h]

/-- The day after has the next date number, but for the day after 2099-12-31. -/
theorem Clock.nextDay_date {c : Clock} (hy : 2000 ≤ c.year) (hy' : c.year ≤ 2099) (hm : 1 ≤ c.month) (hm' : c.month ≤ 12)
    (hd : 1 ≤ c.day) (hd' : c.day ≤ monthLength c.year c.month) (hn : (c.year, c.month, c.day) ≠ (2099, 12, 31)) :
    c.nextDay.date = c.date + 1 := by
  unfold Clock.nextDay Clock.date dateNumber
  by_cases day : c.day < monthLength c.year c.month
  · rw [if_pos day]
    dsimp only
    omega
  · have last : c.day = monthLength c.year c.month := by omega
    rw [if_neg day]
    by_cases month : c.month < 12
    · rw [if_pos month]
      dsimp only
      rw [daysBeforeMonth_succ _ hm]
      omega
    · have december : c.month = 12 := by omega
      have year : c.year < 2099 := by
        by_contra hge
        have y : c.year = 2099 := by omega
        exact hn (by rw [y, december, last, y, december]; rfl)
      have length := daysBeforeMonth_year c.year
      have first : daysBeforeMonth (c.year + 1) 1 = 0 := rfl
      have thirtyOne : monthLength c.year 12 = 31 := rfl
      rw [if_neg month, if_pos year]
      dsimp only
      rw [first, december, last, december]
      split at length <;> omega

/-! ## The damaged Part record -/

/-- A damaged Part record, read by a timer, halts the part (R180, R183). -/
theorem State.readingPart_damaged {s : State} (hb : s.badCodes = [⟨.part, 0⟩]) (hs : s.service ≠ .halted)
    (effect : State → State) : s.readingPart Activity.timer effect = s.halt ⟨.part, 0⟩ Activity.timer := by
  have free : s.quarantined ≠ some ⟨.part, 0⟩ := by
    unfold State.quarantined
    split
    · rename_i x _ _
      by_cases hx : x.record.table = .part
      · simp [hx]
      · split
        · intro h
          exact hx (congrArg RecordId.table (Option.some.inj h))
        · exact nofun
    · exact nofun
  have found : s.firstBad (fun r => r = ⟨.part, 0⟩) = some ⟨.part, 0⟩ := by
    simp [State.firstBad, if_neg hs, hb, State.holdsRecord, free]
  unfold State.readingPart State.reading
  rw [found]
  rfl

theorem State.halt_spec {s : State} (r : RecordId) (a : Nat) (hs : s.service ≠ .halted) :
    (s.halt r a).service = .halted ∧ (s.halt r a).clock = s.clock ∧ (s.halt r a).line = none ∧
      (s.halt r a).latched = { s.latched with fault := true, store := s.latched.store || s.saving } ∧
      (s.service ≠ .faultHandling → (s.halt r a).snapshot = some ⟨r, a⟩) ∧
      (s.service = .faultHandling → (s.halt r a).snapshot = s.snapshot) := by
  have snapshot : (s.service ≠ .faultHandling → s.haltSnapshot ⟨r, a⟩ = some ⟨r, a⟩) ∧
      (s.service = .faultHandling → s.haltSnapshot ⟨r, a⟩ = s.snapshot) := by
    unfold State.haltSnapshot
    cases hv : s.service <;> simp_all
  unfold State.halt State.answerBroken State.abandonSave
  cases hsave : s.saving <;> cases hp : s.port <;>
    simpa [State.latchFault, State.saveLost, State.saveOver, State.latchStore, hp] using snapshot

/-! ## The advance -/

theorem State.clockAdvances_set {s : State} (h : s.clock.unset = false) : s.clockAdvances =
    State.readingPart { s with clock := s.clock.advance } Activity.timer (fun t =>
      if t.clock.minuteChange && t.service = .inService && !t.tablesDown then
        t.acting Activity.timer (fun r => t.near t.windowNames r) State.evaluateAll
      else t) := by
  unfold State.clockAdvances
  rw [h]
  rfl

theorem Clock.advance_set {c : Clock} (h : c.unset = false) : c.advance =
    if c.second < 86399 then { c with second := c.second + 1, phase := 0 }
    else { c.nextDay with second := 0, phase := 0 } := by
  unfold Clock.advance
  rw [h]
  rfl

theorem Clock.advance_unset {c : Clock} (h : c.unset = false) : c.advance.unset = false := by
  rw [Clock.advance_set h]
  unfold Clock.nextDay
  split
  · exact h
  · split
    · exact h
    · split <;> exact h

/-- Without a minute change in In Service the clock alone advances. -/
theorem State.clockAdvances_alone {s : State} (h : s.clock.unset = false)
    (hq : s.clock.advance.second % 60 ≠ 0 ∨ s.service ≠ .inService) (hp : ⟨.part, 0⟩ ∉ s.badCodes ∨ s.service = .halted) :
    s.clockAdvances = { s with clock := s.clock.advance } := by
  have sound : State.firstBad { s with clock := s.clock.advance } (fun r => r = ⟨.part, 0⟩) = none := by
    unfold State.firstBad
    rcases hp with hp | hp
    · by_cases hh : s.service = .halted
      · exact if_pos hh
      · rw [if_neg hh, List.find?_eq_none]
        intro r hr
        have other : r ≠ ⟨.part, 0⟩ := fun e => hp (e ▸ hr)
        simp [other]
    · exact if_pos hp
  have still : (s.clock.advance.minuteChange && decide (s.service = .inService)) = false := by
    rcases hq with hq | hq <;> simp [Clock.minuteChange, hq]
  rw [State.clockAdvances_set h]
  unfold State.readingPart State.reading
  rw [sound]
  simp only [still, Bool.false_and, Bool.false_eq_true, if_false]

/-- A minute change in In Service evaluates every window. -/
theorem State.clockAdvances_minute {s : State} (h : s.clock.unset = false) (hm : s.clock.advance.second % 60 = 0)
    (hs : s.service = .inService) (hl : s.load = .none) (hb : s.badCodes = []) :
    s.clockAdvances = State.evaluateAll { s with clock := s.clock.advance } := by
  have down : State.tablesDown { s with clock := s.clock.advance } = false := by simp [State.tablesDown, hl]
  have change : s.clock.advance.minuteChange = true := by simp [Clock.minuteChange, Clock.advance_unset h, hm]
  rw [State.clockAdvances_set h, State.readingPart, State.reading_sound (s := { s with clock := s.clock.advance }) hb]
  dsimp only
  rw [if_pos (by rw [change, down, hs]; rfl)]
  exact State.acting_sound (s := { s with clock := s.clock.advance }) hb _ _ _

end Sys2Proof.Machine

namespace Sys2Proof
open Machine

/-- Settles O15. -/
theorem showClockAdvances : Obligations.ShowClockAdvances := by
  refine ⟨fun s => ⟨fun hu => ?_, fun hu => ?_⟩, fun c hy hy' hm hm' hd hd' => ⟨fun hn => ?_, fun last => ?_, fun first => ?_⟩⟩
  · exact congrArg Host.Outcome.next (by unfold State.clockAdvances; rw [if_pos hu])
  · intro c
    have advanced : s.clock.advance = c := Clock.advance_set hu
    rw [← advanced]
    refine ⟨fun hq hp => congrArg Host.Outcome.next (State.clockAdvances_alone hu hq hp), fun hm hs hl hb => ?_,
      fun hb hs => ?_⟩
    · obtain ⟨clock, windows, notices, galleries, settings, checkQueue, engine, storeStates, port, machine⟩ :=
        s.evaluateAll_at s.clock.advance
      exact ⟨_, congrArg Host.Outcome.next (State.clockAdvances_minute hu hm hs hl hb), clock, windows, notices, galleries,
        settings, checkQueue, engine, storeStates, port, machine⟩
    · obtain ⟨service, clock, line, latched, taken, kept⟩ :=
        State.halt_spec (s := { s with clock := s.clock.advance }) ⟨.part, 0⟩ Activity.timer hs
      exact ⟨_, congrArg Host.Outcome.next ((State.clockAdvances_set hu).trans
        (State.readingPart_damaged (s := { s with clock := s.clock.advance }) hb hs _)), service, clock, line, latched,
        taken, kept⟩
  · have date := Clock.nextDay_date hy hy' hm hm' hd hd' hn
    refine ⟨date, ?_⟩
    unfold Clock.dayOfWeek
    rw [date]
    omega
  · simp only [Prod.mk.injEq] at last
    simp [Clock.nextDay, last, monthLength]
  · simp only [Prod.mk.injEq] at first
    simp [Clock.dayOfWeek, Clock.date, dateNumber, first, daysBeforeMonth, upTo]

end Sys2Proof
end

section
/-! The expiry of a window's grace (R9, R43, R54, R72). -/

namespace Sys2Proof.Machine

/-! ## Slots that are lost -/

/-- A property of states that losing slots keeps: changes of stations that keep each slot or empty it, marks of carriers, and
the notices keep it. -/
structure Emptying (P : State → Prop) : Prop where
  modStation : ∀ {s : State} {k : Nat} {f : Station → Station},
    (∀ x role, (f x).slotOf role = x.slotOf role ∨ (f x).slotOf role = none) → P s → P (s.modStation k f)
  markCarrier : ∀ {s : State} (c r : Nat), P s → P (s.markCarrier c r)
  soft : Soft P

section
variable {P : State → Prop}

/-- A change that keeps both slots. -/
theorem Emptying.keepSlots (hc : Emptying P) {s : State} (h : P s) {k : Nat} {f : Station → Station}
    (hp : ∀ x, (f x).primary = x.primary) (hs : ∀ x, (f x).standby = x.standby) : P (s.modStation k f) :=
  hc.modStation (fun x role => .inl (by cases role <;> simp [Station.slotOf, hp, hs])) h

theorem Emptying.blockAbandoned (hc : Emptying P) {s : State} (h : P s) (x : Station) : P (s.blockAbandoned x) := by
  unfold State.blockAbandoned
  split
  · exact hc.markCarrier _ _ h
  · exact h

theorem Emptying.setLink (hc : Emptying P) {s : State} (h : P s) (k : Nat) (l : Link) : P (s.setLink k l) := by
  unfold State.setLink
  split
  · exact h
  · exact hc.soft.linkNotices (hc.keepSlots (f := fun x => { x with link := l }) h (fun _ => rfl) (fun _ => rfl)) _ _ _

theorem Emptying.tuneTo (hc : Emptying P) {s : State} (h : P s) (k c n : Nat) (b : Bool) : P (s.tuneTo k c n b) := by
  unfold State.tuneTo
  dsimp only
  split
  · refine hc.soft.hand (hc.keepSlots h ?_ ?_) _ _ <;> exact fun _ => rfl
  · exact h

theorem Emptying.parkStation (hc : Emptying P) {s : State} (h : P s) (k : Nat) : P (s.parkStation k) := by
  unfold State.parkStation
  dsimp only
  split
  · exact h
  · refine hc.setLink (hc.blockAbandoned (hc.soft.hand (hc.keepSlots h ?_ ?_) _ _) _) _ _ <;> exact fun _ => rfl

theorem Emptying.switchFailed (hc : Emptying P) {s : State} (h : P s) (k : Nat) (x : Station) (l : Link) :
    P ((((s.modStation k (fun x => { x with switchKind := none, blockOutgoing := none, inhibit := true })).blockAbandoned
      x).setLink k l).markStation k StationReason.switchFailed) := by
  refine hc.soft.markStation (hc.setLink (hc.blockAbandoned (hc.keepSlots h ?_ ?_) _) _ _) _ _ <;> exact fun _ => rfl

theorem Emptying.switchFail (hc : Emptying P) {s : State} (h : P s) (k : Nat) : P (s.switchFail k) := by
  cases hx : s.station k with
  | none =>
    have nothing : s.switchFail k = s := by
      unfold State.switchFail
      rw [hx]
    rwa [nothing]
  | some x =>
    rw [State.switchFail_eq hx]
    cases x.primary with
    | none => exact hc.switchFailed h k x _
    | some p => exact hc.switchFailed (hc.tuneTo h k p 0 false) k x _

end

/-- A slot of a station is emptied, with what goes by it. -/
def Station.without (x : Station) : Role → Station
  | .primary => { x with primary := none }
  | .standby => { x with standby := none, recoveryRun := none }

theorem Station.slotOf_without (x : Station) (role r : Role) :
    (x.without role).slotOf r = x.slotOf r ∨ (x.without role).slotOf r = none := by
  cases role <;> cases r <;> simp [Station.without, Station.slotOf]

theorem Station.slotOf_without_self (x : Station) (role : Role) : (x.without role).slotOf role = none := by
  cases role <;> rfl

theorem Station.without_link (x : Station) (role : Role) : (x.without role).link = x.link := by cases role <;> rfl

theorem Station.without_core (role : Role) {x y : Station} (h : x.core = y.core) :
    (x.without role).core = (y.without role).core := by
  cases role <;>
    · simp only [Station.core, Station.mk.injEq, Station.without] at h ⊢
      simp [h]

/-- What a station that loses a slot does first: it is parked, or its switch fails (R54). -/
def State.leaveSlot (s : State) (k : Nat) (x : Station) : Role → State
  | .primary => if x.link = .parked then s else s.parkStation k
  | .standby => if x.link = .switching then s.switchFail k else s

theorem State.loseSlot_eq {s : State} {k : Nat} {x : Station} (hx : s.station k = some x) (role : Role) (r : Nat) :
    s.loseSlot k role r = ((s.leaveSlot k x role).modStation k (·.without role)).markStation k r := by
  unfold State.loseSlot
  rw [hx]
  cases role <;> rfl

theorem State.loseSlot_none {s : State} {k : Nat} (hx : s.station k = none) (role : Role) (r : Nat) :
    s.loseSlot k role r = s := by
  unfold State.loseSlot
  rw [hx]

theorem Emptying.loseSlot {P : State → Prop} (hc : Emptying P) {s : State} (h : P s) (k : Nat) (role : Role) (r : Nat) :
    P (s.loseSlot k role r) := by
  cases hx : s.station k with
  | none => rwa [State.loseSlot_none hx]
  | some x =>
    rw [State.loseSlot_eq hx]
    refine hc.soft.markStation (hc.modStation (fun y => y.slotOf_without role) ?_) _ _
    cases role
    · exact iteInduction (fun _ => h) (fun _ => hc.parkStation h k)
    · exact iteInduction (fun _ => hc.switchFail h k) (fun _ => h)

/-- A station that loses a slot is changed alone; a Parked one keeps its link. -/
theorem State.loseSlot_changes (s : State) (k : Nat) (role : Role) (r : Nat) :
    ∃ g, Changed s (s.loseSlot k role r) k g ∧ ∀ x, s.station k = some x → x.link = .parked → (g x).link = .parked := by
  cases hx : s.station k with
  | none =>
    rw [State.loseSlot_none hx]
    exact ⟨id, Changed.refl s k, fun x hy => by cases hy⟩
  | some x =>
    have left : ∃ g, Changed s (s.leaveSlot k x role) k g ∧ (x.link = .parked → (g x).link = .parked) := by
      cases role
      · by_cases hl : x.link = .parked
        · exact ⟨id, by rw [State.leaveSlot, if_pos hl]; exact Changed.refl s k, id⟩
        · exact ⟨_, by rw [State.leaveSlot, if_neg hl]; exact (Changed.refl s k).parkStation, fun h => absurd h hl⟩
      · by_cases hl : x.link = .switching
        · obtain ⟨g, changed⟩ := s.switchFail_changes k
          exact ⟨g, by rw [State.leaveSlot, if_pos hl]; exact changed, fun h => absurd (hl.symm.trans h) nofun⟩
        · exact ⟨id, by rw [State.leaveSlot, if_neg hl]; exact Changed.refl s k, id⟩
    obtain ⟨g, changed, parked⟩ := left
    have emptied := (changed.modStation (g := (·.without role)) (fun _ _ h => Station.without_core role h)).markStation k r
    rw [State.loseSlot_eq hx]
    refine ⟨_, emptied, fun y hy hl => ?_⟩
    obtain rfl : x = y := Option.some.inj hy
    rw [Station.without_link]
    exact parked hl

/-- The slot is empty afterwards. -/
theorem State.loseSlot_slot (s : State) (k : Nat) (role : Role) (r : Nat) {x : Station}
    (h : (s.loseSlot k role r).station k = some x) : x.slotOf role = none := by
  cases hx : s.station k with
  | none =>
    rw [State.loseSlot_none hx, hx] at h
    cases h
  | some y =>
    rw [State.loseSlot_eq hx, State.markStation, State.station_modStation, if_pos rfl, State.station_modStation,
      if_pos rfl] at h
    cases hz : (s.leaveSlot k y role).station k with
    | none => rw [hz] at h; cases h
    | some z =>
      rw [hz] at h
      obtain rfl := Option.some.inj h
      exact z.slotOf_without_self role

end Sys2Proof.Machine
end

section
/-! GRACE_EXPIRY (R9, R17, R43, R72). -/

namespace Sys2Proof.Machine

theorem Table.mem_records_of_get {α : Type} {t : Table α} {k : Nat} {r : α} (h : t.get k = some r) : (k, r) ∈ t.records := by
  unfold Table.get at h
  cases hs : t.slot k with
  | none => rw [hs] at h; cases h
  | some v =>
    cases v with
    | damaged m => rw [hs] at h; cases h
    | held x =>
      rw [hs] at h
      obtain rfl := Option.some.inj h
      exact List.mem_filterMap.2 ⟨_, mem_of_slotAt hs, rfl⟩

/-! ## Parking under an expired window (R72) -/

/-- The Expiry notice of a window to one station. -/
def State.expiryTo (w : Nat) (s : State) (k : Nat) : State :=
  match s.station k with
  | none => s
  | some x =>
    if s.primaryIn x w && x.link != .parked then
      let t := (s.parkStation k).markStation k StationReason.windowExpired
      if x.tally = .live then t.markStation k StationReason.onAirCut else t
    else s

theorem State.parkExpired_eq (s : State) (w : Nat) : s.parkExpired w = s.forEach (upTo 96) (State.expiryTo w) := rfl

theorem State.expiryTo_changes (s : State) (w k : Nat) : ∃ g, Changed s (s.expiryTo w k) k g ∧
    ∀ x, s.station k = some x → (g x).primary = x.primary ∧
      (s.primaryIn x w = true → (g x).link = .parked) ∧ (x.link = .parked → (g x).link = .parked) := by
  unfold State.expiryTo
  cases hx : s.station k with
  | none => exact ⟨id, Changed.refl s k, fun x hy => by cases hy⟩
  | some x =>
    dsimp only
    split
    · have parked := ((Changed.refl s k).parkStation).markStation k StationReason.windowExpired
      refine ⟨fun x => x.parked, ?_, fun y _ => ⟨rfl, fun _ => rfl, fun _ => rfl⟩⟩
      split
      · exact parked.markStation _ _
      · exact parked
    · rename_i h
      refine ⟨id, Changed.refl s k, fun y hy => ⟨rfl, fun hp => ?_, id⟩⟩
      obtain rfl := Option.some.inj hy
      simpa [hp] using h

theorem State.carriersKeep.trans {s t u : State} (h1 : s.carriersKeep t) (h2 : t.carriersKeep u) : s.carriersKeep u :=
  fun c => (h2 c).trans (h1 c)

theorem State.carriersKeep.carrier {s t : State} (h : s.carriersKeep t) {c : Nat} {y : Carrier} (hy : s.carrier c = some y) :
    ∃ z, t.carrier c = some z ∧ z.unmarked = y.unmarked := by
  have kept := h c
  rw [hy] at kept
  exact Option.map_eq_some_iff.1 kept

/-- A station under another station's cascade keeps its core. -/
theorem Changed.other {s t : State} {k j : Nat} {f : Station → Station} (h : Changed s t k f) (hj : j ≠ k) {x : Station}
    (hx : s.station j = some x) : ∃ v, t.station j = some v ∧ v.core = x.core := by
  have kept := h.others j hj
  rw [hx] at kept
  exact Option.map_eq_some_iff.1 kept

theorem State.expiryTo_carriers (s : State) (w k : Nat) : s.carriersKeep (s.expiryTo w k) := by
  obtain ⟨g, changed, -⟩ := s.expiryTo_changes w k
  exact changed.marks

theorem State.parkExpired_carriers (s : State) (w : Nat) : s.carriersKeep (s.parkExpired w) :=
  State.forEach_keeps (P := s.carriersKeep) (fun _ => rfl) _ (fun t k h => h.trans (t.expiryTo_carriers w k))

/-- What one step of a loop at its key brings about, from what every step before keeps, stands when every step after keeps
it. -/
theorem State.forEach_reaches {α : Type} {P Q : State → Prop} {f : State → α → State} {xs : List α} {a : α} (ha : a ∈ xs)
    (before : ∀ t b, b ≠ a → P t → P (f t b)) (at_ : ∀ t, P t → Q (f t a)) (after : ∀ t b, Q t → Q (f t b)) {s : State}
    (h : P s) : Q (s.forEach xs f) := by
  obtain ⟨as, bs, rfl, fresh⟩ := List.eq_append_cons_of_mem ha
  have first : P (as.foldl f s) := by
    clear ha
    induction as generalizing s with
    | nil => exact h
    | cons b as ih =>
      rw [List.mem_cons, not_or] at fresh
      exact ih (before s b (Ne.symm fresh.1) h) fresh.2
  have split : s.forEach (as ++ a :: bs) f = (f (as.foldl f s) a).forEach bs f := by
    simp [State.forEach]
  rw [split]
  exact State.forEach_keeps (at_ _ first) bs after

/-- A station whose primary names the window is Parked by its Expiry notice. -/
theorem State.parkExpired_parks {s : State} {w n c : Nat} {x : Station} {y : Carrier} (h1 : 1 ≤ n) (h2 : n ≤ 96)
    (hx : s.station n = some x) (hp : x.primary = some c) (hy : s.carrier c = some y) (hw : y.window = some w) :
    ∃ v, (s.parkExpired w).station n = some v ∧ v.link = .parked := by
  rw [State.parkExpired_eq]
  refine State.forEach_reaches (P := fun t => s.carriersKeep t ∧ ∃ v, t.station n = some v ∧ v.primary = some c)
    (Q := fun t => ∃ v, t.station n = some v ∧ v.link = .parked) (mem_upTo.2 ⟨h1, h2⟩) ?_ ?_ ?_
    ⟨fun _ => rfl, x, hx, hp⟩
  · rintro t j hj ⟨keeps, v, hv, primary⟩
    obtain ⟨g, changed, -⟩ := t.expiryTo_changes w j
    obtain ⟨z, hz, core⟩ := changed.other (Ne.symm hj) hv
    exact ⟨keeps.trans changed.marks, z, hz, ((congrArg Station.primary core :) : z.primary = v.primary).trans primary⟩
  · rintro t ⟨keeps, v, hv, primary⟩
    obtain ⟨z, hz, same⟩ := keeps.carrier hy
    have window : z.window = some w := ((congrArg Carrier.window same :) : z.window = y.window).trans hw
    obtain ⟨g, changed, parks⟩ := t.expiryTo_changes w n
    obtain ⟨u, hu, core⟩ := changed.core v hv
    have parked := (parks v hv).2.1 (by simp [State.primaryIn, primary, hz, window])
    exact ⟨u, hu, ((congrArg Station.link core :) : u.link = (g v).link).trans parked⟩
  · rintro t j ⟨v, hv, link⟩
    obtain ⟨g, changed, parks⟩ := t.expiryTo_changes w j
    by_cases hj : n = j
    · subst hj
      obtain ⟨u, hu, core⟩ := changed.core v hv
      exact ⟨u, hu, ((congrArg Station.link core :) : u.link = (g v).link).trans ((parks v hv).2.2 link)⟩
    · obtain ⟨z, hz, core⟩ := changed.other hj hv
      exact ⟨z, hz, ((congrArg Station.link core :) : z.link = v.link).trans link⟩

/-! ## The carriers of an expired window (R43) -/

/-- What an expiry makes of a committed carrier. -/
@[reducible] def Carrier.expires (y : Carrier) : Carrier :=
  { y with
    state := .proposed
    bound := none
    alternate := none
    conflict := none
    mark := addReason CarrierReason.windowExpired y.mark }

theorem State.expireCarrier_eq {s : State} {c : Nat} {y : Carrier} (hy : s.carrier c = some y) :
    ∃ t, s.expireCarrier c = t.modCarrier c Carrier.expires ∧
      ((∃ n role, y.bound = some (n, role) ∧ t = s.loseSlot n role StationReason.windowExpired) ∨
        (y.bound = none ∧ t = s)) := by
  have fused : ∀ t : State, State.markCarrier (t.modCarrier c (fun y => { y with
      state := .proposed, bound := none, alternate := none, conflict := none })) c CarrierReason.windowExpired =
      t.modCarrier c Carrier.expires := fun t => by
    simp only [State.markCarrier, State.modCarrier, Table.modify_modify]
  unfold State.expireCarrier
  rw [hy]
  dsimp only
  cases y.bound with
  | none => exact ⟨s, fused s, .inr ⟨rfl, rfl⟩⟩
  | some b => exact ⟨_, fused _, .inl ⟨b.1, b.2, rfl, rfl⟩⟩

/-- A property of one carrier that its marks leave alone. -/
theorem Emptying.ofCarrier (c : Nat) {F : Carrier → Prop} (hF : ∀ z r, F z → F { z with mark := addReason r z.mark }) :
    Emptying (fun t => ∃ z, t.carrier c = some z ∧ F z) where
  modStation _ h := h
  markCarrier := by
    rintro s d r ⟨z, hz, h⟩
    rw [State.markCarrier, State.carrier_modCarrier, hz]
    by_cases hd : c = d
    · exact ⟨_, if_pos hd, hF z r h⟩
    · exact ⟨z, if_neg hd, h⟩
  soft := ⟨fun _ h => h, fun h => h, fun _ h => h, fun h => h⟩

/-- That a slot of a station is empty. -/
theorem Emptying.ofSlot (n : Nat) (role : Role) :
    Emptying (fun t => ∀ x, t.station n = some x → x.slotOf role = none) where
  modStation := by
    intro s k f hf h x hx
    rw [State.station_modStation] at hx
    split at hx
    · obtain ⟨y, hy, rfl⟩ := Option.map_eq_some_iff.1 hx
      rcases hf y role with same | empty
      · exact same.trans (h y hy)
      · exact empty
    · exact h x hx
  markCarrier _ _ h := h
  soft := by
    refine ⟨?_, fun h => h, fun _ h => h, fun h => h⟩
    intro s k f hf h x hx
    rw [State.station_modStation] at hx
    split at hx
    · obtain ⟨y, hy, rfl⟩ := Option.map_eq_some_iff.1 hx
      have primary : (f y).primary = y.primary := (congrArg Station.primary (hf y) :)
      have standby : (f y).standby = y.standby := (congrArg Station.standby (hf y) :)
      rw [← h y hy]
      cases role
      · exact primary
      · exact standby
    · exact h x hx

/-- What the loss of the slot leaves of a property, the expiry of a carrier leaves where its own change does. -/
theorem Emptying.expireCarrier {P : State → Prop} (hc : Emptying P) {s : State} (h : P s) {c : Nat}
    (hm : ∀ t, P t → P (t.modCarrier c Carrier.expires)) : P (s.expireCarrier c) := by
  cases hy : s.carrier c with
  | none =>
    have nothing : s.expireCarrier c = s := by
      unfold State.expireCarrier
      rw [hy]
    rwa [nothing]
  | some y =>
    obtain ⟨t, eq, ⟨n, role, -, rfl⟩ | ⟨-, rfl⟩⟩ := State.expireCarrier_eq hy
    · exact eq ▸ hm _ (hc.loseSlot h _ _ _)
    · exact eq ▸ hm _ h

/-- A carrier under the expiry of another one. -/
theorem State.expireCarrier_other {F : Carrier → Prop} (hF : ∀ z r, F z → F { z with mark := addReason r z.mark }) {s : State}
    {c d : Nat} (hd : d ≠ c) (h : ∃ z, s.carrier c = some z ∧ F z) : ∃ z, (s.expireCarrier d).carrier c = some z ∧ F z :=
  (Emptying.ofCarrier c hF).expireCarrier h (fun t ht => by
    rw [State.carrier_modCarrier, if_neg (Ne.symm hd)]
    exact ht)

/-- What an expiry leaves of a carrier, its own included. -/
theorem State.expireCarrier_keeps {F : Carrier → Prop} (hF : ∀ z r, F z → F { z with mark := addReason r z.mark })
    (he : ∀ z, F z → F z.expires) {s : State} {c d : Nat} (h : ∃ z, s.carrier c = some z ∧ F z) :
    ∃ z, (s.expireCarrier d).carrier c = some z ∧ F z :=
  (Emptying.ofCarrier c hF).expireCarrier h (fun t ⟨z, hz, hz'⟩ => by
    rw [State.carrier_modCarrier, hz]
    by_cases hd : c = d
    · exact ⟨_, if_pos hd, he z hz'⟩
    · exact ⟨z, if_neg hd, hz'⟩)

/-- What a carrier keeps in an expiry. -/
def Carrier.keepsPlace (y z : Carrier) : Prop := z.frequency = y.frequency ∧ z.intent = y.intent ∧ z.window = y.window

/-- A committed carrier whose window has expired (R43). -/
def Carrier.expiredFrom (y z : Carrier) : Prop :=
  y.keepsPlace z ∧ z.state = .proposed ∧ z.bound = none ∧ CarrierReason.windowExpired ∈ z.mark

/-- The committed carriers of a window. -/
def State.expiring (s : State) (w : Nat) : List Nat :=
  (s.carriers.records.filter (fun p => p.2.state.committed && p.2.window = some w)).map (·.1)

theorem State.expireCarriers_eq (s : State) (w : Nat) :
    s.expireCarriers w = s.forEach (s.expiring w) State.expireCarrier := rfl

theorem State.mem_expiring {s : State} {w c : Nat} {y : Carrier} (hy : s.carrier c = some y)
    (hc : y.state.committed = true) (hw : y.window = some w) : c ∈ s.expiring w :=
  List.mem_map.2 ⟨(c, y), List.mem_filter.2 ⟨Table.mem_records_of_get hy, by simp [hc, hw]⟩, rfl⟩

/-- The committed carriers of an expired window become Proposed and unbound. -/
theorem State.expireCarriers_carrier {s : State} {w c : Nat} {y : Carrier} (hy : s.carrier c = some y)
    (hc : y.state.committed = true) (hw : y.window = some w) :
    ∃ z, (s.expireCarriers w).carrier c = some z ∧ y.expiredFrom z := by
  rw [State.expireCarriers_eq]
  refine State.forEach_reaches (P := fun t => ∃ z, t.carrier c = some z ∧ y.keepsPlace z)
    (Q := fun t => ∃ z, t.carrier c = some z ∧ y.expiredFrom z) (State.mem_expiring hy hc hw) (fun t d hd h => ?_)
    (fun t h => ?_) (fun t d h => ?_) ⟨y, hy, rfl, rfl, rfl⟩
  · exact State.expireCarrier_other (fun z r hz => hz) hd h
  · obtain ⟨z, hz, place⟩ := h
    obtain ⟨u, eq, lost⟩ := State.expireCarrier_eq hz
    have held : ∃ v, u.carrier c = some v ∧ y.keepsPlace v := by
      rcases lost with ⟨n, role, -, rfl⟩ | ⟨-, rfl⟩
      · exact (Emptying.ofCarrier c (fun z r hz => hz)).loseSlot ⟨z, hz, place⟩ n role _
      · exact ⟨z, hz, place⟩
    obtain ⟨v, hv, place⟩ := held
    rw [eq, State.carrier_modCarrier, if_pos rfl, hv]
    exact ⟨v.expires, rfl, place, rfl, rfl, mem_addReason_self _ _⟩
  · exact State.expireCarrier_keeps (fun z r ⟨place, state, bound, mark⟩ => ⟨place, state, bound, mem_addReason_of_mem _ mark⟩)
      (fun z ⟨place, _, _, _⟩ => ⟨place, rfl, rfl, mem_addReason_self _ _⟩) h

/-- The stations that held them lose the slots. -/
theorem State.expireCarriers_slot {s : State} {w c n : Nat} {role : Role} {y : Carrier} (hy : s.carrier c = some y)
    (hc : y.state.committed = true) (hw : y.window = some w) (hb : y.bound = some (n, role)) {x : Station}
    (hx : (s.expireCarriers w).station n = some x) : x.slotOf role = none := by
  rw [State.expireCarriers_eq] at hx
  refine State.forEach_reaches (P := fun t => ∃ z, t.carrier c = some z ∧ z.bound = some (n, role))
    (Q := fun t => ∀ x, t.station n = some x → x.slotOf role = none) (State.mem_expiring hy hc hw)
    (fun t d hd h => State.expireCarrier_other (fun z r hz => hz) hd h) (fun t h => ?_) (fun t d h => ?_)
    ⟨y, hy, hb⟩ x hx
  · obtain ⟨z, hz, bound⟩ := h
    obtain ⟨u, eq, lost⟩ := State.expireCarrier_eq hz
    rw [eq]
    rcases lost with ⟨n', role', hb', rfl⟩ | ⟨hb', -⟩
    · obtain ⟨rfl, rfl⟩ := Prod.mk.inj (Option.some.inj (bound.symm.trans hb'))
      exact fun x hx => t.loseSlot_slot n role _ hx
    · rw [bound] at hb'
      cases hb'
  · exact (Emptying.ofSlot n role).expireCarrier h (fun _ hu => hu)

/-- A Parked station stays Parked. -/
theorem State.expireCarriers_parked {s : State} {w n : Nat} (h : ∃ v, s.station n = some v ∧ v.link = .parked) :
    ∃ v, (s.expireCarriers w).station n = some v ∧ v.link = .parked := by
  rw [State.expireCarriers_eq]
  refine State.forEach_keeps (P := fun t => ∃ v, t.station n = some v ∧ v.link = .parked) h _ (fun t d ht => ?_)
  have lose : ∀ k role, ∃ v, (t.loseSlot k role StationReason.windowExpired).station n = some v ∧ v.link = .parked := by
    intro k role
    obtain ⟨v, hv, link⟩ := ht
    obtain ⟨g, changed, parked⟩ := t.loseSlot_changes k role StationReason.windowExpired
    by_cases hk : n = k
    · subst hk
      obtain ⟨z, hz, core⟩ := changed.core v hv
      exact ⟨z, hz, ((congrArg Station.link core :) : z.link = (g v).link).trans (parked v hv link)⟩
    · obtain ⟨z, hz, core⟩ := changed.other hk hv
      exact ⟨z, hz, ((congrArg Station.link core :) : z.link = v.link).trans link⟩
  cases hy : t.carrier d with
  | none =>
    have nothing : t.expireCarrier d = t := by
      unfold State.expireCarrier
      rw [hy]
    rwa [nothing]
  | some y =>
    obtain ⟨u, eq, ⟨k, role, -, rfl⟩ | ⟨-, rfl⟩⟩ := State.expireCarrier_eq hy
    · exact eq ▸ lose k role
    · exact eq ▸ ht

theorem State.expireWindow_stations (s : State) (w : Nat) :
    (s.expireWindow w).stations = ((s.parkExpired w).expireCarriers w).stations := by
  simp only [State.expireWindow, State.markWindow, State.modWindow_stations]

theorem State.expireWindow_carriers (s : State) (w : Nat) :
    (s.expireWindow w).carriers = ((s.parkExpired w).expireCarriers w).carriers := by
  simp only [State.expireWindow, State.markWindow, State.modWindow_carriers]

theorem State.graceEnds_inService {s : State} {k : Nat} {w : Window} (hs : s.service = .inService) (hb : s.badCodes = [])
    (hw : s.window k = some w) (hst : w.state = .closing) : s.graceEnds k = s.expireWindow k := by
  have runs : s.running = true := by rw [State.running, hs]; rfl
  unfold State.graceEnds
  rw [if_neg (by rw [hs]; exact nofun), State.timer_sound runs hb, State.graceRunsOut, hw]
  dsimp only
  rw [if_pos hst, hs]

theorem State.graceEnds_faultHandling {s : State} {k : Nat} {w : Window} (hs : s.service = .faultHandling)
    (hw : s.window k = some w) (hst : w.state = .closing) : s.graceEnds k =
      if s.quarantined = some ⟨.window, k⟩ then s
      else { s with windows := s.windows.put k { w with grace := some 0 } } := by
  have due : s.graceRunsOut k = s.modWindow k (fun x => { x with grace := some 0 }) := by
    unfold State.graceRunsOut
    rw [hw]
    dsimp only
    rw [if_pos hst, hs]
  rw [State.graceEnds, if_pos hs, due, State.modWindow, Table.modify_of_get hw]

end Sys2Proof.Machine

namespace Sys2Proof
open Machine

/-- Settles O18. -/
theorem graceExpires : Obligations.GraceExpires := by
  refine ⟨fun k w s hs hb hw hst => ?_, fun k w s hs hw hst =>
    congrArg Host.Outcome.next (State.graceEnds_faultHandling hs hw hst)⟩
  have beside := s.expireWindow_evaluates k
  have windows := s.expireWindow_window k
  have keeps := s.parkExpired_carriers k
  refine ⟨s.expireWindow k, congrArg Host.Outcome.next (State.graceEnds_inService hs hb hw hst), ?_,
    fun j hj => by rw [windows j, if_neg hj], fun c y hy hc hyw => ?_, fun n x c y h1 h2 hx hp hy hyw => ?_,
    by rw [beside], by rw [beside], by rw [beside], by rw [beside], by rw [beside], by rw [beside], beside.sameMachine⟩
  · rw [windows k, if_pos rfl, hw]
    rfl
  · obtain ⟨v, hv, same⟩ := keeps.carrier hy
    have committed : v.state.committed = true := ((congrArg Carrier.state same :) : v.state = y.state) ▸ hc
    have window : v.window = some k := ((congrArg Carrier.window same :) : v.window = y.window).trans hyw
    have bound : v.bound = y.bound := (congrArg Carrier.bound same :)
    refine ⟨?_, fun n role hb' x hx => State.expireCarriers_slot hv committed window (bound.trans hb')
      (by rwa [State.station, State.expireWindow_stations] at hx)⟩
    obtain ⟨z, hz, ⟨frequency, intent, named⟩, state, unbound, mark⟩ := State.expireCarriers_carrier hv committed window
    rw [State.carrier, State.expireWindow_carriers]
    exact ⟨z, hz, state, unbound, frequency.trans (congrArg Carrier.frequency same :),
      intent.trans (congrArg Carrier.intent same :), named.trans window, mark⟩
  · rw [State.station, State.expireWindow_stations]
    exact State.expireCarriers_parked (State.parkExpired_parks h1 h2 hx hp hy hyw)

end Sys2Proof
end

section
/-! The notices between the blocks, said of single fields: what the follow memberships, the lamps and the deliveries leave
alone of a station (R80, R87, R106 to R111), and what the cues leave alone (R118 to R125). -/

namespace Sys2Proof.Machine

/-- A property that the notices of deliveries and conferences keep: of a station they set the delivery bases and the mark
alone. -/
structure Following (P : State → Prop) : Prop where
  hand : ∀ {s : State}, P s → ∀ (kd : DeliveryKind) (k : Nat), P (s.hand kd k)
  mark : ∀ {s : State} (k r : Nat), P s → P (s.markStation k r)
  modConference : ∀ {s : State} {k : Nat} {f : Conference → Conference}, P s → P (s.modConference k f)

/-- A property that the notices of lamps keep too: of a station they set the wanted lamp as well. -/
structure Telling (P : State → Prop) : Prop extends Following P where
  lamp : ∀ {s : State} (k : Nat) (l : Option Lamp), P s → P (s.modStation k (fun x => { x with lamp := l }))

section
variable {P : State → Prop}

theorem Following.markConference (hc : Following P) {s : State} (h : P s) (c r : Nat) : P (s.markConference c r) :=
  hc.modConference h

theorem Following.recomputeRouting (hc : Following P) {s : State} (h : P s) (c : Nat) : P (s.recomputeRouting c) := by
  unfold State.recomputeRouting
  split
  · exact h
  · split
    · exact h
    · exact hc.hand (hc.modConference h) _ _

theorem Following.serveList (hc : Following P) (ov : FollowOverride) (silent : Bool) (c : Nat) (ps : List Nat) {s : State}
    (h : P s) : P (Machine.serveList ov silent c ps s) := by
  induction ps generalizing s with
  | nil => exact h
  | cons p rest ih =>
    unfold Machine.serveList
    dsimp only
    split
    · exact ih (hc.markConference (hc.modConference h) _ _)
    · split
      · exact hc.modConference (hc.modConference h)
      · exact hc.markConference (hc.modConference (hc.modConference h)) _ _

theorem Following.serveWaitList (hc : Following P) {s : State} (h : P s) (ov : FollowOverride) (silent : Bool) (c : Nat) :
    P (s.serveWaitList ov silent c) := by
  unfold State.serveWaitList
  split
  · exact h
  · exact hc.serveList ov silent c _ h

theorem Following.followLeaves (hc : Following P) {s : State} (h : P s) (ov : FollowOverride) (p c : Nat) (st : Standing) :
    P (s.followLeaves ov p c st) := by
  unfold State.followLeaves
  cases st with
  | fixed => exact h
  | out => exact h
  | follow => exact hc.recomputeRouting (hc.serveWaitList (hc.markConference (hc.modConference h) _ _) _ _ _) _
  | waits => exact hc.markConference (hc.modConference h) _ _

theorem Following.followJoins (hc : Following P) {s : State} (h : P s) (p c : Nat) (x : Conference) (due : List Nat)
    (st : Standing) : P (s.followJoins p c x due st) := by
  unfold State.followJoins
  cases st with
  | fixed => exact h
  | waits => exact h
  | follow => exact hc.modConference h
  | out =>
    dsimp only
    split
    · exact hc.recomputeRouting (hc.markConference (hc.modConference h) _ _) _
    · split
      · exact hc.markConference (hc.modConference h) _ _
      · exact hc.mark _ _ h

theorem Following.recomputeFollow (hc : Following P) {s : State} (h : P s) (ov : FollowOverride) (p c : Nat) :
    P (s.recomputeFollow ov p c) := by
  unfold State.recomputeFollow
  split
  · exact h
  · dsimp only
    split
    · exact hc.followLeaves h _ _ _ _
    · exact hc.followJoins h _ _ _ _ _

/-- A property that the recomputes of follow memberships keep. -/
structure Recomputing (P : State → Prop) : Prop where
  recomputeFollow : ∀ {s : State}, P s → ∀ (ov : FollowOverride) (p c : Nat), P (s.recomputeFollow ov p c)

theorem Recomputing.contributionNotice (hc : Recomputing P) {s : State} (h : P s) (k : Nat) (gs : List Nat) :
    P (s.contributionNotice k gs) := by
  unfold State.contributionNotice
  split
  · exact h
  · refine State.forEach_keeps h _ (fun t c ht => ?_)
    split
    · exact hc.recomputeFollow ht _ _ _
    · exact ht

theorem Recomputing.followNotice (hc : Recomputing P) {s : State} (h : P s) (g : Nat) (old new : Option Nat) :
    P (s.followNotice g old new) := by
  unfold State.followNotice
  split
  · exact h
  · refine State.forEach_keeps h _ (fun t k ht => ?_)
    have first : ∀ p, P (match old with | some c => t.recomputeFollow (some (g, new)) p c | none => t) := by
      intro p
      cases old with
      | none => exact ht
      | some c => exact hc.recomputeFollow ht _ _ _
    split
    · rename_i p _ _
      split
      · cases new with
        | none => exact first p
        | some c => exact hc.recomputeFollow (first p) _ _ _
      · exact ht
    · exact ht

theorem Recomputing.recomputeEverywhere (hc : Recomputing P) {s : State} (h : P s) (ov : FollowOverride) (p : Nat)
    (also : State → Nat → Bool) : P (s.recomputeEverywhere ov p also) := by
  refine State.forEach_keeps h _ (fun t c ht => ?_)
  split
  · exact ht
  · split
    · exact hc.recomputeFollow ht _ _ _
    · exact ht

theorem Recomputing.pairNotice (hc : Recomputing P) {s : State} (h : P s) (k : Nat) (old new : Option Nat) :
    P (s.pairNotice k old new) := by
  unfold State.pairNotice
  cases old with
  | none =>
    cases new with
    | none => exact h
    | some p => exact hc.recomputeEverywhere h _ _ _
  | some q =>
    cases new with
    | none => exact hc.recomputeEverywhere h _ _ _
    | some p => exact hc.recomputeEverywhere (hc.recomputeEverywhere h _ _ _) _ _ _

theorem Following.recomputing (hc : Following P) : Recomputing P := ⟨fun h ov p c => hc.recomputeFollow h ov p c⟩

theorem Following.contributionNotice (hc : Following P) {s : State} (h : P s) (k : Nat) (gs : List Nat) :
    P (s.contributionNotice k gs) := hc.recomputing.contributionNotice h k gs

theorem Following.followNotice (hc : Following P) {s : State} (h : P s) (g : Nat) (old new : Option Nat) :
    P (s.followNotice g old new) := hc.recomputing.followNotice h g old new

theorem Following.recomputeEverywhere (hc : Following P) {s : State} (h : P s) (ov : FollowOverride) (p : Nat)
    (also : State → Nat → Bool) : P (s.recomputeEverywhere ov p also) := hc.recomputing.recomputeEverywhere h ov p also

theorem Following.pairNotice (hc : Following P) {s : State} (h : P s) (k : Nat) (old new : Option Nat) :
    P (s.pairNotice k old new) := hc.recomputing.pairNotice h k old new

theorem Telling.recomputeLamp (hc : Telling P) {s : State} (h : P s) (k : Nat) : P (s.recomputeLamp k) := by
  unfold State.recomputeLamp
  split
  · exact h
  · dsimp only
    split
    · exact h
    · exact hc.hand (hc.lamp _ _ h) _ _

theorem Telling.recomputeLamps (hc : Telling P) {s : State} (h : P s) (k : Nat) : P (s.recomputeLamps k) := by
  unfold State.recomputeLamps
  split
  · exact h
  · dsimp only
    split
    · exact hc.recomputeLamp (hc.recomputeLamp h _) _
    · exact hc.recomputeLamp h _

theorem Recomputing.pairsChanged (hc : Recomputing P) (lamp : ∀ {t : State} (j : Nat), P t → P (t.recomputeLamp j)) {s : State}
    (h : P s) (cs : List (Nat × Option Nat × Option Nat)) : P (s.pairsChanged cs) := by
  unfold State.pairsChanged
  refine State.forEach_keeps (State.forEach_keeps h _ (fun t _ ht => lamp _ ht)) _ (fun t _ ht => ?_)
  split
  · split
    · exact hc.pairNotice ht _ _ _
    · exact ht
  · exact ht

theorem Telling.pairsChanged (hc : Telling P) {s : State} (h : P s) (cs : List (Nat × Option Nat × Option Nat)) :
    P (s.pairsChanged cs) := hc.recomputing.pairsChanged (fun j ht => hc.recomputeLamp ht j) h cs

theorem Telling.derivedActs (hc : Telling P) {s : State} (h : P s) (d : Derived) : P (s.derivedActs d) := by
  have told := hc.recomputeLamps (hc.mark d.key StationReason.tallyChanged h) d.key
  unfold State.derivedActs
  split
  · dsimp only
    split
    · split
      · exact hc.contributionNotice told _ _
      · exact told
    · exact told
  · exact h

theorem Following.dropTalkers (hc : Following P) {s : State} (h : P s) : P s.dropTalkers := by
  refine State.forEach_keeps h _ (fun t c ht => ?_)
  split
  · exact ht
  · split
    · exact ht
    · exact hc.recomputeRouting (hc.markConference (hc.modConference ht) _ _) _

theorem Following.presenceNotice (hc : Following P) {s : State} (h : P s) (k : Nat) (b : Bool) : P (s.presenceNotice k b) := by
  refine State.forEach_keeps h _ (fun t c ht => ?_)
  split
  · exact ht
  · split
    · exact hc.recomputeRouting (hc.modConference ht) _
    · exact ht

theorem Following.stationLeaves (hc : Following P) (hs : ∀ {t : State}, P t → P t.conferenceChanged) {s : State} (h : P s)
    (k c : Nat) (byOrder : Bool) : P (s.stationLeaves k c byOrder) := by
  unfold State.stationLeaves
  split
  · exact h
  · dsimp only
    split
    · exact h
    · refine hc.recomputeRouting (State.forEach_keeps ?_ _ (fun t _ ht => hc.serveWaitList ht _ _ _)) _
      split
      · exact hs (hc.markConference (hc.modConference h) _ _)
      · exact hc.markConference (hc.modConference h) _ _

end

/-- A property that the notices of the cues keep too: of a station they set the stack, the accept and the cue route. -/
structure Cueing (P : State → Prop) : Prop extends Telling P where
  stack : ∀ {s : State} (k : Nat) (st : List CueEntry) (a : Bool) (r : Option Source), P s →
    P (s.modStation k (fun x => { x with stack := st, accept := a, cueRoute := r }))

section
variable {P : State → Prop}

theorem Cueing.setStack (hc : Cueing P) {s : State} (h : P s) (k : Nat) (st : List CueEntry) (a : Bool) :
    P (s.setStack k st a) := by
  have set := hc.stack k st a (currentSource st) h
  unfold State.setStack
  split
  · exact h
  · have routed := fun c [Decidable c] => iteInduction (c := c) (motive := P) (fun _ => set) (fun _ => hc.hand set .cueRoute k)
    exact iteInduction (motive := P) (fun _ => routed _) (fun _ => hc.recomputeLamps (routed _) _)

theorem Cueing.cueRelease (hc : Cueing P) {s : State} (h : P s) (k : Nat) (src : Source) : P (s.cueRelease k src) := by
  unfold State.cueRelease
  split
  · exact h
  · split
    · exact hc.setStack h _ _ _
    · exact h

theorem Cueing.releaseWhere (hc : Cueing P) {s : State} (h : P s) (k : Nat) (p : CueEntry → Bool) :
    P (s.releaseWhere k p) := by
  unfold State.releaseWhere
  split
  · exact h
  · exact State.forEach_keeps h _ (fun t _ ht => hc.cueRelease ht _ _)

theorem Cueing.releaseKeyCues (hc : Cueing P) {s : State} (h : P s) : P s.releaseKeyCues := by
  refine State.forEach_keeps h _ (fun t k ht => ?_)
  split
  · split
    · exact hc.mark _ _ (hc.releaseWhere ht _ _)
    · exact ht
  · exact ht

theorem Cueing.releaseSourced (hc : Cueing P) {s : State} (h : P s) (src : Nat) : P (s.releaseSourced src) := by
  refine State.forEach_keeps h _ (fun t k ht => ?_)
  split
  · split
    · exact hc.mark _ _ (hc.cueRelease ht _ _)
    · exact ht
  · exact ht

theorem Cueing.matrixLost (hc : Cueing P) {s : State} (h : P s) : P s.matrixLost :=
  hc.releaseKeyCues (hc.dropTalkers h)

end

/-! ## Facts about stations -/

/-- What is read of every station, and does not bear on the states of deliveries, stands while deliveries are decided. -/
theorem Decides.project {α : Type} (g : Station → α) (hb : ∀ x kd b, g (x.withBase kd b) = g x) (s : State) :
    Decides (fun t => ∀ j, (t.station j).map g = (s.station j).map g) where
  station := by
    intro t k kd b h j
    rw [← h j, State.station_modStation]
    split
    · rw [Option.map_map]
      exact congrArg (Option.map · (t.station j)) (funext fun x => hb x kd b)
    · rfl
  conference _ _ h := h
  withQueue h := h
  withFinals h := h

/-- What is read of every station, and does not bear on the changes of the notices, stands. -/
theorem Telling.project {α : Type} (g : Station → α) (hb : ∀ x kd b, g (x.withBase kd b) = g x)
    (hm : ∀ x m, g { x with mark := m } = g x) (hl : ∀ x l, g { x with lamp := l } = g x) (s : State) :
    Telling (fun t => ∀ j, (t.station j).map g = (s.station j).map g) := by
  have mod : ∀ {t : State} (k : Nat) (f : Station → Station), (∀ x, g (f x) = g x) →
      (∀ j, (t.station j).map g = (s.station j).map g) → ∀ j, ((t.modStation k f).station j).map g = (s.station j).map g := by
    intro t k f hf h j
    rw [← h j, State.station_modStation]
    split
    · rw [Option.map_map]
      exact congrArg (Option.map · (t.station j)) (funext hf)
    · rfl
  exact {
    hand := fun h kd k => (Decides.project g hb s).hand h kd k
    mark := fun k r h => mod k _ (fun x => hm x _) h
    lamp := fun k l h => mod k _ (fun x => hl x l) h
    modConference := fun h => h }

theorem Cueing.project {α : Type} (g : Station → α) (hb : ∀ x kd b, g (x.withBase kd b) = g x)
    (hm : ∀ x m, g { x with mark := m } = g x) (hl : ∀ x l, g { x with lamp := l } = g x)
    (hs : ∀ x st a r, g { x with stack := st, accept := a, cueRoute := r } = g x) (s : State) :
    Cueing (fun t => ∀ j, (t.station j).map g = (s.station j).map g) where
  toTelling := Telling.project g hb hm hl s
  stack := by
    intro t k st a r h j
    rw [← h j, State.station_modStation]
    split
    · rw [Option.map_map]
      exact congrArg (Option.map · (t.station j)) (funext fun x => hs x st a r)
    · rfl

/-- A fact about one station that does not bear on the changes of the notices. -/
theorem Telling.ofStation (k : Nat) {F : Station → Prop} (hb : ∀ x kd b, F x → F (x.withBase kd b))
    (hm : ∀ x r, F x → F { x with mark := addReason r x.mark }) (hl : ∀ x l, F x → F { x with lamp := l }) :
    Telling (fun t => ∃ z, t.station k = some z ∧ F z) := by
  have mod : ∀ {t : State} (j : Nat) (f : Station → Station), (∀ x, F x → F (f x)) →
      (∃ z, t.station k = some z ∧ F z) → ∃ z, (t.modStation j f).station k = some z ∧ F z := by
    rintro t j f hf ⟨z, hz, h⟩
    by_cases hj : k = j
    · subst hj
      exact ⟨_, State.station_of_mod hz f, hf z h⟩
    · exact ⟨z, by rw [State.station_modStation, if_neg hj, hz], h⟩
  exact {
    hand := fun h kd j => (Decides.ofStation k hb).hand h kd j
    mark := fun j r h => mod j _ (fun x => hm x r) h
    lamp := fun j l h => mod j _ (fun x => hl x l) h
    modConference := fun h => h }

/-- A station but for what the notices of deliveries, lamps and conferences set. -/
@[reducible] def Station.untold (x : Station) : Station :=
  { x with mark := [], lamp := none, tuneBase := .current, lampBase := .current, cueBase := .current }

theorem Station.untold_withBase (x : Station) (kd : DeliveryKind) (b : DeliveryBase) : (x.withBase kd b).untold = x.untold := by
  cases kd <;> rfl

/-- Every station keeps all that these notices do not set. -/
def State.stationsUntold (s t : State) : Prop := ∀ j, (t.station j).map Station.untold = (s.station j).map Station.untold

theorem Decides.untold (s : State) : Decides s.stationsUntold :=
  Decides.project Station.untold (fun x kd b => x.untold_withBase kd b) s

theorem Telling.untold (s : State) : Telling s.stationsUntold :=
  Telling.project Station.untold (fun x kd b => x.untold_withBase kd b) (fun _ _ => rfl) (fun _ _ => rfl) s

theorem State.stationsUntold.refl (s : State) : s.stationsUntold s := fun _ => rfl

theorem State.stationsUntold.trans {s t u : State} (h1 : s.stationsUntold t) (h2 : t.stationsUntold u) : s.stationsUntold u :=
  fun j => (h2 j).trans (h1 j)

/-- What is read of a station that these notices leave alone. -/
theorem State.stationsUntold.map {α : Type} {s t : State} (h : s.stationsUntold t) {g : Station → α}
    (hg : ∀ x, g x.untold = g x) (j : Nat) : (t.station j).map g = (s.station j).map g := by
  have kept := congrArg (Option.map g) (h j)
  rw [Option.map_map, Option.map_map, show g ∘ Station.untold = g from funext hg] at kept
  exact kept

theorem State.stationsUntold.station {s t : State} (h : s.stationsUntold t) {j : Nat} {x : Station} (hx : s.station j = some x) :
    ∃ v, t.station j = some v ∧ v.untold = x.untold := by
  have kept := h j
  rw [hx] at kept
  exact Option.map_eq_some_iff.1 kept

end Sys2Proof.Machine
end

section
/-! Pairs of stations (R48, R93), and DEFINE STATION (R49). -/

namespace Sys2Proof.Machine

/-! ## Pairs -/

/-- The pairs of the stations have been set; beside them only marks, wanted lamps and deliveries are others. -/
def State.repaired (s t : State) (p : Nat → Option Nat → Option Nat) : Prop :=
  ∀ j, (t.station j).map Station.untold = (s.station j).map (fun z => Station.untold { z with pair := p j z.pair })

theorem State.repaired.told {s t u : State} {p : Nat → Option Nat → Option Nat} (h : s.repaired t p) (k : t.stationsUntold u) :
    s.repaired u p := fun j => (k j).trans (h j)

theorem State.repaired.modStation {s t : State} {p : Nat → Option Nat → Option Nat} (h : s.repaired t p) (k : Nat)
    (v : Option Nat) : s.repaired (t.modStation k (fun x => { x with pair := v })) (fun j q => if j = k then v else p j q) := by
  intro j
  rw [State.station_modStation]
  by_cases hj : j = k
  · subst hj
    have kept := congrArg (Option.map (fun x : Station => { x with pair := v })) (h j)
    rw [Option.map_map, Option.map_map] at kept
    rw [if_pos rfl, Option.map_map]
    simp only [if_true]
    exact kept
  · rw [if_neg hj]
    simp only [if_neg hj]
    exact h j

theorem State.markStation_untold (s : State) (k r : Nat) : s.stationsUntold (s.markStation k r) :=
  (Telling.untold s).mark k r (State.stationsUntold.refl s)

theorem State.repaired.repair {s t : State} {p : Nat → Option Nat → Option Nat} (h : s.repaired t p) (k : Nat)
    (v : Option Nat) : s.repaired (t.repair k v) (fun j q => if j = k then v else p j q) :=
  (h.modStation k v).told (State.markStation_untold _ _ _)

/-- The pairs are set that follow from a new pair of station k, before the notices (R48). -/
def State.pairSet (s : State) (k : Nat) (old new : Option Nat) : State :=
  let bOld := new.bind s.partnerOf
  let t := match old with | some p => s.repair p none | none => s
  let q := match bOld with | some q => if q = k then none else some q | none => none
  let t := match q with | some q => t.repair q none | none => t
  let t := t.modStation k (fun x => { x with pair := new })
  match new with | some b => t.repair b (some k) | none => t

theorem State.setPair_eq (s : State) (k : Nat) {old new : Option Nat} (h : old ≠ new) :
    ∃ cs, s.setPair k old new = (s.pairSet k old new).pairsChanged cs := by
  unfold State.setPair
  rw [if_neg h]
  exact ⟨_, rfl⟩

theorem State.setPair_same (s : State) (k : Nat) (p : Option Nat) : s.setPair k p p = s := by
  unfold State.setPair
  exact if_pos rfl

/-- The pair of station j once station k's has been set. -/
def State.pairAfter (s : State) (k : Nat) (old new : Option Nat) (j : Nat) (p : Option Nat) : Option Nat :=
  if new = some j then some k else if j = k then new
  else if old = some j ∨ new.bind s.partnerOf = some j then none else p

theorem State.pairAfter_own (s : State) {k b : Nat} (old p : Option Nat) : s.pairAfter k old (some b) k p = some b := by
  unfold State.pairAfter
  by_cases h : some b = some k
  · rw [if_pos h, h]
  · rw [if_neg h, if_pos rfl]

theorem State.pairAfter_other (s : State) {k j : Nat} (h : j ≠ k) (old new p : Option Nat) : s.pairAfter k old new j p =
    if new = some j then some k else if old = some j ∨ new.bind s.partnerOf = some j then none else p := by
  unfold State.pairAfter
  rw [if_neg h]

theorem State.repaired.congr {s t : State} {p q : Nat → Option Nat → Option Nat} (h : s.repaired t p)
    (e : ∀ j r, p j r = q j r) : s.repaired t q := by
  rwa [show q = p from funext fun j => funext fun r => (e j r).symm]

theorem State.pairSet_repaired (s : State) (k : Nat) (old new : Option Nat) :
    s.repaired (s.pairSet k old new) (s.pairAfter k old new) := by
  have start : s.repaired s (fun _ r => r) := fun _ => rfl
  have freed : s.repaired (match old with | some p => s.repair p none | none => s)
      (fun j r => if old = some j then none else r) := by
    cases old with
    | none => exact start.congr (fun j r => by simp)
    | some p => exact (start.repair p none).congr (fun j r => by simp [eq_comm])
  unfold State.pairSet State.pairAfter
  generalize (match old with | some p => s.repair p none | none => s) = t at freed
  generalize hb : new.bind s.partnerOf = bOld
  dsimp only
  have left : s.repaired (match (match bOld with | some q => if q = k then none else some q | none => none) with
      | some q => t.repair q none | none => t) (fun j r => if old = some j ∨ (j ≠ k ∧ bOld = some j) then none else r) := by
    cases bOld with
    | none => exact freed.congr (fun j r => by simp)
    | some q =>
      by_cases hq : q = k
      · subst hq
        simp only [if_true]
        refine freed.congr (fun j r => ?_)
        by_cases hj : j = q
        · simp [hj]
        · simp [hj, Ne.symm hj]
      · simp only [if_neg hq]
        refine (freed.repair q none).congr (fun j r => ?_)
        by_cases hj : j = q
        · simp [hj, hq]
        · simp [hj, Ne.symm hj]
  generalize (match (match bOld with | some q => if q = k then none else some q | none => none) with
      | some q => t.repair q none | none => t) = u at left
  have own := left.modStation k new
  cases new with
  | none =>
    refine own.congr (fun j r => ?_)
    by_cases hj : j = k <;> simp [hj]
  | some b =>
    refine (own.repair b (some k)).congr (fun j r => ?_)
    by_cases hj : j = b
    · simp [hj]
    · by_cases hk : j = k
      · subst hk
        simp [hj, Ne.symm hj]
      · simp [hj, hk, Ne.symm hj]

/-- A new pair of station k is made mutual, the old partners are freed, and no station changes else but for its mark, its
wanted lamp and its deliveries (R48, R93). -/
theorem State.setPair_repaired (s : State) (k : Nat) {old new : Option Nat} (h : old ≠ new) :
    s.repaired (s.setPair k old new) (s.pairAfter k old new) := by
  obtain ⟨cs, eq⟩ := s.setPair_eq k h
  rw [eq]
  exact (s.pairSet_repaired k old new).told ((Telling.untold _).pairsChanged (State.stationsUntold.refl _) cs)

/-- The new partner is marked. -/
theorem State.setPair_marks (s : State) (k : Nat) {old : Option Nat} {b : Nat} (h : old ≠ some b) {x : Station}
    (hx : s.station b = some x) : ∃ v, (s.setPair k old (some b)).station b = some v ∧ StationReason.pairChanged ∈ v.mark := by
  obtain ⟨cs, eq⟩ := s.setPair_eq k h
  rw [eq]
  refine (Telling.ofStation b (F := fun z => StationReason.pairChanged ∈ z.mark) ?_ ?_ ?_).pairsChanged ?_ cs
  · intro z kd base hz
    cases kd <;> exact hz
  · exact fun z r hz => mem_addReason_of_mem r hz
  · exact fun z l hz => hz
  · have set := s.pairSet_repaired k old (some b) b
    rw [hx] at set
    obtain ⟨v, hv, -⟩ := Option.map_eq_some_iff.1 set
    refine ⟨v, hv, ?_⟩
    unfold State.pairSet State.repair at hv
    dsimp only at hv
    rw [State.markStation, State.station_modStation, if_pos rfl] at hv
    obtain ⟨z, -, rfl⟩ := Option.map_eq_some_iff.1 hv
    exact mem_addReason_self _ _

/-- A change of pairs leaves the carriers and all else beside the conferences, the stations and their deliveries. -/
theorem State.setPair_frame (s : State) (k : Nat) (old new : Option Nat) :
    Only s (s.setPair k old new) ∧ (s.setPair k old new).carriers = s.carriers := by
  refine ⟨(Only.broad s).setPair (Only.refl s) k old new, ?_⟩
  by_cases h : old = new
  · rw [h, State.setPair_same]
  · obtain ⟨cs, eq⟩ := s.setPair_eq k h
    have told := ((Quiet.soft (s.pairSet k old new)).pairsChanged (Quiet.refl _) cs).2.1
    rw [eq, told]
    simp only [State.pairSet, State.repair, State.markStation]
    repeat' split
    all_goals simp only [State.modStation_carriers]

/-! ## DEFINE STATION -/

/-- The deliveries of a new station change only the bases of deliveries, and the queue. -/
theorem State.newStationDeliveries_told (s : State) (k : Nat) (x : Station) :
    s.stationsUntold (s.newStationDeliveries k x) := by
  have hc := Decides.untold s
  have dropped : s.stationsUntold (s.dropFinal .tune k) := fun _ => rfl
  have silent := hc.decideDelivery (hc.withdraw dropped (fun e =>
    e.kind = .tune && e.target = k && !e.detached && some e.unit != x.controlUnit)) .tune k
  unfold State.newStationDeliveries
  dsimp only
  split
  · exact hc.decideDelivery (hc.withFinals silent) _ _
  · exact silent

theorem State.newStationDeliveries_frame (s : State) (k : Nat) (x : Station) :
    Only s (s.newStationDeliveries k x) ∧ (s.newStationDeliveries k x).carriers = s.carriers := by
  have hc := Quiet.soft s
  have silent := hc.decideDelivery (hc.withdraw (hc.dropFinal (Quiet.refl s) .tune k) (fun e =>
    e.kind = .tune && e.target = k && !e.detached && some e.unit != x.controlUnit)) .tune k
  have whole : Quiet s (s.newStationDeliveries k x) := by
    unfold State.newStationDeliveries
    dsimp only
    split
    · exact hc.decideDelivery (hc.dropFinal silent .cueRoute k) _ _
    · exact silent
  exact ⟨whole.1, whole.2.1⟩

/-- A station is put into its slot, with its deliveries and its pair (R49). -/
def State.withStation (s : State) (k : Nat) (x : Station) : State :=
  (State.newStationDeliveries { s with stations := s.stations.put k { x with pair := none } } k x).setPair k none x.pair

/-- The new station is there, its pair is mutual, and no other station changes else but for its mark, its wanted lamp and its
deliveries. -/
theorem State.withStation_stations (s : State) {k : Nat} {x : Station} (hp : s.pairUnsuited k x.kind x.pair = false) :
    (∃ v, (s.withStation k x).station k = some v ∧ v.untold = x.untold) ∧
      (∀ j z, j ≠ k → s.station j = some z → ∃ v, (s.withStation k x).station j = some v ∧ v.untold =
        Station.untold { z with pair := if x.pair = some j then some k else if x.pair.bind s.partnerOf = some j then none
          else z.pair }) ∧
      (∀ j, x.pair = some j → ∃ v, (s.withStation k x).station j = some v ∧ StationReason.pairChanged ∈ v.mark) := by
  have told := State.newStationDeliveries_told { s with stations := s.stations.put k { x with pair := none } } k x
  have put : State.station { s with stations := s.stations.put k { x with pair := none } } k =
      some { x with pair := none } := Table.get_put_self _ _ _
  have away : ∀ j, j ≠ k → State.station { s with stations := s.stations.put k { x with pair := none } } j = s.station j :=
    fun j hj => (Table.get_put _ _ _ _).trans (if_neg hj)
  unfold State.withStation
  generalize State.newStationDeliveries { s with stations := s.stations.put k { x with pair := none } } k x = u at told
  obtain ⟨v, hv, same⟩ := told.station put
  cases hpair : x.pair with
  | none =>
    rw [State.setPair_same]
    refine ⟨⟨v, hv, ?_⟩, fun j z hj hz => ?_, nofun⟩
    · rw [same, ← hpair]
    · obtain ⟨w, hw, kept⟩ := told.station ((away j hj).trans hz)
      exact ⟨w, hw, by simpa using kept⟩
  | some b =>
    have suited : b ≠ k ∧ ∃ y, s.station b = some y := by
      simp only [State.pairUnsuited, hpair, Bool.or_eq_false_iff, decide_eq_false_iff_not] at hp
      refine ⟨hp.1, ?_⟩
      cases hy : s.station b with
      | none => cases hk : x.kind <;> simp [hy, hk] at hp
      | some y => exact ⟨y, rfl⟩
    obtain ⟨hb, y, hy⟩ := suited
    obtain ⟨w, hw, partner⟩ := told.station ((away b hb).trans hy)
    have pairOf : u.partnerOf b = s.partnerOf b := by
      rw [State.partnerOf, State.partnerOf, hw, hy]
      exact (congrArg Station.pair partner :)
    have paired := u.setPair_repaired k (old := none) (new := some b) nofun
    refine ⟨?_, fun j z hj hz => ?_, fun j hj => ?_⟩
    · have own := paired k
      rw [hv] at own
      obtain ⟨t, ht, set⟩ := Option.map_eq_some_iff.1 own
      refine ⟨t, ht, ?_⟩
      dsimp only at set
      rw [set, State.pairAfter_own]
      simp only [Station.untold, Station.mk.injEq] at same ⊢
      simp [same, hpair]
    · obtain ⟨v', hv', kept⟩ := told.station ((away j hj).trans hz)
      have other := paired j
      rw [hv'] at other
      obtain ⟨t, ht, set⟩ := Option.map_eq_some_iff.1 other
      refine ⟨t, ht, ?_⟩
      dsimp only at set
      rw [set, u.pairAfter_other hj]
      simp only [Option.bind_some, pairOf, reduceCtorEq, false_or]
      simp only [Station.untold, Station.mk.injEq] at kept ⊢
      simp [kept]
    · obtain rfl := Option.some.inj hj
      exact u.setPair_marks k nofun hw

theorem State.withStation_frame (s : State) (k : Nat) (x : Station) :
    Only { s with stations := s.stations.put k { x with pair := none } } (s.withStation k x) ∧
      (s.withStation k x).carriers = s.carriers := by
  obtain ⟨only, carriers⟩ :=
    State.newStationDeliveries_frame { s with stations := s.stations.put k { x with pair := none } } k x
  unfold State.withStation
  generalize State.newStationDeliveries { s with stations := s.stations.put k { x with pair := none } } k x = u at *
  obtain ⟨paired, same⟩ := u.setPair_frame k none x.pair
  exact ⟨only.trans paired, same.trans carriers⟩

/-- The state of an order but for its table of stations and its store state. -/
theorem State.besideStations_stations (s : State) (o : Order) (st : Table Station) :
    s.besideStations { (s.begun o).stationChanged with stations := st } := by
  obtain ⟨windows, galleries, settings, checkQueue, engine, machine⟩ := s.besideStations_begun o
  refine ⟨windows, galleries, settings, checkQueue, engine, ?_⟩
  cases machine
  constructor <;> assumption

end Sys2Proof.Machine

namespace Sys2Proof
open Machine

/-- Settles O26. -/
theorem defineStation : Obligations.DefineStation := by
  intro o s k words x ha h1 h96 hn hc hf hr hl hp
  have tests : firstFailing (([s.lacks o .station 4, failIf (!stationKey k) .key 1, failIf (s.station k).isSome .key 2] ++
      s.holds o) ++ stationRange (fieldIndex 11) (pairsOf o.params) words ++
      [failIf (s.pairUnsuited k x.kind x.pair) .state 3]) = none := by
    refine passes_append (passes_append (passes_append (passes_cons (State.lacks_fst ha.2.1 4) ?_)
      (State.passes_holds ha.2.2)) ?_) (passes_cons hp firstFailing_nil)
    · simp [stationKey, h1, h96, hn]
    · simp [stationRange, hf, hr, hl]
  have taken : exec (.defineStation o) s =
      .next (((s.begun o).stationChanged.withStation k x).answer (adjustedReply o (powerAdjusted words) 1)) :=
    congrArg Host.Outcome.next (State.takeOrder_takes ha.1 (evenCount_le hc) hc tests rfl rfl)
  obtain ⟨⟨v, hv, same⟩, others, marks⟩ := State.withStation_stations (s.begun o).stationChanged (k := k) (x := x) hp
  obtain ⟨only, carriers⟩ := (s.begun o).stationChanged.withStation_frame k x
  generalize (s.begun o).stationChanged.withStation k x = u at taken hv others marks only carriers
  have core : v.core = x.core := by
    simp only [Station.untold, Station.core, Station.mk.injEq] at same ⊢
    simp [same]
  refine ⟨_, v, taken, hv, core, (congrArg Station.delivered same :), (congrArg Station.accept same :),
    (congrArg Station.stack same :), (congrArg Station.cueRoute same :), fun j z hj hz => ?_, marks, carriers,
    only.besideStations (s.besideStations_stations o _) _, only.storeStates, ?_⟩
  · obtain ⟨w, hw, kept⟩ := others j z hj hz
    refine ⟨w, hw, ?_⟩
    simp only [Station.untold, Station.core, Station.mk.injEq] at kept ⊢
    simp [kept]
    rfl
  · rw [adjustedReply_eq]
    rfl

end Sys2Proof
end

section
/-! What a recompute makes of a conference (R106, R107). -/

namespace Sys2Proof.Machine

/-! ## Standings -/

theorem Conference.find_member {x : Conference} (hn : (x.members.map Member.id).Nodup) {m : Member} (hm : m ∈ x.members) :
    x.members.find? (fun n => n.id = m.id) = some m := by
  cases hf : x.members.find? (fun n => n.id = m.id) with
  | none =>
    have := List.find?_eq_none.1 hf m hm
    simp at this
  | some n =>
    have hid : n.id = m.id := by simpa using List.find?_some hf
    exact congrArg some (List.inj_on_of_nodup_map hn (List.mem_of_find?_eq_some hf) hm hid)

theorem Conference.standing_fixed {x : Conference} (hn : (x.members.map Member.id).Nodup) {p : Nat} {m : Member}
    (hm : m ∈ x.members) (hid : m.id = .station p) (hj : m.join = .fixed) : x.standing p = .fixed := by
  have found := Conference.find_member hn hm
  rw [hid] at found
  unfold Conference.standing
  rw [found]
  dsimp only
  rw [hj]

theorem Conference.standing_follow {x : Conference} (hn : (x.members.map Member.id).Nodup) {p : Nat} {m : Member}
    (hm : m ∈ x.members) (hid : m.id = .station p) (hj : m.join = .follow) : x.standing p = .follow := by
  have found := Conference.find_member hn hm
  rw [hid] at found
  unfold Conference.standing
  rw [found]
  dsimp only
  rw [hj]

theorem Conference.standing_absent {x : Conference} {p : Nat} (h : ∀ m ∈ x.members, m.id ≠ .station p) :
    x.standing p = if x.waiting.contains p then .waits else .out := by
  have none : x.members.find? (fun m => m.id = .station p) = none :=
    List.find?_eq_none.2 (fun m hm => by simpa using h m hm)
  unfold Conference.standing
  rw [none]

/-- A station in a conference is a member of it, fixed or by following, or it waits, or it is out. -/
theorem Conference.standing_cases {x : Conference} (hn : (x.members.map Member.id).Nodup) (p : Nat) :
    (∃ m ∈ x.members, m.id = .station p ∧ m.join = .fixed ∧ x.standing p = .fixed) ∨
      (∃ m ∈ x.members, m.id = .station p ∧ m.join = .follow ∧ x.standing p = .follow) ∨
      ((∀ m ∈ x.members, m.id ≠ .station p) ∧ p ∈ x.waiting ∧ x.standing p = .waits) ∨
      ((∀ m ∈ x.members, m.id ≠ .station p) ∧ p ∉ x.waiting ∧ x.standing p = .out) := by
  by_cases h : ∃ m ∈ x.members, m.id = .station p
  · obtain ⟨m, hm, hid⟩ := h
    cases hj : m.join with
    | fixed => exact .inl ⟨m, hm, hid, hj, Conference.standing_fixed hn hm hid hj⟩
    | follow => exact .inr (.inl ⟨m, hm, hid, hj, Conference.standing_follow hn hm hid hj⟩)
  · push Not at h
    have standing := Conference.standing_absent h
    by_cases hw : p ∈ x.waiting
    · exact .inr (.inr (.inl ⟨h, hw, by rw [standing, if_pos (by simpa using hw)]⟩))
    · exact .inr (.inr (.inr ⟨h, hw, by rw [standing, if_neg (by simpa using hw)]⟩))

/-! ## What each standing comes to -/

section
variable {x v : Conference} {p : Nat} {due : Nat → List Nat} {absent : Nat → Bool}

/-- A Fixed member is no matter of the recompute. -/
theorem Conference.followed_fixed (hn : (x.members.map Member.id).Nodup) {m : Member} (hm : m ∈ x.members)
    (hid : m.id = .station p) (hj : m.join = .fixed) (members : v.members = x.members) (waiting : v.waiting = x.waiting) :
    x.followed v p due absent where
  fixed _ _ _ _ := ⟨members, waiting⟩
  kept n hm' hid' hj' _ := by
    obtain rfl := List.inj_on_of_nodup_map hn hm hm' (hid.trans hid'.symm)
    rw [hj] at hj'
    cases hj'
  left n hm' hid' hj' _ := by
    obtain rfl := List.inj_on_of_nodup_map hn hm hm' (hid.trans hid'.symm)
    rw [hj] at hj'
    cases hj'
  waits none := absurd hid (none m hm)
  stays none := absurd hid (none m hm)
  joins none := absurd hid (none m hm)
  queued none := absurd hid (none m hm)
  denied none := absurd hid (none m hm)

/-- A Follow member keeps its place with its due reasons, or leaves when it has none. -/
theorem Conference.followed_follow (hn : (x.members.map Member.id).Nodup) {m : Member} (hm : m ∈ x.members)
    (hid : m.id = .station p) (hj : m.join = .follow)
    (kept : due p ≠ [] → v.members = x.members.map (fun m => if m.id = .station p then { m with reasons := due p } else m) ∧
      v.waiting = x.waiting)
    (left : due p = [] → 6 ∈ v.mark ∧
      (x.waiting = [] → v.members = x.members.filter (fun m => m.id != .station p) ∧ v.waiting = []) ∧
      (∀ q rest, x.waiting = q :: rest → due q ≠ [] → 4 ∈ v.mark ∧ v.waiting = rest ∧
        v.members = x.members.filter (fun m => m.id != .station p) ++
          [⟨.station q, true, true, 0, .follow, due q, absent q⟩])) :
    x.followed v p due absent where
  fixed n hm' hid' hj' := by
    obtain rfl := List.inj_on_of_nodup_map hn hm hm' (hid.trans hid'.symm)
    rw [hj] at hj'
    cases hj'
  kept _ _ _ _ := kept
  left _ _ _ _ := left
  waits none := absurd hid (none m hm)
  stays none := absurd hid (none m hm)
  joins none := absurd hid (none m hm)
  queued none := absurd hid (none m hm)
  denied none := absurd hid (none m hm)

/-- A waiting station stays, or is dropped when it has no due reasons. -/
theorem Conference.followed_waits (h : ∀ m ∈ x.members, m.id ≠ .station p) (hw : p ∈ x.waiting)
    (members : v.members = x.members) (kept : due p ≠ [] → v.waiting = x.waiting)
    (dropped : due p = [] → v.waiting = x.waiting.filter (· != p) ∧ 6 ∈ v.mark) : x.followed v p due absent where
  fixed m hm hid := absurd hid (h m hm)
  kept m hm hid := absurd hid (h m hm)
  left m hm hid := absurd hid (h m hm)
  waits _ _ := ⟨members, kept, dropped⟩
  stays _ out := absurd hw out
  joins _ out := absurd hw out
  queued _ out := absurd hw out
  denied _ out := absurd hw out

/-- A station that is out joins, waits or is denied, or stays out when it has no due reasons. -/
theorem Conference.followed_out (h : ∀ m ∈ x.members, m.id ≠ .station p) (hw : p ∉ x.waiting)
    (stays : due p = [] → v.members = x.members ∧ v.waiting = x.waiting)
    (joins : due p ≠ [] → x.members.length < 16 →
      v.members = x.members ++ [⟨.station p, true, true, 0, .follow, due p, absent p⟩] ∧ v.waiting = x.waiting ∧ 4 ∈ v.mark)
    (queued : due p ≠ [] → 16 ≤ x.members.length → x.waiting.length < 8 →
      v.members = x.members ∧ v.waiting = x.waiting ++ [p] ∧ 5 ∈ v.mark)
    (denied : due p ≠ [] → 16 ≤ x.members.length → 8 ≤ x.waiting.length →
      v.members = x.members ∧ v.waiting = x.waiting) : x.followed v p due absent where
  fixed m hm hid := absurd hid (h m hm)
  kept m hm hid := absurd hid (h m hm)
  left m hm hid := absurd hid (h m hm)
  waits _ waits := absurd waits hw
  stays _ _ := stays
  joins _ _ := joins
  queued _ _ := queued
  denied _ _ := denied

end

/-! ## The recompute -/

/-- A reason that a conference has is kept while its wait list is served. -/
theorem serveList_marked {s : State} {c r : Nat} (h : ∃ z, s.conference c = some z ∧ r ∈ z.mark) (ov : FollowOverride)
    (silent : Bool) (ps : List Nat) : ∃ z, (serveList ov silent c ps s).conference c = some z ∧ r ∈ z.mark := by
  have mod : ∀ {t : State} {f : Conference → Conference}, (∀ x, r ∈ x.mark → r ∈ (f x).mark) →
      (∃ z, t.conference c = some z ∧ r ∈ z.mark) → ∃ z, (t.modConference c f).conference c = some z ∧ r ∈ z.mark := by
    rintro t f hf ⟨z, hz, marked⟩
    exact ⟨_, State.conference_of_mod hz f, hf z marked⟩
  have mark : ∀ {t : State} (q : Nat), (∃ z, t.conference c = some z ∧ r ∈ z.mark) →
      ∃ z, (t.markConference c q).conference c = some z ∧ r ∈ z.mark :=
    fun q => mod (fun x hx => mem_addReason_of_mem q hx)
  induction ps generalizing s with
  | nil => exact h
  | cons p rest ih =>
    have shorter := mod (f := fun x => { x with waiting := rest }) (fun _ hx => hx) h
    unfold serveList
    dsimp only
    split
    · exact ih (mark _ shorter)
    · split
      · exact mod (fun _ hx => hx) shorter
      · refine mark _ (mod ?_ shorter)
        exact fun _ hx => hx

/-- The oldest waiting station that is still due joins, with its reason (R107). -/
theorem serveList_joins_marked {s : State} {c q : Nat} {rest : List Nat} {x : Conference} (hx : s.conference c = some x)
    {ov : FollowOverride} (hd : s.dueReasons ov q c ≠ []) :
    ∃ z, (serveList ov false c (q :: rest) s).conference c = some z ∧ ConferenceReason.followJoined ∈ z.mark := by
  have shorter := State.conference_of_mod hx (fun x => { x with waiting := rest })
  unfold serveList
  dsimp only
  rw [State.dueReasons_besideConference]
  cases hr : s.dueReasons ov q c with
  | nil => exact absurd hr hd
  | cons g gs =>
    exact ⟨_, State.conference_of_mod (State.conference_of_mod shorter _) _, mem_addReason_self _ _⟩

/-- A conference but for what its routing is. -/
theorem Conference.followed.rerouted {x v : Conference} {p : Nat} {due : Nat → List Nat} {absent : Nat → Bool}
    (h : x.followed v p due absent) (r : Routing) (b : DeliveryBase) :
    x.followed { v with routing := r, routingBase := b } p due absent :=
  ⟨h.fixed, h.kept, h.left, h.waits, h.stays, h.joins, h.queued, h.denied⟩

/-- What a step on one conference, beside a mark of the station, comes to. -/
structure State.followedTo (s t : State) (p c : Nat) (x : Conference) (due : Nat → List Nat) : Prop where
  held : ∃ v, t.conference c = some v ∧ x.followed v p due (fun q => s.absentNow (.station q))
  denied : (∀ m ∈ x.members, m.id ≠ .station p) → p ∉ x.waiting → due p ≠ [] → 16 ≤ x.members.length →
    8 ≤ x.waiting.length → ∃ v, t.station p = some v ∧ StationReason.followDenied ∈ v.mark

/-- A Follow member leaves, and its wait list is served (R106, R107). -/
theorem State.followLeaves_follow {s : State} {c p : Nat} {x : Conference} (hx : s.conference c = some x)
    (hn : (x.members.map Member.id).Nodup) {ov : FollowOverride} (hd : s.dueReasons ov p c = []) {m : Member}
    (hm : m ∈ x.members) (hid : m.id = .station p) (hj : m.join = .follow) :
    s.followedTo (s.followLeaves ov p c .follow) p c x (s.dueReasons ov · c) := by
  have dropped := State.conference_of_mod (State.conference_of_mod hx (fun x => x.dropMember (.station p)))
    (fun x => { x with mark := addReason ConferenceReason.followLeft x.mark })
  have follows : (s.followLeaves ov p c .follow) = State.recomputeRouting (State.serveWaitList
      ((s.modConference c (fun x => x.dropMember (.station p))).markConference c ConferenceReason.followLeft) ov false c) c :=
    rfl
  have due : ∀ q, State.dueReasons ((s.modConference c (fun x => x.dropMember (.station p))).markConference c
      ConferenceReason.followLeft) ov q c = s.dueReasons ov q c := fun _ => rfl
  have absent : ∀ q, State.absentNow ((s.modConference c (fun x => x.dropMember (.station p))).markConference c
      ConferenceReason.followLeft) (.station q) = s.absentNow (.station q) := fun _ => rfl
  rw [follows]
  change State.conference ((s.modConference c (fun x => x.dropMember (.station p))).markConference c
      ConferenceReason.followLeft) c = _ at dropped
  generalize (s.modConference c (fun x => x.dropMember (.station p))).markConference c ConferenceReason.followLeft = u at *
  unfold State.serveWaitList
  rw [dropped]
  dsimp only
  have marked := serveList_marked (s := u) ⟨_, dropped, mem_addReason_self ConferenceReason.followLeft _⟩ ov false
    (x.dropMember (.station p)).waiting
  obtain ⟨w, hw, left⟩ := marked
  obtain ⟨-, b, held⟩ := State.recomputeRouting_rerouted hw
  refine ⟨⟨_, held, Conference.followed.rerouted (Conference.followed_follow hn hm hid hj (fun h => absurd hd h)
    (fun _ => ⟨left, fun empty => ?_, fun q rest list dueq => ?_⟩)) _ _⟩, fun none => absurd hid (none m hm)⟩
  · rw [show (x.dropMember (.station p)).waiting = [] from empty, serveList, dropped] at hw
    obtain rfl := Option.some.inj hw
    exact ⟨rfl, empty⟩
  · rw [show (x.dropMember (.station p)).waiting = q :: rest from list] at hw
    rw [← due q] at dueq
    obtain ⟨z, hz, waiting, -, members⟩ := serveList_joins (rest := rest) dropped dueq false
    obtain ⟨z', hz', joined⟩ := serveList_joins_marked (rest := rest) dropped dueq
    obtain rfl := Option.some.inj (hz.symm.trans hw)
    obtain rfl := Option.some.inj (hz.symm.trans hz')
    refine ⟨joined, waiting, ?_⟩
    rw [members, due, absent]
    rfl

/-- A recompute that finds nothing to do. -/
theorem State.followedTo_refl {s : State} {c p : Nat} {x : Conference} (hx : s.conference c = some x)
    {due : Nat → List Nat} (h : x.followed x p due (fun q => s.absentNow (.station q))) (hd : due p = []) :
    s.followedTo s p c x due :=
  ⟨⟨x, hx, h⟩, fun _ _ due => absurd hd due⟩

/-- A station without due reasons (R106). -/
theorem State.followLeaves_followedTo {s : State} {c p : Nat} {x : Conference} (hx : s.conference c = some x)
    (hn : (x.members.map Member.id).Nodup) {ov : FollowOverride} (hd : s.dueReasons ov p c = []) :
    s.followedTo (s.followLeaves ov p c (x.standing p)) p c x (s.dueReasons ov · c) := by
  rcases Conference.standing_cases hn p with ⟨m, hm, hid, hj, st⟩ | ⟨m, hm, hid, hj, st⟩ | ⟨out, hw, st⟩ | ⟨out, hw, st⟩
  · rw [st]
    exact State.followedTo_refl hx (Conference.followed_fixed hn hm hid hj rfl rfl) hd
  · rw [st]
    exact State.followLeaves_follow hx hn hd hm hid hj
  · rw [st]
    have dropped := State.conference_of_mod (State.conference_of_mod hx
      (fun x => { x with waiting := x.waiting.filter (· != p) }))
      (fun x => { x with mark := addReason ConferenceReason.followLeft x.mark })
    exact ⟨⟨_, dropped, Conference.followed_waits out hw rfl (fun h => absurd hd h)
      (fun _ => ⟨rfl, mem_addReason_self _ _⟩)⟩, fun _ gone => absurd hw gone⟩
  · rw [st]
    exact State.followedTo_refl hx (Conference.followed_out out hw (fun _ => ⟨rfl, rfl⟩) (fun h => absurd hd h)
      (fun h => absurd hd h) (fun h => absurd hd h)) hd

/-- A station with due reasons is there. -/
theorem State.station_of_due {s : State} {ov : FollowOverride} {p c : Nat} (h : s.dueReasons ov p c ≠ []) :
    ∃ y, s.station p = some y := by
  cases hp : s.station p with
  | some y => exact ⟨y, rfl⟩
  | none =>
    refine absurd ?_ h
    unfold State.dueReasons State.cameraOf
    rw [hp]

/-- A station with due reasons that is out (R106). -/
theorem State.followJoins_out {s : State} {c p : Nat} {x : Conference} (hx : s.conference c = some x)
    (out : ∀ m ∈ x.members, m.id ≠ .station p) (hw : p ∉ x.waiting) {ov : FollowOverride}
    (hd : s.dueReasons ov p c ≠ []) :
    s.followedTo (s.followJoins p c x (s.dueReasons ov p c) .out) p c x (s.dueReasons ov · c) := by
  unfold State.followJoins
  dsimp only
  by_cases room : x.members.length < Config.memberMax
  · rw [if_pos room]
    have joined := State.conference_of_mod (State.conference_of_mod hx
      (fun x => { x with members := x.members ++ [s.followMember p (s.dueReasons ov p c)] }))
      (fun x => { x with mark := addReason ConferenceReason.followJoined x.mark })
    obtain ⟨-, b, held⟩ := State.recomputeRouting_rerouted joined
    have follows : x.followed { x with
        members := x.members ++ [s.followMember p (s.dueReasons ov p c)]
        mark := addReason ConferenceReason.followJoined x.mark } p (s.dueReasons ov · c)
        (fun q => s.absentNow (.station q)) :=
      Conference.followed_out out hw (fun h => absurd h hd) (fun _ _ => ⟨rfl, rfl, mem_addReason_self _ _⟩)
        (fun _ full => absurd room (Nat.not_lt.2 full)) (fun _ full => absurd room (Nat.not_lt.2 full))
    exact ⟨⟨_, held, follows.rerouted _ _⟩, fun _ _ _ full => absurd room (Nat.not_lt.2 full)⟩
  · have full : 16 ≤ x.members.length := Nat.not_lt.1 room
    rw [if_neg room]
    by_cases waits : x.waiting.length < Config.waitMax
    · rw [if_pos waits]
      have queued := State.conference_of_mod (State.conference_of_mod hx (fun x => { x with waiting := x.waiting ++ [p] }))
        (fun x => { x with mark := addReason ConferenceReason.followWaiting x.mark })
      exact ⟨⟨_, queued, Conference.followed_out out hw (fun h => absurd h hd) (fun _ h => absurd h room)
        (fun _ _ _ => ⟨rfl, rfl, mem_addReason_self _ _⟩) (fun _ _ h => absurd waits (Nat.not_lt.2 h))⟩,
        fun _ _ _ _ h => absurd waits (Nat.not_lt.2 h)⟩
    · rw [if_neg waits]
      obtain ⟨y, hy⟩ := State.station_of_due hd
      exact ⟨⟨x, hx, Conference.followed_out out hw (fun h => absurd h hd) (fun _ h => absurd h room)
        (fun _ _ h => absurd h waits) (fun _ _ _ => ⟨rfl, rfl⟩)⟩,
        fun _ _ _ _ _ => ⟨_, State.station_markStation hy _, mem_addReason_self _ _⟩⟩

/-- A station with due reasons (R106). -/
theorem State.followJoins_followedTo {s : State} {c p : Nat} {x : Conference} (hx : s.conference c = some x)
    (hn : (x.members.map Member.id).Nodup) {ov : FollowOverride} (hd : s.dueReasons ov p c ≠ []) :
    s.followedTo (s.followJoins p c x (s.dueReasons ov p c) (x.standing p)) p c x (s.dueReasons ov · c) := by
  rcases Conference.standing_cases hn p with ⟨m, hm, hid, hj, st⟩ | ⟨m, hm, hid, hj, st⟩ | ⟨out, hw, st⟩ | ⟨out, hw, st⟩
  · rw [st]
    exact ⟨⟨x, hx, Conference.followed_fixed hn hm hid hj rfl rfl⟩, fun none => absurd hid (none m hm)⟩
  · rw [st]
    exact ⟨⟨_, State.conference_of_mod hx _, Conference.followed_follow hn hm hid hj (fun _ => ⟨rfl, rfl⟩)
      (fun h => absurd h hd)⟩, fun none => absurd hid (none m hm)⟩
  · rw [st]
    exact ⟨⟨x, hx, Conference.followed_waits out hw rfl (fun _ => rfl) (fun h => absurd h hd)⟩,
      fun _ gone => absurd hw gone⟩
  · rw [st]
    exact State.followJoins_out hx out hw hd

/-- A recompute of a station in a conference (R106). -/
theorem State.recomputeFollow_followedTo {s : State} {c : Nat} {x : Conference} (hx : s.conference c = some x)
    (hn : (x.members.map Member.id).Nodup) (ov : FollowOverride) (p : Nat) :
    s.followedTo (s.recomputeFollow ov p c) p c x (s.dueReasons ov · c) := by
  unfold State.recomputeFollow
  rw [hx]
  dsimp only
  by_cases hd : s.dueReasons ov p c = []
  · rw [if_pos (by simp [hd])]
    exact State.followLeaves_followedTo hx hn hd
  · rw [if_neg (by simpa using hd)]
    exact State.followJoins_followedTo hx hn hd

/-- A recompute in one conference leaves the others. -/
theorem State.recomputeFollow_others (s : State) (ov : FollowOverride) (p c : Nat) {d : Nat} (hd : d ≠ c) :
    (s.recomputeFollow ov p c).conference d = s.conference d := by
  have mod : ∀ (t : State) (f : Conference → Conference), (t.modConference c f).conference d = t.conference d := fun t f => by
    rw [State.conference_modConference, if_neg hd]
  have mark : ∀ (t : State) (r : Nat), (t.markConference c r).conference d = t.conference d := fun t r => mod t _
  have routed : ∀ t : State, (t.recomputeRouting c).conference d = t.conference d := by
    intro t
    cases hx : t.conference c with
    | none =>
      have nothing : t.recomputeRouting c = t := by
        unfold State.recomputeRouting
        rw [hx]
      rw [nothing]
    | some x => exact (State.recomputeRouting_rerouted hx).1.others d hd
  have served : ∀ (t : State) (b : Bool), (t.serveWaitList ov b c).conference d = t.conference d := by
    intro t b
    unfold State.serveWaitList
    cases hx : t.conference c with
    | none => rfl
    | some x =>
      exact (serveList_edits (s := t) (k := c) ⟨State.besideConference.refl t c, _, hx, rfl, rfl, rfl⟩ ov b
        x.waiting).beside.others d hd
  unfold State.recomputeFollow
  cases hx : s.conference c with
  | none => rfl
  | some x =>
    dsimp only
    split
    · unfold State.followLeaves
      cases x.standing p with
      | fixed => rfl
      | out => rfl
      | follow => exact (routed _).trans ((served _ _).trans ((mark _ _).trans (mod _ _)))
      | waits => exact (mark _ _).trans (mod _ _)
    · unfold State.followJoins
      cases x.standing p with
      | fixed => rfl
      | waits => rfl
      | follow => exact mod _ _
      | out =>
        dsimp only
        split
        · exact (routed _).trans ((mark _ _).trans (mod _ _))
        · split
          · exact (mark _ _).trans (mod _ _)
          · rfl

end Sys2Proof.Machine
end

section
/-! Recomputes of a station over the conferences (R106 to R111). -/

namespace Sys2Proof.Machine

/-! ## What the due reasons are read of -/

/-- The contributing galleries of the Camera that a Beltpack's pair names. -/
def State.pairContributes (s : State) (p : Nat) : Option (List Nat) := (s.cameraOf p).map (fun q => q.2.contributing)

theorem State.dueReasons_eq (s : State) (ov : FollowOverride) (p c : Nat) : s.dueReasons ov p c =
    (s.pairContributes p).elim [] (fun l =>
      (upTo 8).filter (fun g => (s.gallery g).isSome && s.followOf ov g = some c && l.contains g)) := by
  unfold State.dueReasons State.pairContributes
  cases s.cameraOf p <;> rfl

theorem State.pairContributes_untold {s t : State} (h : s.stationsUntold t) (p : Nat) :
    t.pairContributes p = s.pairContributes p := by
  have station : ∀ j, (t.station j).map (fun x => (x.kind, x.pair, x.contributing)) =
      (s.station j).map (fun x => (x.kind, x.pair, x.contributing)) := h.map (fun _ => rfl)
  have partner := fun k => station k
  have own := station p
  unfold State.pairContributes State.cameraOf
  cases hs : s.station p with
  | none =>
    rw [hs] at own
    rw [Option.map_eq_none_iff.1 own]
  | some x =>
    rw [hs] at own
    obtain ⟨y, hy, same⟩ := Option.map_eq_some_iff.1 own
    simp only [Prod.mk.injEq] at same
    rw [hy]
    dsimp only
    rw [same.1, same.2.1]
    cases x.kind <;> cases x.pair <;> dsimp only
    rename_i k
    have other := partner k
    cases hk : s.station k with
    | none =>
      rw [hk] at other
      rw [Option.map_eq_none_iff.1 other]
    | some v =>
      rw [hk] at other
      obtain ⟨w, hw, bond⟩ := Option.map_eq_some_iff.1 other
      simp only [Prod.mk.injEq] at bond
      rw [hw]
      dsimp only
      rw [bond.1]
      split
      · simp [bond.2.2]
      · rfl

/-- The due reasons stand while the stations keep what the notices do not set, and the galleries stand. -/
theorem State.dueReasons_untold {s t : State} (h : s.stationsUntold t) (hg : t.galleries = s.galleries) (ov : FollowOverride)
    (p c : Nat) : t.dueReasons ov p c = s.dueReasons ov p c := by
  rw [State.dueReasons_eq, State.dueReasons_eq, State.pairContributes_untold h]
  unfold State.followOf State.gallery
  rw [hg]

theorem State.absentNow_of_links {s t : State} (h : ∀ j, (t.station j).map Station.link = (s.station j).map Station.link)
    (p : Nat) : t.absentNow (.station p) = s.absentNow (.station p) := by
  have link := h p
  unfold State.absentNow
  dsimp only
  cases hs : s.station p with
  | none =>
    rw [hs] at link
    rw [Option.map_eq_none_iff.1 link]
  | some x =>
    rw [hs] at link
    obtain ⟨y, hy, same⟩ := Option.map_eq_some_iff.1 link
    rw [hy]
    dsimp only
    rw [same]

theorem State.absentNow_untold {s t : State} (h : s.stationsUntold t) (p : Nat) :
    t.absentNow (.station p) = s.absentNow (.station p) := State.absentNow_of_links (h.map (fun _ => rfl)) p

/-! ## A step among notices -/

/-- Notices before the step, which leave the conference, do not bear on it. -/
theorem State.followedTo.before {s u t : State} {p c : Nat} {x : Conference} {due : Nat → List Nat}
    (h : u.followedTo t p c x due) (ha : ∀ q, u.absentNow (.station q) = s.absentNow (.station q)) :
    s.followedTo t p c x due := by
  obtain ⟨v, hv, follows⟩ := h.held
  refine ⟨⟨v, hv, ?_⟩, h.denied⟩
  rwa [show (fun q => s.absentNow (.station q)) = _ from (funext ha).symm]

/-- Notices after the step, which leave the conference, do not bear on it. -/
theorem State.followedTo.after {s t u : State} {p c : Nat} {x : Conference} {due : Nat → List Nat}
    (h : s.followedTo t p c x due) (hc : u.conference c = t.conference c)
    (hm : (∃ v, t.station p = some v ∧ StationReason.followDenied ∈ v.mark) →
      ∃ v, u.station p = some v ∧ StationReason.followDenied ∈ v.mark) : s.followedTo u p c x due :=
  ⟨hc ▸ h.held, fun out waits due full long => hm (h.denied out waits due full long)⟩

/-- That a station has a reason. -/
theorem Telling.marked (k r : Nat) : Telling (fun t => ∃ v, t.station k = some v ∧ r ∈ v.mark) :=
  Telling.ofStation k (F := fun v => r ∈ v.mark) (fun x kd b h => by cases kd <;> exact h)
    (fun x q h => mem_addReason_of_mem q h) (fun _ _ h => h)

theorem State.recomputeFollow_untold (s : State) (ov : FollowOverride) (p c : Nat) :
    s.stationsUntold (s.recomputeFollow ov p c) := (Telling.untold s).recomputeFollow (State.stationsUntold.refl s) ov p c

theorem State.recomputeFollow_only (s : State) (ov : FollowOverride) (p c : Nat) : Only s (s.recomputeFollow ov p c) :=
  (Only.broad s).soft.recomputeFollow (Only.refl s) ov p c

/-- A loop over the conferences that recomputes a station in some of them: what it comes to in one that its step
recomputes, or in which nothing is to be done. -/
theorem State.forEach_follows {s : State} {ov : FollowOverride} {p c : Nat} {x : Conference} (hx : s.conference c = some x)
    (hn : (x.members.map Member.id).Nodup) {f : State → Nat → State}
    (hf : ∀ t d, f t d = t.recomputeFollow ov p d ∨ f t d = t)
    (hat : ∀ t, s.stationsUntold t → Only s t → t.conference c = some x → f t c = t.recomputeFollow ov p c ∨
      (s.dueReasons ov p c = [] ∧ f t c = t ∧ (x.standing p = .fixed ∨ x.standing p = .out)))
    {cs : List Nat} (hc : c ∈ cs) (hd : cs.Nodup) :
    s.followedTo (s.forEach cs f) p c x (s.dueReasons ov · c) := by
  obtain ⟨as, bs, rfl⟩ := List.append_of_mem hc
  have fresh : c ∉ bs := (List.nodup_cons.1 (List.nodup_append.1 hd).2.1).1
  have fresh' : c ∉ as := fun h => (List.nodup_append.1 hd).2.2 c h c List.mem_cons_self rfl
  have step : ∀ (l : List Nat) (t : State), c ∉ l → t.stationsUntold (t.forEach l f) ∧ Only t (t.forEach l f) ∧
      (t.forEach l f).conference c = t.conference c ∧
      ((∃ v, t.station p = some v ∧ StationReason.followDenied ∈ v.mark) →
        ∃ v, (t.forEach l f).station p = some v ∧ StationReason.followDenied ∈ v.mark) := by
    intro l
    induction l with
    | nil => exact fun t _ => ⟨State.stationsUntold.refl t, Only.refl t, rfl, id⟩
    | cons d l ih =>
      intro t hl
      rw [List.mem_cons, not_or] at hl
      have first : t.stationsUntold (f t d) ∧ Only t (f t d) ∧ (f t d).conference c = t.conference c ∧
          ((∃ v, t.station p = some v ∧ StationReason.followDenied ∈ v.mark) →
            ∃ v, (f t d).station p = some v ∧ StationReason.followDenied ∈ v.mark) := by
        rcases hf t d with h | h
        · rw [h]
          exact ⟨t.recomputeFollow_untold ov p d, t.recomputeFollow_only ov p d, t.recomputeFollow_others ov p d hl.1,
            fun m => (Telling.marked p _).recomputeFollow m ov p d⟩
        · rw [h]
          exact ⟨State.stationsUntold.refl t, Only.refl t, rfl, id⟩
      obtain ⟨told, only, same, marks⟩ := ih (f t d) hl.2
      rw [State.forEach_cons]
      exact ⟨first.1.trans told, first.2.1.trans only, same.trans first.2.2.1, fun m => marks (first.2.2.2 m)⟩
  obtain ⟨told, only, same, -⟩ := step as s fresh'
  have split : s.forEach (as ++ c :: bs) f = (f (s.forEach as f) c).forEach bs f := by
    simp [State.forEach]
  rw [split]
  generalize s.forEach as f = u at *
  obtain ⟨-, -, after, marks⟩ := step bs (f u c) fresh
  have held := same.trans hx
  have reasons : ∀ q, u.dueReasons ov q c = s.dueReasons ov q c := fun q =>
    State.dueReasons_untold told only.galleries ov q c
  have here : s.followedTo (f u c) p c x (s.dueReasons ov · c) := by
    rcases hat u told only held with h | ⟨none, h, standing⟩
    · rw [h]
      have followed := (State.recomputeFollow_followedTo held hn ov p).before (s := s) (State.absentNow_untold told)
      rwa [show (s.dueReasons ov · c) = _ from (funext reasons).symm]
    · rw [h]
      refine (State.followedTo_refl (p := p) (due := (s.dueReasons ov · c)) held ?_ none).before (State.absentNow_untold told)
      rcases Conference.standing_cases hn p with ⟨m, hm, hid, hj, _⟩ | ⟨m, hm, hid, hj, st⟩ | ⟨out, hw, st⟩ | ⟨out, hw, st⟩
      · exact Conference.followed_fixed hn hm hid hj rfl rfl
      · rw [st] at standing
        rcases standing with h | h <;> cases h
      · rw [st] at standing
        rcases standing with h | h <;> cases h
      · exact Conference.followed_out out hw (fun _ => ⟨rfl, rfl⟩) (fun h => absurd none h) (fun h => absurd none h)
          (fun h => absurd none h)
  exact here.after after marks

/-- A recompute in every conference that a test picks, and wherever the station is a Follow member or waits: none else has it
due. -/
theorem State.recomputeEverywhere_followedTo {s : State} {p c : Nat} {x : Conference} (hx : s.conference c = some x)
    (hn : (x.members.map Member.id).Nodup) {also : State → Nat → Bool} (h1 : 1 ≤ c) (h24 : c ≤ 24)
    (hd : ∀ t, s.stationsUntold t → Only s t → also t c = false → s.dueReasons none p c = []) :
    s.followedTo (s.recomputeEverywhere none p also) p c x (s.dueReasons none · c) := by
  refine State.forEach_follows (ov := none) hx hn (fun t d => ?_) (fun t told only held => ?_) (mem_upTo.2 ⟨h1, h24⟩)
    (upTo_nodup 24)
  · split
    · exact .inr rfl
    · split
      · exact .inl rfl
      · exact .inr rfl
  · rw [held]
    dsimp only
    split
    · exact .inl rfl
    · rename_i h
      simp only [Bool.or_eq_true, decide_eq_true_eq, not_or] at h
      obtain ⟨⟨follow, waits⟩, none⟩ := h
      refine .inr ⟨hd t told only (by simpa using none), rfl, ?_⟩
      cases hst : x.standing p with
      | fixed => exact .inl rfl
      | out => exact .inr rfl
      | follow => exact absurd hst follow
      | waits => exact absurd hst waits

end Sys2Proof.Machine
end

section
/-! EDIT STATION (R50). -/

namespace Sys2Proof.Machine

/-! ## The parts of an edit -/

/-- Station k is v but for its mark, its wanted lamp and its deliveries; beside it only those of the other stations, and the
deliveries of the conferences, are others. -/
structure State.reshaped (s t : State) (k : Nat) (v : Station) : Prop where
  only : Only s t
  carriers : t.carriers = s.carriers
  own : ∃ z, t.station k = some z ∧ z.untold = v.untold
  others : ∀ j, j ≠ k → (t.station j).map Station.untold = (s.station j).map Station.untold
  conferences : s.conferencesUnrouted t

theorem State.reshaped.start {s : State} {k : Nat} {x : Station} (hx : s.station k = some x) : s.reshaped s k x :=
  ⟨rfl, rfl, ⟨x, hx, rfl⟩, fun _ _ => rfl, State.conferencesUnrouted.refl s⟩

theorem State.reshaped.modStation {s t : State} {k : Nat} {v : Station} (h : s.reshaped t k v) {f : Station → Station}
    (hf : ∀ x y, x.untold = y.untold → (f x).untold = (f y).untold) : s.reshaped (t.modStation k f) k (f v) := by
  obtain ⟨z, hz, same⟩ := h.own
  refine ⟨(Only.broad s).modStation h.only, h.carriers, ⟨_, State.station_of_mod hz f, hf z v same⟩, fun j hj => ?_,
    h.conferences⟩
  rw [State.station_modStation, if_neg hj]
  exact h.others j hj

theorem State.reshaped.decided {s t : State} {k : Nat} {v : Station} (h : s.reshaped t k v) {u : State} (hq : Quiet t u)
    (ht : t.stationsUntold u) (hc : t.conferencesUnrouted u) : s.reshaped u k v := by
  obtain ⟨z, hz, same⟩ := h.own
  obtain ⟨w, hw, kept⟩ := ht.station hz
  exact ⟨h.only.trans hq.1, hq.2.1.trans h.carriers, ⟨w, hw, kept.trans same⟩, fun j hj => (ht j).trans (h.others j hj),
    fun c => (hc c).trans (h.conferences c)⟩

/-- The deciding of deliveries, after a change. -/
theorem State.reshaped.hand {s t : State} {k : Nat} {v : Station} (h : s.reshaped t k v) (kd : DeliveryKind) (j : Nat) :
    s.reshaped (t.hand kd j) k v :=
  h.decided ((Quiet.soft t).hand (Quiet.refl t) kd j) ((Telling.untold t).hand (State.stationsUntold.refl t) kd j)
    ((State.conferencesUnrouted.decides t).hand (State.conferencesUnrouted.refl t) kd j)

/-- A new control unit, taken while Parked: nothing is delivered through it (R50, R153). -/
theorem State.reshaped.changeControlUnit {s t : State} {k : Nat} {v : Station} (h : s.reshaped t k v) (a : Option Nat) :
    s.reshaped (t.changeControlUnit k a) k { v with controlUnit := a, delivered := none } := by
  have changed := h.modStation (f := fun x => { x with controlUnit := a, delivered := none, tuneBase := .waiting }) (by
    intro x y hxy
    simp only [Station.untold, Station.mk.injEq] at hxy ⊢
    simp [hxy])
  have told : s.reshaped (t.modStation k (fun x => { x with controlUnit := a, delivered := none, tuneBase := .waiting })) k
      { v with controlUnit := a, delivered := none } := ⟨changed.only, changed.carriers, changed.own, changed.others,
    changed.conferences⟩
  unfold State.changeControlUnit
  dsimp only
  generalize t.modStation k (fun x => { x with controlUnit := a, delivered := none, tuneBase := .waiting }) = u at told
  exact told.decided
    ((Quiet.soft u).decideDelivery ((Quiet.soft u).withdraw (Quiet.refl u) _) _ _)
    ((Decides.untold u).decideDelivery ((Decides.untold u).withdraw (State.stationsUntold.refl u) _) _ _)
    ((State.conferencesUnrouted.decides u).decideDelivery
      ((State.conferencesUnrouted.decides u).withdraw (State.conferencesUnrouted.refl u) _) _ _)

/-- A new power is wanted at once while Parked (R50). -/
theorem State.reshaped.changePower {s t : State} {k : Nat} {v x : Station} (h : s.reshaped t k v) (hl : x.link = .parked)
    (power : Nat) :
    s.reshaped (t.changePower k x power) k { v with power := power, wanted := { v.wanted with power := power } } := by
  have changed := h.modStation (f := fun x => { x with power := power, wanted := { x.wanted with power := power } }) (by
    intro x y hxy
    simp only [Station.untold, Station.mk.injEq] at hxy ⊢
    simp [hxy])
  have parked : t.changePower k x power =
      (t.modStation k (fun x => { x with power := power, wanted := { x.wanted with power := power } })).hand .tune k := by
    unfold State.changePower
    rw [hl]
  rw [parked]
  exact changed.hand .tune k

/-! ## A retune -/

theorem State.tuneTo_carriers (s : State) (k c n : Nat) (b : Bool) : (s.tuneTo k c n b).carriers = s.carriers := by
  unfold State.tuneTo
  dsimp only
  split
  · exact ((Quiet.soft _).hand (Quiet.refl _) _ _).2.1
  · rfl

theorem State.tuneTo_none {s : State} {c : Nat} (hc : s.carrier c = none) (k n : Nat) (b : Bool) : s.tuneTo k c n b = s := by
  unfold State.tuneTo
  rw [hc]
  cases s.station k <;> rfl

/-- GO LIVE's tune, and a retune, change the station alone, but not its pair, and no carrier (R58, R60). -/
theorem State.startTune_changes {s t : State} {k : Nat} {f : Station → Station} (h : Changed s t k f) :
    (∃ g, Changed s (t.startTune k) k g ∧ ∀ x, (g x).pair = (f x).pair) ∧ (t.startTune k).carriers = t.carriers := by
  unfold State.startTune
  cases hp : (t.station k).bind Station.primary with
  | none => exact ⟨⟨f, h, fun _ => rfl⟩, rfl⟩
  | some c =>
    have tuned : ∃ g, Changed s (t.tuneTo k c 1 true) k g ∧ ∀ x, (g x).pair = (f x).pair := by
      cases hc : t.carrier c with
      | none => exact ⟨f, by rw [State.tuneTo_none hc]; exact h, fun _ => rfl⟩
      | some y => exact ⟨_, h.tuneTo hc 1 true, fun _ => rfl⟩
    obtain ⟨g, tuned, pair⟩ := tuned
    have quiet := tuned.modStation (g := fun x => { x with quality := none, qualityAge := none, watch := .off }) (by
      intro x y hxy
      simp only [Station.core, Station.mk.injEq] at hxy ⊢
      simp [hxy])
    exact ⟨⟨_, quiet.setLink .tuning, pair⟩, (State.setLink_carriers _ _ _).trans (t.tuneTo_carriers k c 1 true)⟩

/-- The station that is tuned to its primary. -/
theorem Changed.startTune {s t : State} {k c : Nat} {f : Station → Station} (h : Changed s t k f) {x : Station} {y : Carrier}
    (hx : t.station k = some x) (hp : x.primary = some c) (hy : t.carrier c = some y) :
    Changed s (t.startTune k) k (fun x => { f x with
      token := nextToken (f x).token
      attempts := 1
      tuneTimer := some 0
      wanted := ⟨some y.frequency, y.cls, (f x).power, false, nextToken (f x).token⟩
      quality := none
      qualityAge := none
      watch := .off
      link := .tuning }) := by
  have primary : (t.station k).bind Station.primary = some c := by rw [hx]; exact hp
  unfold State.startTune
  rw [primary]
  have tuned := (h.tuneTo (y := y) hy 1 true).modStation
    (g := fun x => { x with quality := none, qualityAge := none, watch := .off }) (by
      intro x y hxy
      simp only [Station.core, Station.mk.injEq] at hxy ⊢
      simp [hxy])
  exact (tuned.setLink .tuning).congr (fun _ _ => rfl)

/-- A new power of a station that is not Parked is a retune (R50). -/
theorem State.changePower_retunes {s : State} {k : Nat} {x : Station} (hl : x.link ≠ .parked) (power : Nat) :
    s.changePower k x power = (s.modStation k (fun x => { x with power := power })).startTune k := by
  unfold State.changePower
  cases h : x.link with
  | parked => exact absurd h hl
  | tuning => rfl
  | up => rfl
  | weak => rfl
  | lost => rfl
  | switching => rfl

end Sys2Proof.Machine
end

section
/-! EDIT STATION, whole (R50), and the Beltpack that a Camera gives up (R110). -/

namespace Sys2Proof.Machine

/-! ## The pair of an edit -/

theorem State.pairAfter_self (s : State) (k : Nat) (old new p : Option Nat) : s.pairAfter k old new k p = new := by
  unfold State.pairAfter
  by_cases h : new = some k
  · rw [if_pos h, h]
  · rw [if_neg h, if_pos rfl]

theorem State.setPair_own (s : State) (k : Nat) {z : Station} (hz : s.station k = some z) {old new : Option Nat}
    (hp : z.pair = old) : ∃ v, (s.setPair k old new).station k = some v ∧ v.untold = Station.untold { z with pair := new } := by
  by_cases h : old = new
  · subst h
    rw [State.setPair_same]
    exact ⟨z, hz, by rw [← hp]⟩
  · have own := s.setPair_repaired k h k
    rw [hz] at own
    obtain ⟨v, hv, set⟩ := Option.map_eq_some_iff.1 own
    dsimp only at set
    rw [State.pairAfter_self] at set
    exact ⟨v, hv, set⟩

theorem State.setPair_others (s : State) (k : Nat) (old new : Option Nat) {j : Nat} (hj : j ≠ k) {z : Station}
    (hz : s.station j = some z) : ∃ v, (s.setPair k old new).station j = some v ∧ v.untold = Station.untold { z with
      pair := if new = old then z.pair else if new = some j then some k
        else if old = some j ∨ new.bind s.partnerOf = some j then none else z.pair } := by
  by_cases h : old = new
  · subst h
    rw [State.setPair_same]
    exact ⟨z, hz, by simp⟩
  · have other := s.setPair_repaired k h j
    rw [hz] at other
    obtain ⟨v, hv, set⟩ := Option.map_eq_some_iff.1 other
    dsimp only at set
    rw [State.pairAfter_other s hj] at set
    exact ⟨v, hv, by rw [set, if_neg (Ne.symm h)]⟩

/-! ## The Beltpack that a Camera gives up -/

/-- The Camera and the Beltpack no longer name each other, and no notice has been given. -/
def State.unpaired (s : State) (k p : Nat) : State := (s.repair p none).modStation k (fun x => { x with pair := none })

theorem State.setPair_unpairs (s : State) (k p : Nat) :
    s.setPair k (some p) none = (s.unpaired k p).pairsChanged [(k, some p, none), (p, some k, none)] := rfl

theorem State.unpaired_station (s : State) {k p : Nat} (h : p ≠ k) {x y : Station} (hx : s.station k = some x)
    (hy : s.station p = some y) : (s.unpaired k p).station k = some { x with pair := none } ∧
      ∃ m, (s.unpaired k p).station p = some { y with pair := none, mark := m } := by
  refine ⟨?_, addReason StationReason.pairChanged y.mark, ?_⟩ <;>
    simp [State.unpaired, State.repair, State.markStation, State.station_modStation, h, Ne.symm h, hx, hy]

/-- A Beltpack without a pair has no due reasons. -/
theorem State.dueReasons_unpaired {s : State} {p : Nat} {y : Station} (hy : s.station p = some y) (hp : y.pair = none)
    (ov : FollowOverride) (c : Nat) : s.dueReasons ov p c = [] := by
  unfold State.dueReasons State.cameraOf
  rw [hy]
  dsimp only
  rw [hp]
  cases y.kind <;> rfl

/-- Two stations' lamps are told, beside which no conference changes. -/
theorem State.lampsTold (s : State) (ks : List Nat) :
    s.stationsUntold (s.forEach ks (fun t k => t.recomputeLamp k)) ∧
      Hushed s (s.forEach ks (fun t k => t.recomputeLamp k)) :=
  State.forEach_keeps (P := fun t => s.stationsUntold t ∧ Hushed s t) ⟨State.stationsUntold.refl s, Hushed.refl s⟩ ks
    (fun _ k h => ⟨(Telling.untold s).recomputeLamp h.1 k, (Hushed.calm s).recomputeLamp h.2 k⟩)

/-- A Camera that contributes gives up its Beltpack: the Beltpack is recomputed in every conference that it follows into, and
has no due reasons any more (R110). -/
theorem State.setPair_gives_up {s : State} {k p c : Nat} {x y : Station} (hx : s.station k = some x) (hcam : x.kind = .camera)
    (hcon : x.contributing ≠ []) (hy : s.station p = some y) (hbelt : y.kind = .beltpack) (h1 : 1 ≤ c) (h24 : c ≤ 24) :
    (s.setPair k (some p) none).dueReasons none p c = [] ∧
      ∀ z, s.conference c = some z → (z.members.map Member.id).Nodup →
        s.followedTo (s.setPair k (some p) none) p c z (fun q => (s.setPair k (some p) none).dueReasons none q c) := by
  have distinct : p ≠ k := by
    rintro rfl
    obtain rfl := Option.some.inj (hx.symm.trans hy)
    rw [hcam] at hbelt
    cases hbelt
  obtain ⟨camera, m, beltpack⟩ := s.unpaired_station distinct hx hy
  obtain ⟨told, hushed⟩ := (s.unpaired k p).lampsTold [k, p]
  have links : ∀ j, ((s.unpaired k p).station j).map Station.link = (s.station j).map Station.link := by
    intro j
    unfold State.unpaired State.repair State.markStation
    simp only [State.station_modStation]
    split <;> split <;> simp [Option.map_map, Function.comp_def]
  have conference : (s.unpaired k p).conference c = s.conference c := rfl
  have changed : (s.unpaired k p).pairsChanged [(k, some p, none), (p, some k, none)] =
      (fun t : State => (match t.station p with
        | some x => if x.kind = .camera && !x.contributing.isEmpty then t.pairNotice p (some k) none else t
        | none => t))
      ((fun t : State => (match t.station k with
        | some x => if x.kind = .camera && !x.contributing.isEmpty then t.pairNotice k (some p) none else t
        | none => t)) ((s.unpaired k p).forEach [k, p] (fun t k => t.recomputeLamp k))) := rfl
  rw [State.setPair_unpairs, changed]
  clear changed
  generalize s.unpaired k p = u at *
  generalize u.forEach [k, p] (fun t k => t.recomputeLamp k) = w at told hushed ⊢
  obtain ⟨cam, hcam', sameCam⟩ := told.station camera
  have kind : cam.kind = .camera := ((congrArg Station.kind sameCam :) : cam.kind = x.kind).trans hcam
  have contributes : cam.contributing ≠ [] := by
    rwa [((congrArg Station.contributing sameCam :) : cam.contributing = x.contributing)]
  have notice : (match w.station k with
      | some x => if x.kind = .camera && !x.contributing.isEmpty then w.pairNotice k (some p) none else w
      | none => w) = w.pairNotice k (some p) none := by
    rw [hcam']
    exact if_pos (by simp [kind, contributes])
  dsimp only
  rw [notice]
  have gone : ∀ t, u.stationsUntold t → t.dueReasons none p c = [] := by
    intro t ht
    obtain ⟨v, hv, same⟩ := ht.station beltpack
    exact State.dueReasons_unpaired hv (congrArg Station.pair same :) none c
  have after : u.stationsUntold (w.pairNotice k (some p) none) := (Telling.untold u).pairNotice told k (some p) none
  obtain ⟨v, hv, same⟩ := after.station beltpack
  have kindP : v.kind ≠ .camera := by
    rw [((congrArg Station.kind same :) : v.kind = y.kind), hbelt]
    exact nofun
  have rest : (match (w.pairNotice k (some p) none).station p with
      | some x => if x.kind = .camera && !x.contributing.isEmpty then
          (w.pairNotice k (some p) none).pairNotice p (some k) none else w.pairNotice k (some p) none
      | none => w.pairNotice k (some p) none) = w.pairNotice k (some p) none := by
    rw [hv]
    exact if_neg (by simp [kindP])
  rw [rest]
  refine ⟨gone _ after, fun z hz hn => ?_⟩
  have held : w.conference c = some z := by
    rw [State.conference, hushed.conferences]
    exact conference.trans hz
  have only : Only w (w.pairNotice k (some p) none) := (Only.broad w).soft.pairNotice (Only.refl w) _ _ _
  have told' : w.stationsUntold (w.pairNotice k (some p) none) :=
    (Telling.untold w).pairNotice (State.stationsUntold.refl w) _ _ _
  have due : ∀ q, (w.pairNotice k (some p) none).dueReasons none q c = w.dueReasons none q c := fun q =>
    State.dueReasons_untold told' only.galleries none q c
  rw [show (fun q => (w.pairNotice k (some p) none).dueReasons none q c) = (w.dueReasons none · c) from funext due]
  refine State.followedTo.before (u := w) ?_ (fun q => (State.absentNow_untold told q).trans (State.absentNow_of_links links q))
  exact State.recomputeEverywhere_followedTo held hn h1 h24 (fun _ _ _ _ => gone w told)

end Sys2Proof.Machine
end

section
/-! EDIT STATION, whole (R50). -/

namespace Sys2Proof.Machine

/-! ## The edit before its pair -/

/-- An edit of station k but for its pair (R50). -/
def State.editedStation (s : State) (k : Nat) (old new : Station) : State :=
  let u := s.modStation k (fun x => { x with label := new.label, callMode := new.callMode })
  let u := if new.controlUnit != old.controlUnit then u.changeControlUnit k new.controlUnit else u
  if new.power != old.power then u.changePower k old new.power else u

/-- A station with the fields of an edit that bear neither on its power nor on its pair. -/
@[reducible] def Station.editedBy (old new : Station) : Station :=
  { old with
    label := new.label
    callMode := new.callMode
    controlUnit := new.controlUnit
    delivered := if new.controlUnit = old.controlUnit then old.delivered else none }

theorem State.relabelled {s : State} {k : Nat} {old : Station} (hx : s.station k = some old) (new : Station) :
    s.reshaped (s.modStation k (fun x => { x with label := new.label, callMode := new.callMode })) k
      { old with label := new.label, callMode := new.callMode } :=
  (State.reshaped.start hx).modStation (f := fun x => { x with label := new.label, callMode := new.callMode }) (by
    intro x y hxy
    simp only [Station.untold, Station.mk.injEq] at hxy ⊢
    simp [hxy])

/-- The edit before a change of power. -/
theorem State.unitEdited {s : State} {k : Nat} {old : Station} (hx : s.station k = some old) (new : Station) :
    s.reshaped (if new.controlUnit != old.controlUnit then
        (s.modStation k (fun x => { x with label := new.label, callMode := new.callMode })).changeControlUnit k new.controlUnit
      else s.modStation k (fun x => { x with label := new.label, callMode := new.callMode })) k (old.editedBy new) := by
  have relabelled := State.relabelled hx new
  by_cases h : new.controlUnit = old.controlUnit
  · rw [if_neg (by simp [h])]
    simp only [Station.editedBy, if_pos h]
    rw [h]
    exact relabelled
  · rw [if_pos (by simpa using h)]
    simp only [Station.editedBy, if_neg h]
    exact relabelled.changeControlUnit new.controlUnit

theorem State.editedStation_power {s : State} {k : Nat} {old new : Station} (hx : s.station k = some old)
    (hp : new.power = old.power) : s.reshaped (s.editedStation k old new) k (old.editedBy new) := by
  have edited := State.unitEdited hx new
  unfold State.editedStation
  dsimp only
  rw [if_neg (by simp [hp])]
  exact edited

theorem State.editedStation_parked {s : State} {k : Nat} {old new : Station} (hx : s.station k = some old)
    (hp : new.power ≠ old.power) (hl : old.link = .parked) : s.reshaped (s.editedStation k old new) k
      { old.editedBy new with power := new.power, wanted := { old.wanted with power := new.power } } := by
  have edited := (State.unitEdited hx new).changePower hl new.power
  unfold State.editedStation
  dsimp only
  rw [if_pos (by simpa using hp)]
  exact edited

/-- A station with the fields of an edit whose power is a retune, before it. -/
@[reducible] def Station.repowered (old new : Station) : Station :=
  { old with label := new.label, callMode := new.callMode, power := new.power }

theorem State.editedStation_retunes {s : State} {k : Nat} {old new : Station} (hx : s.station k = some old)
    (hp : new.power ≠ old.power) (hl : old.link ≠ .parked) (hu : new.controlUnit = old.controlUnit) :
    ∃ u, s.editedStation k old new = u.startTune k ∧ u.carriers = s.carriers ∧ u.station k = some (old.repowered new) ∧
      Changed s u k (fun x => x.repowered new) := by
  refine ⟨(s.modStation k (fun x => { x with label := new.label, callMode := new.callMode })).modStation k
    (fun x => { x with power := new.power }), ?_, rfl, ?_, ?_⟩
  · unfold State.editedStation
    dsimp only
    rw [if_pos (by simpa using hp), if_neg (by simp [hu]), State.changePower_retunes hl]
  · exact State.station_of_mod (State.station_of_mod hx _) _
  · refine (((Changed.refl s k).modStation (g := fun x => { x with label := new.label, callMode := new.callMode }) ?_).modStation
      (g := fun x => { x with power := new.power }) ?_).congr (fun _ _ => rfl) <;>
    · intro x y hxy
      simp only [Station.core, Station.mk.injEq] at hxy ⊢
      simp [hxy]

/-- The station after a retune by an edit. -/
@[reducible] def Station.retuned (x : Station) (y : Carrier) : Station :=
  { x with
    token := nextToken x.token
    attempts := 1
    tuneTimer := some 0
    wanted := ⟨some y.frequency, y.cls, x.power, false, nextToken x.token⟩
    quality := none
    qualityAge := none
    watch := .off
    link := .tuning }

/-- What an edit but for its pair leaves. -/
structure State.stationEdited (s u : State) (k : Nat) (old new : Station) : Prop where
  only : Only s u
  carriers : u.carriers = s.carriers
  others : s.othersKeep u k
  own : ∃ z, u.station k = some z ∧ z.pair = old.pair ∧
    (new.power = old.power → z.core = (old.editedBy new).core) ∧
    (new.power ≠ old.power → old.link = .parked → z.core =
      ({ old.editedBy new with power := new.power, wanted := { old.wanted with power := new.power } } : Station).core) ∧
    (∀ c y, new.power ≠ old.power → old.link ≠ .parked → old.primary = some c → s.carrier c = some y →
      z.core = ((old.repowered new).retuned y).core) ∧
    (new.controlUnit ≠ old.controlUnit → z.delivered = none)
  conferences : new.power = old.power → s.conferencesUnrouted u

theorem Station.core_of_untold {x y : Station} (h : x.untold = y.untold) : x.core = y.core := by
  simp only [Station.untold, Station.core, Station.mk.injEq] at h ⊢
  simp [h]

theorem State.othersKeep_of_untold {s u : State} {k : Nat}
    (h : ∀ j, j ≠ k → (u.station j).map Station.untold = (s.station j).map Station.untold) : s.othersKeep u k := by
  intro j hj
  have kept := congrArg (Option.map Station.core) (h j hj)
  rwa [Option.map_map, Option.map_map, show Station.core ∘ Station.untold = Station.core from rfl] at kept

/-- An edit that reshapes the station. -/
theorem State.reshaped.edited {s u : State} {k : Nat} {old new v : Station} (h : s.reshaped u k v)
    (hp : v.pair = old.pair) (hd : new.controlUnit ≠ old.controlUnit → v.delivered = none)
    (same : new.power = old.power → v = old.editedBy new)
    (parked : new.power ≠ old.power → old.link = .parked ∧
      v = { old.editedBy new with power := new.power, wanted := { old.wanted with power := new.power } }) :
    s.stationEdited u k old new := by
  obtain ⟨z, hz, told⟩ := h.own
  have core := Station.core_of_untold told
  refine ⟨h.only, h.carriers, State.othersKeep_of_untold h.others, ⟨z, hz, ?_, fun e => by rw [core, same e],
    fun ne _ => by rw [core, (parked ne).2], fun c y ne live => absurd (parked ne).1 live, fun ne => ?_⟩,
    fun _ => h.conferences⟩
  · exact ((congrArg Station.pair told :) : z.pair = v.pair).trans hp
  · exact ((congrArg Station.delivered told :) : z.delivered = v.delivered).trans (hd ne)

theorem State.editedStation_spec {s : State} {k : Nat} {old new : Station} (hx : s.station k = some old)
    (hu : new.controlUnit = old.controlUnit ∨ old.link = .parked) : s.stationEdited (s.editedStation k old new) k old new := by
  by_cases hp : new.power = old.power
  · exact (State.editedStation_power hx hp).edited rfl (fun ne => if_neg ne) (fun _ => rfl) (fun ne => absurd hp ne)
  · by_cases hl : old.link = .parked
    · exact (State.editedStation_parked hx hp hl).edited rfl (fun ne => if_neg ne) (fun e => absurd e hp)
        (fun _ => ⟨hl, rfl⟩)
    · have unit := hu.resolve_right hl
      obtain ⟨u, eq, carriers, held, changed⟩ := State.editedStation_retunes hx hp hl unit
      obtain ⟨⟨g, tuned, keeps⟩, same⟩ := State.startTune_changes changed
      obtain ⟨z, hz, core⟩ := tuned.core old hx
      have pair : z.pair = old.pair := ((congrArg Station.pair core :) : z.pair = (g old).pair).trans (keeps old)
      rw [eq]
      refine ⟨tuned.only, same.trans carriers, tuned.others, ⟨z, hz, pair, fun e => absurd e hp, fun _ h => absurd h hl,
        fun c y _ _ hprim hy => ?_, fun ne => absurd unit ne⟩, fun e => absurd e hp⟩
      have carrier : u.carrier c = some y := by rw [State.carrier, carriers]; exact hy
      obtain ⟨w, hw, target⟩ := (changed.startTune held hprim carrier).core old hx
      obtain rfl := Option.some.inj (hz.symm.trans hw)
      exact target

/-! ## The whole edit -/

/-- The pair of a suited station is not the station itself. -/
theorem State.pairUnsuited_ne {s : State} {k b : Nat} {kind : StationKind} (h : s.pairUnsuited k kind (some b) = false) :
    b ≠ k := by
  simp only [State.pairUnsuited, Bool.or_eq_false_iff, decide_eq_false_iff_not] at h
  exact h.1

theorem State.partnerOf_kept {s u : State} {k : Nat} (h : s.othersKeep u k) {b : Nat} (hb : b ≠ k) :
    u.partnerOf b = s.partnerOf b := by
  have kept := congrArg (Option.bind · (fun x => x.pair)) (h b hb)
  simp only [Option.bind_map] at kept
  exact kept

/-- The state of an order whose effect is over, with the store state of the stations. -/
theorem Only.besideStations_changed {s u : State} {o : Order} (h : Only (s.begun o) u) (c : Prop) [Decidable c] (r : Reply) :
    s.besideStations ((if c then u else u.stationChanged).answer r) ∧
      ((if c then u else u.stationChanged).answer r).storeStates =
        if c then s.storeStates else { s.storeStates with station := true } := by
  have kept := h.besideStations (s.besideStations_begun o) r
  by_cases hc : c
  · rw [if_pos hc, if_pos hc]
    exact ⟨kept, h.storeStates⟩
  · rw [if_neg hc, if_neg hc]
    obtain ⟨windows, galleries, settings, checkQueue, engine, machine⟩ := kept
    refine ⟨⟨windows, galleries, settings, checkQueue, engine, ?_⟩,
      congrArg (fun x : StoreStates => { x with station := true }) h.storeStates⟩
    cases machine
    constructor <;> assumption

/-- The tests of an EDIT STATION that is accepted (R50). -/
theorem State.editStation_tests {s : State} {o : Order} {old : Station} {words : List Word} (ha : s.admits o .station)
    (hx : s.station (keyOf o) = some old) (hclaim : claimFree o old.claim)
    (hf : badField editStationIndex (pairsOf o.params) = false) (hr : stationRangeBad words = false)
    (hl : labelBad words = false)
    (hair : old.tally ≠ .live ∨ s.forced o = true ∨
      ((Station.ofWords words).controlUnit = old.controlUnit ∧ (Station.ofWords words).power = old.power))
    (hunit : (Station.ofWords words).controlUnit = old.controlUnit ∨ old.link = .parked)
    (hpower : (Station.ofWords words).power = old.power ∨ old.link ≠ .switching)
    (hpair : s.pairUnsuited (keyOf o) old.kind (Station.ofWords words).pair = false) :
    firstFailing ([s.lacks o .station 4, failIf (s.station (keyOf o)).isNone .key 1, claimHold o old.claim] ++ s.holds o ++
      [s.airHold o (old.tally = .live && ((Station.ofWords words).controlUnit != old.controlUnit ||
        (Station.ofWords words).power != old.power))] ++ stationRange editStationIndex (pairsOf o.params) words ++
      [failIf ((Station.ofWords words).controlUnit != old.controlUnit && old.link != .parked) .state 1,
        failIf ((Station.ofWords words).power != old.power && old.link = .switching) .state 2,
        failIf (s.pairUnsuited (keyOf o) old.kind (Station.ofWords words).pair) .state 3]) = none := by
  have live : (old.tally = .live && ((Station.ofWords words).controlUnit != old.controlUnit ||
      (Station.ofWords words).power != old.power)) = false ∨ s.forced o = true := by
    rcases hair with h | h | ⟨h, h'⟩
    · exact .inl (by simp [h])
    · exact .inr h
    · exact .inl (by simp [h, h'])
  have unit : ((Station.ofWords words).controlUnit != old.controlUnit && old.link != .parked) = false := by
    rcases hunit with h | h <;> simp [h]
  have power : ((Station.ofWords words).power != old.power && decide (old.link = .switching)) = false := by
    rcases hpower with h | h <;> simp [h]
  refine passes_append (passes_append (passes_append (passes_append ?_ (State.passes_holds ha.2.2))
    (passes_cons (State.airHold_fst live) firstFailing_nil)) ?_)
    (passes_cons unit (passes_cons power (passes_cons hpair firstFailing_nil)))
  · exact passes_cons (State.lacks_fst ha.2.1 4) (passes_cons (by simp [hx]) (passes_cons (claimHold_fst hclaim)
      firstFailing_nil))
  · simp [stationRange, hf, hr, hl]

/-- EDIT STATION, accepted. -/
theorem exec_editStation {s : State} {o : Order} {old : Station} {words : List Word} (ha : s.admits o .station)
    (hx : s.station (keyOf o) = some old)
    (hw : applyPairs editStationIndex (stationWords old) (pairsOf o.params) = words)
    (hc : evenCount 2 16 o.params = true)
    (tests : firstFailing ([s.lacks o .station 4, failIf (s.station (keyOf o)).isNone .key 1, claimHold o old.claim] ++
      s.holds o ++ [s.airHold o (old.tally = .live && ((Station.ofWords words).controlUnit != old.controlUnit ||
        (Station.ofWords words).power != old.power))] ++ stationRange editStationIndex (pairsOf o.params) words ++
      [failIf ((Station.ofWords words).controlUnit != old.controlUnit && old.link != .parked) .state 1,
        failIf ((Station.ofWords words).power != old.power && old.link = .switching) .state 2,
        failIf (s.pairUnsuited (keyOf o) old.kind (Station.ofWords words).pair) .state 3]) = none) :
    exec (.editStation o) s = .next ((if stationWords (Station.ofWords words) = stationWords old then
        ((s.begun o).editedStation (keyOf o) old (Station.ofWords words)).setPair (keyOf o) old.pair (Station.ofWords words).pair
      else (((s.begun o).editedStation (keyOf o) old (Station.ofWords words)).setPair (keyOf o) old.pair
        (Station.ofWords words).pair).stationChanged).answer (adjustedReply o (powerAdjusted words) 1)) := by
  refine congrArg Host.Outcome.next ?_
  unfold State.editStation
  simp only [hx, Option.getD_some, hw] at tests ⊢
  exact State.takeOrder_takes ha.1 (evenCount_le hc) hc tests rfl rfl

/-- The state after an order's words: the pair of the edited station set. -/
theorem State.stationEdited.paired {s u : State} {k : Nat} {old new : Station} (h : s.stationEdited u k old new)
    (hp : s.pairUnsuited k old.kind new.pair = false) {j : Nat} (hj : j ≠ k) {z : Station} (hz : s.station j = some z) :
    ∃ w, (u.setPair k old.pair new.pair).station j = some w ∧ w.core = ({ z with
      pair := if new.pair = old.pair then z.pair else if new.pair = some j then some k
        else if old.pair = some j ∨ new.pair.bind s.partnerOf = some j then none else z.pair } : Station).core := by
  have kept := h.others j hj
  rw [hz] at kept
  obtain ⟨y, hy, core⟩ := Option.map_eq_some_iff.1 kept
  obtain ⟨w, hw, told⟩ := u.setPair_others k old.pair new.pair hj hy
  have partner : new.pair.bind u.partnerOf = new.pair.bind s.partnerOf := by
    cases hb : new.pair with
    | none => rfl
    | some b =>
      rw [hb] at hp
      exact State.partnerOf_kept h.others (State.pairUnsuited_ne hp)
  refine ⟨w, hw, ?_⟩
  rw [partner] at told
  simp only [Station.untold, Station.core, Station.mk.injEq] at told core ⊢
  simp [told, core]

theorem Station.core_paired {v z w : Station} {p : Option Nat} (h : v.core = ({ z with pair := p } : Station).core)
    (hz : z.core = w.core) : v.core = ({ w with pair := p } : Station).core := by
  simp only [Station.core, Station.mk.injEq] at h hz ⊢
  simp [h, hz]

/-- A recompute goes by the lists of the conference alone. -/
theorem State.followedTo.ofLists {s t : State} {p c : Nat} {x z : Conference} {due : Nat → List Nat}
    (h : s.followedTo t p c z due) (members : z.members = x.members) (waiting : z.waiting = x.waiting) :
    s.followedTo t p c x due := by
  obtain ⟨⟨v, hv, follows⟩, denied⟩ := h
  rw [members, waiting] at denied
  refine ⟨⟨v, hv, ?_⟩, denied⟩
  obtain ⟨fixed, kept, left, waits, stays, joins, queued, deny⟩ := follows
  rw [members, waiting] at fixed kept left waits stays joins queued deny
  exact ⟨fixed, kept, left, waits, stays, joins, queued, deny⟩

theorem State.stationEdited.links {s u : State} {k : Nat} {old new : Station} (h : s.stationEdited u k old new)
    (hx : s.station k = some old) (hp : new.power = old.power) (j : Nat) :
    (u.station j).map Station.link = (s.station j).map Station.link := by
  by_cases hj : j = k
  · subst hj
    obtain ⟨z, hz, -, same, -⟩ := h.own
    rw [hz, hx]
    exact congrArg some ((congrArg Station.link (same hp) :) : z.link = _)
  · have kept := congrArg (Option.map Station.link) (h.others j hj)
    rwa [Option.map_map, Option.map_map, show Station.link ∘ Station.core = Station.link from rfl] at kept

/-- An edit that takes away the pair of a contributing Camera recomputes its Beltpack (R110). -/
theorem State.stationEdited.recomputes {s u : State} {k p c : Nat} {old new : Station} (h : s.stationEdited u k old new)
    (hx : s.station k = some old) (hnone : new.pair = none) (hp : new.power = old.power) (hcon : old.contributing ≠ [])
    (hpaired : s.paired k p) (h1 : 1 ≤ c) (h24 : c ≤ 24) :
    (u.setPair k old.pair new.pair).dueReasons none p c = [] ∧ s.recomputes (u.setPair k old.pair new.pair) p c := by
  obtain ⟨x, y, hx', hcam, hpair, hy, hbelt, -⟩ := hpaired
  obtain rfl := Option.some.inj (hx.symm.trans hx')
  obtain ⟨z, hz, -, same, -⟩ := h.own
  have core := same hp
  have distinct : p ≠ k := by
    rintro rfl
    obtain rfl := Option.some.inj (hx.symm.trans hy)
    rw [hcam] at hbelt
    cases hbelt
  have kept := h.others p distinct
  rw [hy] at kept
  obtain ⟨w, hw, belt⟩ := Option.map_eq_some_iff.1 kept
  have kind : z.kind = .camera := ((congrArg Station.kind core :) : z.kind = old.kind).trans hcam
  have contributes : z.contributing ≠ [] := by
    rwa [((congrArg Station.contributing core :) : z.contributing = old.contributing)]
  have kindP : w.kind = .beltpack := ((congrArg Station.kind belt :) : w.kind = y.kind).trans hbelt
  obtain ⟨gone, follows⟩ := State.setPair_gives_up hz kind contributes hw kindP h1 h24
  rw [hpair, hnone]
  refine ⟨gone, fun x hconf hn => ?_⟩
  have unrouted := h.conferences hp c
  rw [hconf] at unrouted
  obtain ⟨v, hv, lists⟩ := Option.map_eq_some_iff.1 unrouted
  have members : v.members = x.members := (congrArg Conference.members lists :)
  have waiting : v.waiting = x.waiting := (congrArg Conference.waiting lists :)
  obtain ⟨held, denied⟩ := ((follows v hv (by rwa [members])).before (s := s)
    (State.absentNow_of_links (h.links hx hp))).ofLists members waiting
  exact ⟨held, denied⟩

/-- The answer, and the store state, do not bear on a recompute. -/
theorem State.recomputes.changed {s u : State} {p c : Nat} (h : u.dueReasons none p c = [] ∧ s.recomputes u p c) (b : Prop)
    [Decidable b] (r : Reply) : ((if b then u else u.stationChanged).answer r).dueReasons none p c = [] ∧
      s.recomputes ((if b then u else u.stationChanged).answer r) p c := by
  by_cases hb : b
  · rw [if_pos hb]
    exact h
  · rw [if_neg hb]
    exact h

theorem State.changed_tables (u : State) (b : Prop) [Decidable b] (r : Reply) :
    ((if b then u else u.stationChanged).answer r).station = u.station ∧
      ((if b then u else u.stationChanged).answer r).carriers = u.carriers ∧
      ((if b then u else u.stationChanged).answer r).port = .pending ⟨r.status, r.detail, r.key, r.words⟩ := by
  by_cases hb : b
  · rw [if_pos hb]
    exact ⟨rfl, rfl, rfl⟩
  · rw [if_neg hb]
    exact ⟨rfl, rfl, rfl⟩

end Sys2Proof.Machine

namespace Sys2Proof
open Machine

/-- Settles O27. -/
theorem editStation : Obligations.EditStation := by
  intro o s old k words new ha hx hclaim hc hf hr hl hair hunit hpower hpair
  have tests := State.editStation_tests ha hx hclaim hf hr hl hair hunit hpower hpair
  have taken := exec_editStation ha hx rfl hc tests
  have edited := State.editedStation_spec (s := s.begun o) (k := k) (old := old) (new := new) hx hunit
  change exec (.editStation o) s = .next ((if stationWords new = stationWords old then
      ((s.begun o).editedStation k old new).setPair k old.pair new.pair
    else (((s.begun o).editedStation k old new).setPair k old.pair new.pair).stationChanged).answer
      (adjustedReply o (powerAdjusted words) 1)) at taken
  generalize (s.begun o).editedStation k old new = u at taken edited
  have others := fun j hj z hz => edited.paired (j := j) hpair hj (z := z) hz
  have recomputes := fun p c => edited.recomputes (p := p) (c := c) hx
  obtain ⟨z, hz, pair, same, parked, live, undelivered⟩ := edited.own
  obtain ⟨v, hv, told⟩ := u.setPair_own k hz pair (new := new.pair)
  obtain ⟨paired, carriers⟩ := u.setPair_frame k old.pair new.pair
  generalize u.setPair k old.pair new.pair = t at *
  obtain ⟨stations, sameCarriers, port⟩ := t.changed_tables (stationWords new = stationWords old)
    (adjustedReply o (powerAdjusted words) 1)
  obtain ⟨beside, storeStates⟩ := (edited.only.trans paired).besideStations_changed (stationWords new = stationWords old)
    (adjustedReply o (powerAdjusted words) 1)
  have core := Station.core_of_untold told
  refine ⟨_, v, taken, by rw [stations]; exact hv, fun e => ?_, fun ne hpark => ?_, fun c y ne hlive hprim hy => ?_, fun ne => ?_,
    fun j z hj hzj => ?_, fun p c hnone hsame hcon hpaired h1 h24 => ?_, ?_, beside, storeStates, ?_⟩
  · exact Station.core_paired core (same e)
  · exact Station.core_paired core (parked ne hpark)
  · exact Station.core_paired core (live c y ne hlive hprim hy)
  · exact ((congrArg Station.delivered told :) : v.delivered = z.delivered).trans (undelivered ne)
  · rw [stations]
    exact others j hj z hzj
  · exact State.recomputes.changed (recomputes p c hnone hsame hcon hpaired h1 h24) _ _
  · exact sameCarriers.trans (carriers.trans edited.carriers)
  · rw [port, adjustedReply_eq]

end Sys2Proof
end

section
/-! A derivation of tallies (R79, R80): the values that it sets, and what its acts leave alone. -/

namespace Sys2Proof.Machine

/-! ## Ascending lists -/

theorem mem_addReason {x y : Nat} {l : List Nat} : y ∈ addReason x l ↔ y = x ∨ y ∈ l := by
  induction l with
  | nil => simp [addReason]
  | cons a l ih =>
    unfold addReason
    split
    · simp
    · split
      · rename_i h
        subst h
        simp
      · rw [List.mem_cons, ih, List.mem_cons]
        tauto

theorem mem_sortNat {y : Nat} {l : List Nat} : y ∈ sortNat l ↔ y ∈ l := by
  have folded : ∀ (l acc : List Nat), y ∈ l.foldl (fun acc x => insertNat x acc) acc ↔ y ∈ l ∨ y ∈ acc := by
    intro l
    induction l with
    | nil => simp
    | cons a l ih =>
      intro acc
      rw [List.foldl_cons, ih, insertNat, mem_addReason, List.mem_cons]
      tauto
  rw [sortNat, folded]
  simp

theorem addReason_pairwise {x : Nat} {l : List Nat} (h : l.Pairwise (· < ·)) : (addReason x l).Pairwise (· < ·) := by
  induction l with
  | nil => simp [addReason]
  | cons a l ih =>
    obtain ⟨least, rest⟩ := List.pairwise_cons.1 h
    unfold addReason
    split
    · rename_i hx
      refine List.pairwise_cons.2 ⟨fun b hb => ?_, h⟩
      rcases List.mem_cons.1 hb with rfl | hb
      · exact hx
      · exact hx.trans (least b hb)
    · split
      · exact h
      · refine List.pairwise_cons.2 ⟨fun b hb => ?_, ih rest⟩
        rcases mem_addReason.1 hb with rfl | hb
        · omega
        · exact least b hb

theorem sortNat_nodup (l : List Nat) : (sortNat l).Nodup := by
  have rises : ∀ (l acc : List Nat), acc.Pairwise (· < ·) →
      (l.foldl (fun acc x => insertNat x acc) acc).Pairwise (· < ·) := by
    intro l
    induction l with
    | nil => exact fun _ h => h
    | cons a l ih => exact fun acc h => ih _ (addReason_pairwise h)
  exact (rises l [] List.Pairwise.nil).imp Nat.ne_of_lt

/-! ## The values of a derivation -/

/-- What a derivation finds of station k, when it is x. -/
@[reducible] def State.derived (s : State) (k : Nat) (x : Station) : Station :=
  { x with tally := s.tallyOf k, contributing := s.contributingOf k }

/-- The findings of a derivation of some stations. -/
def State.findings (s : State) (ks : List Nat) : List Derived := (sortNat ks).filterMap s.deriveOne

/-- The derived values are set, and no act has been taken. -/
def State.deriveSet (s : State) (ks : List Nat) : State :=
  s.forEach (s.findings ks) (fun s d => s.modStation d.key (fun x => { x with tally := d.tally, contributing := d.contributing }))

theorem State.derive_eq (s : State) (ks : List Nat) :
    s.derive ks = (s.deriveSet ks).forEach (s.findings ks) State.derivedActs := rfl

theorem State.mem_findings {s : State} {ks : List Nat} {d : Derived} : d ∈ s.findings ks ↔
    ∃ x, d.key ∈ ks ∧ s.station d.key = some x ∧ d = ⟨d.key, s.tallyOf d.key, s.contributingOf d.key, x.contributing,
      s.tallyOf d.key != x.tally || s.contributingOf d.key != x.contributing⟩ := by
  simp only [State.findings, List.mem_filterMap, mem_sortNat, State.deriveOne]
  constructor
  · rintro ⟨k, hk, h⟩
    obtain ⟨x, hx, rfl⟩ := Option.map_eq_some_iff.1 h
    exact ⟨x, hk, hx, rfl⟩
  · rintro ⟨x, hk, hx, h⟩
    exact ⟨d.key, hk, by rw [hx]; exact congrArg some h.symm⟩

/-- The stations of the list, and no others, have their derived values. -/
theorem State.deriveSet_station (s : State) (ks : List Nat) (j : Nat) : (s.deriveSet ks).station j =
    if j ∈ ks then (s.station j).map (s.derived j) else s.station j := by
  have folded : ∀ (ds : List Derived) (t : State), (∀ d ∈ ds, d ∈ s.findings ks) →
      ((∃ d ∈ ds, d.key = j) ∨ (j ∈ ks → t.station j = (s.station j).map (s.derived j))) →
      (j ∈ ks → (t.station j).map (s.derived j) = (s.station j).map (s.derived j)) →
      (j ∉ ks → t.station j = s.station j) →
      (t.forEach ds (fun s d => s.modStation d.key (fun x => { x with
        tally := d.tally, contributing := d.contributing }))).station j =
        if j ∈ ks then (s.station j).map (s.derived j) else s.station j := by
    intro ds
    induction ds with
    | nil =>
      intro t _ covered _ other
      by_cases hj : j ∈ ks
      · rw [if_pos hj]
        exact covered.elim (fun ⟨d, hd, _⟩ => absurd hd List.not_mem_nil) (fun h => h hj)
      · rw [if_neg hj]
        exact other hj
    | cons d ds ih =>
      intro t found covered same other
      obtain ⟨x, hk, hx, hd⟩ := State.mem_findings.1 (found d List.mem_cons_self)
      rw [State.forEach_cons]
      refine ih _ (fun e he => found e (List.mem_cons_of_mem d he)) ?_ (fun hj => ?_) (fun hj => ?_)
      · by_cases key : d.key = j
        · refine .inr (fun hj => ?_)
          subst key
          rw [State.station_modStation, if_pos rfl, ← same hj, hd]
        · rcases covered with ⟨e, he, hkey⟩ | h
          · rcases List.mem_cons.1 he with rfl | he
            · exact absurd hkey key
            · exact .inl ⟨e, he, hkey⟩
          · refine .inr (fun hj => ?_)
            rw [State.station_modStation, if_neg (Ne.symm key)]
            exact h hj
      · rw [State.station_modStation]
        split
        · rw [Option.map_map]
          exact same hj
        · exact same hj
      · have key : j ≠ d.key := fun e => hj (e ▸ hk)
        rw [State.station_modStation, if_neg key]
        exact other hj
  refine folded (s.findings ks) s (fun _ h => h) ?_ (fun _ => rfl) (fun _ => rfl)
  cases hx : s.station j with
  | none => exact .inr (fun _ => rfl)
  | some x =>
    by_cases hj : j ∈ ks
    · exact .inl ⟨⟨j, s.tallyOf j, s.contributingOf j, x.contributing,
        s.tallyOf j != x.tally || s.contributingOf j != x.contributing⟩, State.mem_findings.2 ⟨x, hj, hx, rfl⟩, rfl⟩
    · exact .inr (fun h => absurd h hj)

/-! ## What a derivation leaves alone -/

/-- The rest of the state, and the carriers, among the notices. -/
theorem Telling.beside (s : State) : Telling (fun t => Only s t ∧ t.carriers = s.carriers) where
  hand := fun {t} ⟨only, carriers⟩ kd k => by
    have quiet := (Quiet.soft t).hand (Quiet.refl t) kd k
    exact ⟨only.trans quiet.1, quiet.2.1.trans carriers⟩
  mark := fun k r ⟨only, carriers⟩ => ⟨(Only.broad s).soft.markStation only k r, carriers⟩
  lamp := fun k l ⟨only, carriers⟩ => ⟨(Only.broad s).modStation only, carriers⟩
  modConference := fun ⟨only, carriers⟩ => ⟨(Only.broad s).modConference only, carriers⟩

theorem State.deriveSet_beside (s : State) (ks : List Nat) : Only s (s.deriveSet ks) ∧ (s.deriveSet ks).carriers = s.carriers ∧
    (s.deriveSet ks).conferences = s.conferences ∧ (s.deriveSet ks).queue = s.queue ∧ (s.deriveSet ks).finals = s.finals :=
  State.forEach_keeps (P := fun t => Only s t ∧ t.carriers = s.carriers ∧ t.conferences = s.conferences ∧ t.queue = s.queue ∧
    t.finals = s.finals) ⟨Only.refl s, rfl, rfl, rfl, rfl⟩ _ (fun _ _ ⟨only, h⟩ => ⟨(Only.broad s).modStation only, h⟩)

theorem State.derive_told (s : State) (ks : List Nat) : (s.deriveSet ks).stationsUntold (s.derive ks) := by
  rw [State.derive_eq]
  exact State.forEach_keeps (State.stationsUntold.refl _) _ (fun _ d h => (Telling.untold _).derivedActs h d)

theorem State.derive_beside (s : State) (ks : List Nat) : Only s (s.derive ks) ∧ (s.derive ks).carriers = s.carriers := by
  obtain ⟨only, carriers, -⟩ := s.deriveSet_beside ks
  have acts := State.forEach_keeps (P := fun t => Only (s.deriveSet ks) t ∧ t.carriers = (s.deriveSet ks).carriers)
    ⟨Only.refl _, rfl⟩ (s.findings ks) (fun _ d h => (Telling.beside _).derivedActs h d)
  rw [State.derive_eq]
  exact ⟨only.trans acts.1, acts.2.trans carriers⟩

theorem State.tallyOf_of_galleries {s t : State} (h : t.galleries = s.galleries) (k : Nat) : t.tallyOf k = s.tallyOf k := by
  unfold State.tallyOf
  rw [h]

theorem State.contributingOf_of_galleries {s t : State} (h : t.galleries = s.galleries) (k : Nat) :
    t.contributingOf k = s.contributingOf k := by
  unfold State.contributingOf State.gallery
  rw [h]

/-- A station as a derivation leaves it, but for its mark, its wanted lamp and its deliveries. -/
theorem State.derive_station (s : State) (ks : List Nat) (j : Nat) : ((s.derive ks).station j).map Station.untold =
    (s.station j).map (fun x => Station.untold (if j ∈ ks then s.derived j x else x)) := by
  rw [s.derive_told ks j, s.deriveSet_station ks j]
  by_cases hj : j ∈ ks
  · simp only [if_pos hj, Option.map_map]
    rfl
  · simp only [if_neg hj]

/-- The stations of the list have the tally that the galleries give (R79). -/
theorem State.derive_tallyDerived (s : State) (ks : List Nat) {j : Nat} (hj : j ∈ ks) : (s.derive ks).tallyDerived j := by
  intro v hv
  have galleries := (s.derive_beside ks).1.galleries
  have kept := s.derive_station ks j
  rw [hv] at kept
  obtain ⟨x, hx, same⟩ := Option.map_eq_some_iff.1 kept.symm
  rw [if_pos hj] at same
  rw [State.tallyOf_of_galleries galleries, State.contributingOf_of_galleries galleries]
  exact ⟨(congrArg Station.tally same.symm :), (congrArg Station.contributing same.symm :)⟩

/-- A derivation changes the core of a station in its tally and its contributing galleries alone, and that of the stations of
the list alone. -/
theorem State.derive_cores (s : State) (ks : List Nat) :
    (∀ j, ((s.derive ks).station j).map Station.tallyless = (s.station j).map Station.tallyless) ∧
      ∀ j, j ∉ ks → ((s.derive ks).station j).map Station.core = (s.station j).map Station.core := by
  refine ⟨fun j => ?_, fun j hj => ?_⟩
  · have kept := congrArg (Option.map Station.tallyless) (s.derive_station ks j)
    rw [Option.map_map, Option.map_map] at kept
    refine Eq.trans kept (congrArg (Option.map · (s.station j)) (funext fun x => ?_))
    by_cases hj : j ∈ ks
    · simp only [Function.comp_apply, if_pos hj]
    · simp only [Function.comp_apply, if_neg hj]
  · have kept := congrArg (Option.map Station.core) (s.derive_station ks j)
    rw [Option.map_map, Option.map_map] at kept
    refine Eq.trans kept (congrArg (Option.map · (s.station j)) (funext fun x => ?_))
    simp only [Function.comp_apply, if_neg hj]

end Sys2Proof.Machine
end

section
/-! The orders on galleries (R81 to R84, R109). -/

namespace Sys2Proof.Machine

/-! ## The follow notice -/

/-- A loop in which every step but one does nothing is that step. -/
theorem State.forEach_single {P : State → Prop} {f : State → Nat → State} {k : Nat} (other : ∀ t j, j ≠ k → P t → f t j = t)
    (keeps : ∀ t, P t → P (f t k)) {ks : List Nat} (hk : k ∈ ks) (hn : ks.Nodup) {s : State} (h : P s) :
    s.forEach ks f = f s k := by
  have idle : ∀ (l : List Nat) (t : State), k ∉ l → P t → t.forEach l f = t := by
    intro l
    induction l with
    | nil => exact fun _ _ _ => rfl
    | cons j l ih =>
      intro t hl ht
      rw [List.mem_cons, not_or] at hl
      rw [State.forEach_cons, other t j (Ne.symm hl.1) ht]
      exact ih t hl.2 ht
  obtain ⟨as, bs, rfl⟩ := List.append_of_mem hk
  have fresh : k ∉ bs := (List.nodup_cons.1 (List.nodup_append.1 hn).2.1).1
  have fresh' : k ∉ as := fun hm => (List.nodup_append.1 hn).2.2 k hm k List.mem_cons_self rfl
  have split : s.forEach (as ++ k :: bs) f = (f (s.forEach as f) k).forEach bs f := by
    simp [State.forEach]
  rw [split, idle as s fresh' h]
  exact idle bs _ fresh (keeps s h)

/-- A follow notice to one Camera (R109). -/
def State.followNoticeTo (g : Nat) (old new : Option Nat) (s : State) (k : Nat) : State :=
  match s.station k, s.beltpackOf k with
  | some y, some p =>
    if y.contributing.contains g then
      let t := match old with | some c => s.recomputeFollow (some (g, new)) p c | none => s
      match new with | some c => t.recomputeFollow (some (g, new)) p c | none => t
    else s
  | _, _ => s

theorem State.followNotice_eq (s : State) (g : Nat) {old new : Option Nat} (h : old ≠ new) :
    s.followNotice g old new = s.forEach (upTo 96) (State.followNoticeTo g old new) := by
  unfold State.followNotice
  rw [if_neg h]
  rfl

theorem State.followNotice_same (s : State) (g : Nat) (c : Option Nat) : s.followNotice g c c = s := by
  unfold State.followNotice
  exact if_pos rfl

theorem State.followNoticeTo_idle {s : State} {g j : Nat} (h : ∀ y, s.station j = some y → g ∉ y.contributing)
    (old new : Option Nat) : s.followNoticeTo g old new j = s := by
  unfold State.followNoticeTo
  split
  · rename_i y p hy _
    exact if_neg (by simpa using h y hy)
  · rfl

/-- The recomputes of a Camera's Beltpack in the old follow conference, and then in the new one (R109). -/
def State.followMoves (s : State) (g p : Nat) (old new : Option Nat) : State :=
  let t := match old with | some c => s.recomputeFollow (some (g, new)) p c | none => s
  match new with | some c => t.recomputeFollow (some (g, new)) p c | none => t

theorem State.followNoticeTo_eq {s : State} {g k p : Nat} {x : Station} (hx : s.station k = some x) (hcam : x.kind = .camera)
    (hp : x.pair = some p) (hg : g ∈ x.contributing) (old new : Option Nat) :
    s.followNoticeTo g old new k = s.followMoves g p old new := by
  have beltpack : s.beltpackOf k = some p := by
    unfold State.beltpackOf
    rw [hx]
    exact (if_pos hcam).trans hp
  unfold State.followNoticeTo
  rw [hx, beltpack]
  exact if_pos (by simpa using hg)

/-- The moves recompute the Beltpack in the old conference and in the new one. -/
theorem State.followMoves_followedTo {s : State} {g p c : Nat} {x : Conference} (hx : s.conference c = some x)
    (hn : (x.members.map Member.id).Nodup) {old new : Option Nat} (hne : old ≠ new) (hc : old = some c ∨ new = some c) :
    s.followedTo (s.followMoves g p old new) p c x (s.dueReasons (some (g, new)) · c) := by
  unfold State.followMoves
  rcases hc with rfl | rfl
  · have first := State.recomputeFollow_followedTo hx hn (some (g, new)) p
    cases new with
    | none => exact first
    | some d =>
      have apart : c ≠ d := fun e => hne (congrArg some e)
      exact first.after (State.recomputeFollow_others _ _ p d apart)
        (fun m => (Telling.marked p _).recomputeFollow m _ p d)
  · cases old with
    | none => exact State.recomputeFollow_followedTo hx hn _ p
    | some d =>
      have apart : c ≠ d := fun e => hne (congrArg some e.symm)
      have told := s.recomputeFollow_untold (some (g, some c)) p d
      have only := s.recomputeFollow_only (some (g, some c)) p d
      have held := (s.recomputeFollow_others (some (g, some c)) p d apart).trans hx
      have second := (State.recomputeFollow_followedTo held hn (some (g, some c)) p).before (s := s)
        (State.absentNow_untold told)
      have due : ∀ q, (s.recomputeFollow (some (g, some c)) p d).dueReasons (some (g, some c)) q c =
          s.dueReasons (some (g, some c)) q c := fun q => State.dueReasons_untold told only.galleries _ q c
      rwa [show (s.dueReasons (some (g, some c)) · c) = _ from (funext due).symm]

/-- The follow notice of a gallery to which one Camera contributes. -/
theorem State.followNotice_followedTo {s : State} {g k p c : Nat} {x : Station} (h1 : 1 ≤ k) (h96 : k ≤ 96)
    (hx : s.station k = some x) (hcam : x.kind = .camera) (hp : x.pair = some p) (hg : g ∈ x.contributing)
    (alone : ∀ j y, j ≠ k → s.station j = some y → g ∉ y.contributing) {old new : Option Nat} (hne : old ≠ new)
    (hc : old = some c ∨ new = some c) {z : Conference} (hz : s.conference c = some z)
    (hn : (z.members.map Member.id).Nodup) :
    s.followedTo (s.followNotice g old new) p c z (s.dueReasons (some (g, new)) · c) := by
  rw [State.followNotice_eq s g hne, State.forEach_single (P := fun t => s.stationsUntold t) (k := k) ?_ ?_
    (mem_upTo.2 ⟨h1, h96⟩) (upTo_nodup 96) (State.stationsUntold.refl s), State.followNoticeTo_eq hx hcam hp hg]
  · exact State.followMoves_followedTo hz hn hne hc
  · intro t j hj told
    refine State.followNoticeTo_idle (fun y hy => ?_) old new
    have kept := told.map (g := Station.contributing) (fun _ => rfl) j
    rw [hy] at kept
    obtain ⟨v, hv, same⟩ := Option.map_eq_some_iff.1 kept.symm
    rw [← same]
    exact alone j v hj hv
  · intro t told
    have again : s.stationsUntold (t.followNotice g old new) := (Telling.untold s).followNotice told g old new
    obtain ⟨v, hv, same⟩ := told.station hx
    have kind : v.kind = .camera := ((congrArg Station.kind same :) : v.kind = x.kind).trans hcam
    have pair : v.pair = some p := ((congrArg Station.pair same :) : v.pair = x.pair).trans hp
    have contributes : g ∈ v.contributing := ((congrArg Station.contributing same :) : v.contributing = x.contributing) ▸ hg
    rw [State.followNoticeTo_eq hv kind pair contributes]
    unfold State.followMoves
    cases old <;> cases new <;> dsimp only
    · exact told
    · exact told.trans (t.recomputeFollow_untold _ _ _)
    · exact told.trans (t.recomputeFollow_untold _ _ _)
    · exact (told.trans (t.recomputeFollow_untold _ _ _)).trans (State.recomputeFollow_untold _ _ _ _)

/-! ## Due reasons of a pair -/

/-- The due reasons of a Beltpack go by its Camera's contributing galleries (R106). -/
theorem State.dueAre_of_paired {s : State} {k p : Nat} (h : s.paired k p) (c : Nat) : s.dueAre p k c := by
  obtain ⟨x, y, hx, hcam, hpair, hy, hbelt, hback⟩ := h
  have camera : s.cameraOf p = some (k, x) := by
    unfold State.cameraOf
    rw [hy]
    dsimp only
    rw [hbelt, hback]
    dsimp only
    rw [hx]
    exact if_pos hcam
  intro g
  unfold State.dueReasons State.followOf
  rw [camera]
  dsimp only
  simp only [List.mem_filter, mem_upTo, Bool.and_eq_true, decide_eq_true_eq, List.contains_iff_mem]
  constructor
  · rintro ⟨⟨h1, h8⟩, ⟨there, follows⟩, contributes⟩
    cases hg : s.gallery g with
    | none => rw [hg] at there; cases there
    | some z => exact ⟨h1, h8, z, x, rfl, by rw [hg] at follows; exact follows, hx, contributes⟩
  · rintro ⟨h1, h8, z, v, hz, follows, hv, contributes⟩
    obtain rfl := Option.some.inj (hx.symm.trans hv)
    exact ⟨⟨h1, h8⟩, ⟨by rw [hz]; rfl, by rw [hz]; exact follows⟩, contributes⟩

theorem State.paired_of_tallyless {s t : State} (h : ∀ j, (t.station j).map Station.tallyless = (s.station j).map Station.tallyless)
    {k p : Nat} (hp : s.paired k p) : t.paired k p := by
  obtain ⟨x, y, hx, hcam, hpair, hy, hbelt, hback⟩ := hp
  have camera := h k
  have beltpack := h p
  rw [hx] at camera
  rw [hy] at beltpack
  obtain ⟨v, hv, sameV⟩ := Option.map_eq_some_iff.1 camera
  obtain ⟨w, hw, sameW⟩ := Option.map_eq_some_iff.1 beltpack
  exact ⟨v, w, hv, ((congrArg Station.kind sameV :) : v.kind = x.kind).trans hcam,
    ((congrArg Station.pair sameV :) : v.pair = x.pair).trans hpair, hw,
    ((congrArg Station.kind sameW :) : w.kind = y.kind).trans hbelt,
    ((congrArg Station.pair sameW :) : w.pair = y.pair).trans hback⟩

/-- Where the gallery follows into its new conference, the override is no other reading. -/
theorem State.dueReasons_override {s : State} {g : Nat} {x : Gallery} (hx : s.gallery g = some x) (p c : Nat) :
    s.dueReasons (some (g, x.follow)) p c = s.dueReasons none p c := by
  have follows : ∀ h, s.followOf (some (g, x.follow)) h = s.followOf none h := by
    intro h
    unfold State.followOf
    dsimp only
    by_cases e : h = g
    · subst e
      rw [if_pos rfl, hx]
      rfl
    · rw [if_neg e]
  rw [State.dueReasons_eq, State.dueReasons_eq]
  simp only [follows]

/-! ## What the orders leave alone -/

theorem State.followNotice_frame (s : State) (g : Nat) (old new : Option Nat) : Only s (s.followNotice g old new) ∧
    (s.followNotice g old new).carriers = s.carriers ∧ s.stationsUntold (s.followNotice g old new) := by
  obtain ⟨only, carriers⟩ := (Telling.beside s).followNotice ⟨Only.refl s, rfl⟩ g old new
  exact ⟨only, carriers, (Telling.untold s).followNotice (State.stationsUntold.refl s) g old new⟩

theorem State.besideGalleries_begun (s : State) (o : Order) (gs : Table Gallery) :
    s.besideGalleries { s.begun o with galleries := gs } := by
  obtain ⟨windows, -, settings, checkQueue, engine, machine⟩ := s.besideStations_begun o
  refine ⟨windows, settings, checkQueue, engine, ?_⟩
  cases machine
  constructor <;> assumption

theorem Only.besideGalleries {s u t : State} (h : Only u t) (hu : s.besideGalleries u) (r : Reply) :
    s.besideGalleries (t.galleryChanged.answer r) := by
  unfold Only at h
  rw [h]
  obtain ⟨windows, settings, checkQueue, engine, machine⟩ := hu
  refine ⟨windows, settings, checkQueue, engine, ?_⟩
  cases machine
  constructor <;> assumption

/-- The tests of a gallery's record that pass (R81). -/
theorem passes_galleryRecord {s : State} {ps : List (Nat × Word)} {ws : List Word} {g : Gallery}
    (hf : badField galleryIndex ps = false) (hr : galleryRangeBad ws = false) (hl : labelBad ws = false)
    (hs : ∀ j, some j ∈ g.sources → s.station j ≠ none) (hc : ∀ c, g.follow = some c → s.conference c ≠ none) :
    firstFailing (s.galleryRecordTests ps ws g) = none := by
  have mapped : g.sources.any (fun e => match e with | some k => (s.station k).isNone | none => false) = false := by
    rw [List.any_eq_false]
    intro e he
    cases e with
    | none => simp
    | some k => simpa [Option.isNone_iff_eq_none] using hs k he
  have followed : (match g.follow with | some c => (s.conference c).isNone | none => false) = false := by
    cases hg : g.follow with
    | none => rfl
    | some c => simpa [Option.isNone_eq_false_iff, Option.isSome_iff_ne_none] using hc c hg
  unfold State.galleryRecordTests
  exact passes_cons hf (passes_cons hr (passes_cons hl (passes_cons mapped (passes_cons followed firstFailing_nil))))

theorem remapped_self (l : List (Option Nat)) : remapped l l = [] := by
  induction l with
  | nil => rfl
  | cons a l ih => simpa [remapped] using ih

end Sys2Proof.Machine
end

section
/-! The orders on galleries, each whole (R81 to R84). -/

namespace Sys2Proof.Machine

/-! ## A follow notice, and a derivation after it -/

/-- From u to t some stations have been derived afresh, with the notices; the carriers and the rest stand. -/
structure State.rederived (u t : State) (ks : List Nat) : Prop where
  only : Only u t
  carriers : t.carriers = u.carriers
  tallies : ∀ j ∈ ks, t.tallyDerived j
  tallyless : ∀ j, (t.station j).map Station.tallyless = (u.station j).map Station.tallyless
  cores : ∀ j, j ∉ ks → (t.station j).map Station.core = (u.station j).map Station.core

theorem State.stationsUntold.cores {s t : State} (h : s.stationsUntold t) (j : Nat) :
    (t.station j).map Station.core = (s.station j).map Station.core := h.map (fun _ => rfl) j

/-- A derivation after notices. -/
theorem State.derive_rederived {u s : State} (only : Only u s) (carriers : s.carriers = u.carriers)
    (told : u.stationsUntold s) (ks : List Nat) : u.rederived (s.derive ks) ks := by
  obtain ⟨acts, same⟩ := s.derive_beside ks
  obtain ⟨tallyless, cores⟩ := s.derive_cores ks
  exact ⟨only.trans acts, same.trans carriers, fun j hj => s.derive_tallyDerived ks hj,
    fun j => (tallyless j).trans (told.map (fun _ => rfl) j), fun j hj => (cores j hj).trans (told.cores j)⟩

/-- The answer of an order on a gallery, and its store state, do not bear on what it derived. -/
theorem State.rederived.answered {s u : State} {o : Order} {gs : Table Gallery} {ks : List Nat}
    (h : State.rederived { s.begun o with galleries := gs } u ks) (r : Reply) :
    (u.galleryChanged.answer r).galleries = gs ∧ (∀ j ∈ ks, (u.galleryChanged.answer r).tallyDerived j) ∧
      (∀ j, ((u.galleryChanged.answer r).station j).map Station.tallyless = (s.station j).map Station.tallyless) ∧
      (∀ j, j ∉ ks → ((u.galleryChanged.answer r).station j).map Station.core = (s.station j).map Station.core) ∧
      (u.galleryChanged.answer r).carriers = s.carriers ∧ s.besideGalleries (u.galleryChanged.answer r) ∧
      (u.galleryChanged.answer r).storeStates = { s.storeStates with gallery := true } :=
  ⟨h.only.galleries, h.tallies, h.tallyless, h.cores, h.carriers, h.only.besideGalleries (s.besideGalleries_begun o gs) r,
    congrArg (fun x : StoreStates => { x with gallery := true }) h.only.storeStates⟩

/-! ## EDIT GALLERY -/

/-- The gallery that an EDIT makes: a new tally unit empties the sets (R83). -/
def Gallery.editedFrom (new old : Gallery) : Gallery :=
  if new.tallyUnit != old.tallyUnit then { new with live := false, program := [], preview := [] } else new

theorem Gallery.editedFrom_follow (new old : Gallery) : (new.editedFrom old).follow = new.follow := by
  unfold Gallery.editedFrom
  split <;> rfl

/-- The stations that an EDIT of a gallery derives afresh. -/
def Gallery.rederives (old new : Gallery) : List Nat :=
  (if new.tallyUnit != old.tallyUnit then old.reached else []) ++ remapped old.sources new.sources

theorem State.applyGallery_eq (s : State) (k : Nat) (old new : Gallery) : s.applyGallery k old new =
    (State.followNotice { s with galleries := s.galleries.put k (new.editedFrom old) } k old.follow new.follow).derive
      (old.rederives new) := rfl

theorem State.applyGallery_rederived (s : State) (k : Nat) (old new : Gallery) :
    State.rederived { s with galleries := s.galleries.put k (new.editedFrom old) } (s.applyGallery k old new)
      (old.rederives new) := by
  obtain ⟨only, carriers, told⟩ :=
    State.followNotice_frame { s with galleries := s.galleries.put k (new.editedFrom old) } k old.follow new.follow
  rw [State.applyGallery_eq]
  exact State.derive_rederived only carriers told _

theorem State.derive_nil (s : State) : s.derive [] = s := rfl

/-- A new follow conference moves the Beltpack of the one Camera that contributes (R109). -/
theorem State.applyGallery_recomputes {s : State} {g k p c : Nat} {old new : Gallery} (hsrc : new.sources = old.sources)
    (hunit : (new.tallyUnit != old.tallyUnit) = false) (h1 : 1 ≤ k) (h96 : k ≤ 96) (hpaired : s.paired k p) {x : Station}
    (hx : s.station k = some x) (hg : g ∈ x.contributing)
    (alone : ∀ j y, j ≠ k → s.station j = some y → g ∉ y.contributing) (hne : old.follow ≠ new.follow)
    (hc : old.follow = some c ∨ new.follow = some c) : s.recomputes (s.applyGallery g old new) p c := by
  obtain ⟨y, z, hy, hcam, hpair, -⟩ := hpaired
  obtain rfl := Option.some.inj (hx.symm.trans hy)
  have edited : new.editedFrom old = new := by
    unfold Gallery.editedFrom
    rw [hunit]
    rfl
  have nothing : old.rederives new = [] := by
    unfold Gallery.rederives
    rw [hunit, hsrc, remapped_self]
    rfl
  have applied : s.applyGallery g old new =
      State.followNotice { s with galleries := s.galleries.put g new } g old.follow new.follow := by
    rw [State.applyGallery_eq, nothing, edited, State.derive_nil]
  rw [applied]
  obtain ⟨only, -, told⟩ := State.followNotice_frame { s with galleries := s.galleries.put g new } g old.follow new.follow
  intro v hv hn
  have followed := State.followNotice_followedTo (s := { s with galleries := s.galleries.put g new }) h1 h96 hx hcam hpair hg
    alone hne hc hv hn
  have held : State.gallery { s with galleries := s.galleries.put g new } g = some new := Table.get_put_self _ _ _
  have due : ∀ q, (State.followNotice { s with galleries := s.galleries.put g new } g old.follow new.follow).dueReasons none
      q c = State.dueReasons { s with galleries := s.galleries.put g new } (some (g, new.follow)) q c := fun q =>
    (State.dueReasons_untold told only.galleries none q c).trans (State.dueReasons_override held q c).symm
  obtain ⟨⟨w, hw, follows⟩, denied⟩ := followed
  rw [due p]
  refine ⟨⟨w, hw, ?_⟩, denied⟩
  rw [funext due]
  exact follows

/-- EDIT GALLERY, accepted. -/
theorem exec_editGallery {s : State} {o : Order} {old : Gallery} {ws : List Word} (ha : s.admits o .gallery)
    (hx : s.gallery (keyOf o) = some old) (hclaim : claimFree o old.claim) (hc : evenCount 2 16 o.params = true)
    (hw : applyPairs galleryIndex (galleryWords old) (pairsOf o.params) = ws)
    (hf : badField galleryIndex (pairsOf o.params) = false) (hr : galleryRangeBad ws = false) (hl : labelBad ws = false)
    (hs : ∀ j, some j ∈ (old.withWords ws).sources → s.station j ≠ none)
    (hcf : ∀ c, (old.withWords ws).follow = some c → s.conference c ≠ none) :
    exec (.editGallery o) s = .next ((if galleryWords (old.withWords ws) = galleryWords old then s.begun o
      else ((s.begun o).applyGallery (keyOf o) old (old.withWords ws)).galleryChanged).answer (doneReply o)) := by
  have tests : firstFailing ([s.lacks o .gallery 5, failIf (s.gallery (keyOf o)).isNone .key 1, claimHold o old.claim] ++
      s.holds o ++ s.galleryRecordTests (pairsOf o.params) ws (old.withWords ws)) = none :=
    passes_append (passes_append (passes_cons (State.lacks_fst ha.2.1 5) (passes_cons (by simp [hx])
      (passes_cons (claimHold_fst hclaim) firstFailing_nil))) (State.passes_holds ha.2.2))
      (passes_galleryRecord hf hr hl hs hcf)
  refine congrArg Host.Outcome.next ?_
  unfold State.editGallery
  simp only [hx, Option.getD_some, hw] at tests ⊢
  exact State.takeOrder_takes ha.1 (evenCount_le hc) hc tests rfl rfl

/-! ## RETIRE GALLERY -/

theorem State.removeGallery_rederived {s : State} {k : Nat} {g : Gallery} (hg : s.gallery k = some g) :
    State.rederived { s with galleries := s.galleries.erase k } (s.removeGallery k) g.reached := by
  obtain ⟨only, carriers, told⟩ := s.followNotice_frame k g.follow none
  unfold State.removeGallery
  rw [hg]
  dsimp only
  rw [only.galleries]
  generalize s.followNotice k g.follow none = t at *
  have frame : Only { s with galleries := s.galleries.erase k } { t with galleries := s.galleries.erase k } := by
    unfold Only at only ⊢
    rw [only]
  exact State.derive_rederived frame carriers told g.reached

theorem State.removeGallery_none {s : State} {k : Nat} (hg : s.gallery k = none) :
    s.removeGallery k = { s with galleries := s.galleries.erase k } := by
  unfold State.removeGallery
  rw [hg]

theorem exec_retireGallery {s : State} {o : Order} (ha : s.admits o .gallery) (h1 : 1 ≤ keyOf o) (h8 : keyOf o ≤ 8)
    (hp : o.params = []) (hslot : (s.galleries.slot (keyOf o)).isSome = true)
    (hclaim : claimFree o ((s.gallery (keyOf o)).bind Gallery.claim)) :
    exec (.retireGallery o) s = .next (((s.begun o).removeGallery (keyOf o)).galleryChanged.answer (doneReply o)) := by
  have tests : firstFailing ([s.lacks o .gallery 5, failIf (!galleryKey (keyOf o) || (s.galleries.slot (keyOf o)).isNone) .key 1,
      claimHold o ((s.gallery (keyOf o)).bind Gallery.claim)] ++ s.holds o) = none := by
    refine passes_append (passes_cons (State.lacks_fst ha.2.1 5) (passes_cons ?_ (passes_cons (claimHold_fst hclaim)
      firstFailing_nil))) (State.passes_holds ha.2.2)
    obtain ⟨x, hx⟩ := Option.isSome_iff_exists.1 hslot
    simp [galleryKey, h1, h8, hx]
  exact congrArg Host.Outcome.next (State.takeOrder_takes ha.1 (length_of_noParams hp) (by simp [hp]) tests rfl rfl)

/-! ## DEFINE GALLERY -/

/-- A follow notice after a gallery is put. -/
theorem Only.besideGalleries_noticed {s u t : State} (h : Only u.galleryChanged t) (hu : s.besideGalleries u) (r : Reply) :
    s.besideGalleries (t.answer r) := by
  unfold Only at h
  rw [h]
  obtain ⟨windows, settings, checkQueue, engine, machine⟩ := hu
  refine ⟨windows, settings, checkQueue, engine, ?_⟩
  cases machine
  constructor <;> assumption

theorem State.define_followNotice (s : State) (o : Order) (g : Gallery) :
    let u := State.followNotice (State.galleryChanged { s.begun o with galleries := s.galleries.put (keyOf o) g })
      (keyOf o) none g.follow
    u.galleries = s.galleries.put (keyOf o) g ∧ u.carriers = s.carriers ∧
      (∀ j, (u.station j).map Station.core = (s.station j).map Station.core) ∧
      (g.follow = none → u.stations = s.stations ∧ u.conferences = s.conferences ∧ u.queue = s.queue) ∧
      (∀ r, s.besideGalleries (u.answer r)) ∧ u.storeStates = { s.storeStates with gallery := true } := by
  obtain ⟨only, carriers, told⟩ := State.followNotice_frame (State.galleryChanged
    { s.begun o with galleries := s.galleries.put (keyOf o) g }) (keyOf o) none g.follow
  refine ⟨only.galleries, carriers, told.cores, fun h => ?_,
    fun r => only.besideGalleries_noticed (s.besideGalleries_begun o _) r, only.storeStates⟩
  rw [h, State.followNotice_same]
  exact ⟨rfl, rfl, rfl⟩

end Sys2Proof.Machine

namespace Sys2Proof
open Machine

/-- Settles O38. -/
theorem galleryOrders : Obligations.GalleryOrders := by
  refine ⟨fun o s => ?_, fun o s old => ?_, fun o s ha h1 h8 hp => ?_⟩
  · intro words g ha h1 h8 hn hc hf hr hl hs hcf
    have tests : firstFailing ([s.lacks o .gallery 5, failIf (!galleryKey (keyOf o)) .key 1,
        failIf (s.gallery (keyOf o)).isSome .key 2] ++ s.holds o ++
        s.galleryRecordTests (pairsOf o.params) words g) = none := by
      refine passes_append (passes_append (passes_cons (State.lacks_fst ha.2.1 5) ?_) (State.passes_holds ha.2.2))
        (passes_galleryRecord hf hr hl hs hcf)
      simp [galleryKey, h1, h8, hn]
    have taken : exec (.defineGallery o) s = .next ((State.followNotice (State.galleryChanged
        { s.begun o with galleries := s.galleries.put (keyOf o) g }) (keyOf o) none g.follow).answer (doneReply o)) :=
      congrArg Host.Outcome.next (State.takeOrder_takes ha.1 (evenCount_le hc) hc tests rfl rfl)
    obtain ⟨galleries, carriers, cores, unfollowing, beside, storeStates⟩ := s.define_followNotice o g
    generalize State.followNotice (State.galleryChanged { s.begun o with galleries := s.galleries.put (keyOf o) g })
      (keyOf o) none g.follow = u at taken galleries carriers cores unfollowing beside storeStates
    exact ⟨_, taken, galleries, carriers, cores, unfollowing, beside (doneReply o), storeStates, rfl⟩
  · intro words new fresh ha hx hclaim hc hf hr hl hs hcf
    have taken := exec_editGallery ha hx hclaim hc rfl hf hr hl hs hcf
    change exec (.editGallery o) s = .next ((if galleryWords new = galleryWords old then s.begun o
      else ((s.begun o).applyGallery (keyOf o) old new).galleryChanged).answer (doneReply o)) at taken
    refine ⟨fun same => ?_, fun changed => ?_⟩
    · rw [taken, if_pos same]
      rfl
    · rw [if_neg changed] at taken
      have rederived := (s.begun o).applyGallery_rederived (keyOf o) old new
      have recomputes : ∀ k p c x, new.sources = old.sources → fresh = false → 1 ≤ k → k ≤ 96 → s.paired k p →
          s.station k = some x → keyOf o ∈ x.contributing →
          (∀ j y, j ≠ k → s.station j = some y → keyOf o ∉ y.contributing) → old.follow ≠ new.follow →
          (old.follow = some c ∨ new.follow = some c) →
          (s.begun o).recomputes ((s.begun o).applyGallery (keyOf o) old new) p c :=
        fun k p c x hsrc hfresh h1 h96 hpaired hxk hg alone hne hcon =>
          State.applyGallery_recomputes hsrc hfresh h1 h96 hpaired hxk hg alone hne hcon
      generalize (s.begun o).applyGallery (keyOf o) old new = u at taken rederived recomputes
      obtain ⟨galleries, tallies, tallyless, cores, carriers, beside, storeStates⟩ := rederived.answered (doneReply o)
      have listed : ∀ j, j ∈ old.rederives new ↔ j ∈ remapped old.sources new.sources ∨ (fresh = true ∧ j ∈ old.reached) := by
        intro j
        unfold Gallery.rederives
        cases h : fresh <;> simp only [show (new.tallyUnit != old.tallyUnit) = _ from h] <;> simp [or_comm]
      refine ⟨_, taken, galleries, fun j hj => tallies j ((listed j).2 hj), tallyless, fun j hj hold => cores j ?_,
        fun k p c x hsrc hfresh h1 h96 hpaired hxk hg alone _ _ hne hcon => ⟨?_, ?_⟩, carriers, beside, storeStates, rfl⟩
      · rw [listed j]
        rintro (h | ⟨h, h'⟩)
        · exact hj h
        · rcases hold with hf | hr
          · rw [hf] at h; cases h
          · exact hr h'
      · exact State.dueAre_of_paired (State.paired_of_tallyless tallyless hpaired) c
      · exact recomputes k p c x hsrc hfresh h1 h96 hpaired hxk hg alone hne hcon
  · refine ⟨fun g hg hclaim => ?_, fun m hm => ?_⟩
    · have taken := exec_retireGallery ha h1 h8 hp (Table.slot_isSome_of_get hg) (by rw [hg]; exact hclaim)
      have rederived := State.removeGallery_rederived (s := s.begun o) (k := keyOf o) hg
      generalize (s.begun o).removeGallery (keyOf o) = u at taken rederived
      obtain ⟨galleries, tallies, tallyless, cores, carriers, beside, storeStates⟩ := rederived.answered (doneReply o)
      exact ⟨_, taken, galleries, tallies, tallyless, cores, carriers, beside, storeStates, rfl⟩
    · have hg : s.gallery (keyOf o) = none := by
        unfold State.gallery Table.get
        rw [hm]
      rw [exec_retireGallery ha h1 h8 hp (by rw [hm]; rfl) (by simp [hg, claimFree]), State.removeGallery_none (s := s.begun o) hg]
      rfl

end Sys2Proof
end

section
/-! The lamps after a derivation (R80, R87). -/

namespace Sys2Proof.Machine

/-! ## What the follow notices leave alone -/

/-- The follow notices set no wanted lamp. -/
theorem Following.lamps (s : State) :
    Following (fun t => ∀ j, (t.station j).map Station.lamp = (s.station j).map Station.lamp) where
  hand := fun h kd k => (Decides.project Station.lamp (fun _ kd _ => by cases kd <;> rfl) s).hand h kd k
  mark := by
    intro t k r h j
    rw [← h j, State.markStation, State.station_modStation]
    split
    · rw [Option.map_map]
      rfl
    · rfl
  modConference := fun h => h

/-- Two properties that the follow notices keep. -/
theorem Following.and {P Q : State → Prop} (hp : Following P) (hq : Following Q) : Following (fun t => P t ∧ Q t) where
  hand := fun h kd k => ⟨hp.hand h.1 kd k, hq.hand h.2 kd k⟩
  mark := fun k r h => ⟨hp.mark k r h.1, hq.mark k r h.2⟩
  modConference := fun h => ⟨hp.modConference h.1, hq.modConference h.2⟩

/-! ## A lamp that is as R87 gives -/

/-- What of a station bears on its lamp and its partner's (R87). -/
def Station.shown (x : Station) : StationKind × Option Nat × Tally × List CueEntry × Option CallKind :=
  (x.kind, x.pair, x.tally, x.stack, x.call)

/-- A lamp is computed from the station and its partner. -/
theorem State.lampOf_congr {s t : State} {j : Nat} (own : (t.station j).map Station.shown = (s.station j).map Station.shown)
    (partner : ∀ x p, s.station j = some x → x.pair = some p →
      (t.station p).map Station.shown = (s.station p).map Station.shown) : t.lampOf j = s.lampOf j := by
  unfold State.lampOf
  cases hx : s.station j with
  | none =>
    rw [hx] at own
    rw [Option.map_eq_none_iff.1 own]
  | some x =>
    rw [hx] at own
    obtain ⟨v, hv, same⟩ := Option.map_eq_some_iff.1 own
    simp only [Station.shown, Prod.mk.injEq] at same
    obtain ⟨kind, pair, tally, stack, call⟩ := same
    rw [hv]
    simp only [Station.cued, kind, pair, tally, stack, call]
    cases hp : x.pair with
    | none => rfl
    | some p =>
      have other := partner x p hx hp
      simp only [Option.bind_some]
      cases hy : s.station p with
      | none =>
        rw [hy] at other
        rw [Option.map_eq_none_iff.1 other]
      | some y =>
        rw [hy] at other
        obtain ⟨w, hw, same'⟩ := Option.map_eq_some_iff.1 other
        simp only [Station.shown, Prod.mk.injEq] at same'
        obtain ⟨-, -, tally', stack', call'⟩ := same'
        rw [hw]
        simp only [tally', stack', call']

theorem State.lampOf_untold {s t : State} (h : s.stationsUntold t) (k : Nat) : t.lampOf k = s.lampOf k :=
  State.lampOf_congr (h.map (fun _ => rfl) k) (fun _ p _ _ => h.map (fun _ => rfl) p)

/-- Notices have changed u into t, and the lamp of station j is the one that u gives. -/
def State.lit (u : State) (j : Nat) (t : State) : Prop :=
  u.stationsUntold t ∧ (t.station j).map Station.lamp = (u.station j).map (fun _ => u.lampOf j)

theorem State.recomputeLamp_own (s : State) (k : Nat) :
    ((s.recomputeLamp k).station k).map Station.lamp = (s.station k).map (fun _ => s.lampOf k) := by
  unfold State.recomputeLamp
  cases hx : s.station k with
  | none =>
    dsimp only
    rw [hx]
    rfl
  | some x =>
    dsimp only
    split
    · rename_i same
      rw [hx]
      exact congrArg some same.symm
    · refine (Following.lamps (s.modStation k (fun x => { x with lamp := s.lampOf k }))).hand (fun _ => rfl) .lamp k k |>.trans ?_
      rw [State.station_of_mod hx]
      rfl

theorem State.recomputeLamp_other (s : State) {j k : Nat} (h : j ≠ k) :
    ((s.recomputeLamp k).station j).map Station.lamp = (s.station j).map Station.lamp := by
  unfold State.recomputeLamp
  split
  · rfl
  · dsimp only
    split
    · rfl
    · refine (Following.lamps (s.modStation k (fun x => { x with lamp := s.lampOf k }))).hand (fun _ => rfl) .lamp k j |>.trans ?_
      rw [State.station_modStation, if_neg h]

theorem State.stationsUntold.recomputed {u t : State} (h : u.stationsUntold t) (j : Nat) : u.lit j (t.recomputeLamp j) := by
  refine ⟨(Telling.untold u).recomputeLamp h j, ?_⟩
  rw [State.recomputeLamp_own, State.lampOf_untold h]
  exact h.map (g := fun _ => u.lampOf j) (fun _ => rfl) j

theorem State.lit.recomputeLamp {u t : State} {j : Nat} (h : u.lit j t) (k : Nat) : u.lit j (t.recomputeLamp k) := by
  by_cases hk : j = k
  · subst hk
    exact h.1.recomputed j
  · exact ⟨(Telling.untold u).recomputeLamp h.1 k, (t.recomputeLamp_other hk).trans h.2⟩

theorem Following.lit (u : State) (j : Nat) : Following (u.lit j) where
  hand := fun {t} h kd k => ⟨(Telling.untold u).hand h.1 kd k, ((Following.lamps t).hand (fun _ => rfl) kd k j).trans h.2⟩
  mark := fun {t} k r h => ⟨(Telling.untold u).mark k r h.1, ((Following.lamps t).mark k r (fun _ => rfl) j).trans h.2⟩
  modConference := fun h => ⟨(Telling.untold u).modConference h.1, h.2⟩

theorem State.lit.recomputeLamps {u t : State} {j : Nat} (h : u.lit j t) (k : Nat) : u.lit j (t.recomputeLamps k) := by
  unfold State.recomputeLamps
  split
  · exact h
  · dsimp only
    split
    · exact (h.recomputeLamp _).recomputeLamp _
    · exact h.recomputeLamp _

/-- The lamps of a station and of its partner are recomputed. -/
theorem State.stationsUntold.recomputedLamps {u t : State} (h : u.stationsUntold t) {k j : Nat} {x : Station}
    (hx : u.station k = some x) (hj : j = k ∨ x.pair = some j) : u.lit j (t.recomputeLamps k) := by
  obtain ⟨v, hv, same⟩ := h.station hx
  have pair : v.pair = x.pair := (congrArg Station.pair same :)
  unfold State.recomputeLamps
  rw [hv]
  dsimp only
  rw [pair]
  rcases hj with rfl | hj
  · split
    · exact (h.recomputed j).recomputeLamp _
    · exact h.recomputed j
  · rw [hj]
    exact State.stationsUntold.recomputed ((Telling.untold u).recomputeLamp h k) j

/-! ## The acts of a derivation -/

theorem Following.derivedNotice {P : State → Prop} (hc : Following P) {t : State} (h : P t) (d : Derived) (gs : List Nat) :
    P (match t.station d.key with
      | some x => if x.kind = .camera && !gs.isEmpty then t.contributionNotice d.key gs else t
      | none => t) := by
  split
  · split
    · exact hc.contributionNotice h _ _
    · exact h
  · exact h

theorem State.lit.derivedActs {u t : State} {j : Nat} (h : u.lit j t) (d : Derived) : u.lit j (t.derivedActs d) := by
  have lamps := State.lit.recomputeLamps ((Following.lit u j).mark d.key StationReason.tallyChanged h) d.key
  unfold State.derivedActs
  split
  · exact (Following.lit u j).derivedNotice lamps d _
  · exact h

/-- The acts for a station that was changed light it and its partner. -/
theorem State.stationsUntold.derivedActs {u t : State} (h : u.stationsUntold t) {d : Derived} (hd : d.changed = true) {j : Nat}
    {x : Station} (hx : u.station d.key = some x) (hj : j = d.key ∨ x.pair = some j) : u.lit j (t.derivedActs d) := by
  have lamps := State.stationsUntold.recomputedLamps ((Telling.untold u).mark d.key StationReason.tallyChanged h) hx hj
  unfold State.derivedActs
  rw [if_pos hd]
  exact (Following.lit u j).derivedNotice lamps d _

/-- A station that a derivation does not find changed is shown as it was. -/
theorem State.deriveSet_shown (s : State) (ks : List Nat) {j : Nat}
    (h : ∀ d ∈ s.findings ks, d.key = j → d.changed = false) :
    ((s.deriveSet ks).station j).map Station.shown = (s.station j).map Station.shown := by
  rw [State.deriveSet_station]
  split
  · rename_i hj
    cases hx : s.station j with
    | none => rfl
    | some x =>
      have unchanged := h ⟨j, s.tallyOf j, s.contributingOf j, x.contributing,
        s.tallyOf j != x.tally || s.contributingOf j != x.contributing⟩ (State.mem_findings.2 ⟨x, hj, hx, rfl⟩) rfl
      have tally : s.tallyOf j = x.tally := by
        have := (Bool.or_eq_false_iff.1 unchanged).1
        simpa using this
      simp only [Option.map_some, Station.shown, tally]
  · rfl

/-- A derivation leaves a lamp as R87 gives it, where it was so. -/
theorem State.derive_lit {s : State} (paired : s.pairsMutual) (ks : List Nat) {j : Nat} {x : Station} (hx : s.station j = some x)
    (hlamp : x.lamp = s.lampOf j) : (s.deriveSet ks).lit j (s.derive ks) := by
  rw [State.derive_eq]
  by_cases h : ∃ d ∈ s.findings ks, d.changed = true ∧ (j = d.key ∨ ∃ y, s.station d.key = some y ∧ y.pair = some j)
  · obtain ⟨d, hd, changed, near⟩ := h
    obtain ⟨y, hk, hy, -⟩ := State.mem_findings.1 hd
    have held := s.deriveSet_station ks d.key
    rw [if_pos hk, hy] at held
    refine State.forEach_reaches (P := fun t => (s.deriveSet ks).stationsUntold t) hd (fun t d _ h => (Telling.untold _).derivedActs h d)
      (fun t ht => ht.derivedActs changed held (near.imp_right ?_)) (fun t d h => h.derivedActs d) (State.stationsUntold.refl _)
    rintro ⟨z, hz, pair⟩
    obtain rfl := Option.some.inj (hy.symm.trans hz)
    exact pair
  · push Not at h
    have own : ∀ d ∈ s.findings ks, d.key = j → d.changed = false := by
      intro d hd key
      by_contra changed
      exact (h d hd (by simpa using changed)).1 key.symm
    have lamp : ((s.deriveSet ks).station j).map Station.lamp = (s.station j).map Station.lamp := by
      rw [State.deriveSet_station, hx]
      split <;> rfl
    have shown : (s.deriveSet ks).lampOf j = s.lampOf j := by
      refine State.lampOf_congr (s.deriveSet_shown ks own) (fun z p hz hp => s.deriveSet_shown ks (fun d hd key => ?_))
      obtain ⟨y, hy, back, -⟩ := paired j z p hz hp
      by_contra changed
      exact (h d hd (by simpa using changed)).2 y (by rw [key, hy]) back
    refine State.forEach_keeps ⟨State.stationsUntold.refl _, ?_⟩ _ (fun t d h => State.lit.derivedActs h d)
    rw [shown, lamp, hx, State.deriveSet_station, hx, ← hlamp]
    split <;> rfl

theorem State.lampWanted_eq {s : State} {k : Nat} {x : Station} (hx : s.station k = some x) : s.lampWanted x = s.lampOf k := by
  unfold State.lampWanted State.lampOf
  rw [hx]
  dsimp only
  have cued : ∀ y : Station, (y.stack != []) = y.cued := fun y => by cases h : y.stack <;> simp [Station.cued, h]
  cases x.kind <;> cases x.pair.bind s.station <;> simp [StationKind.hasLamp, cued]

end Sys2Proof.Machine
end

section
/-! The TALLY item (R78 to R80, R108). -/

namespace Sys2Proof.Machine

/-! ## A derivation that changes one Camera -/

/-- The sorted list of a single number. -/
theorem sortNat_single {ks : List Nat} {k : Nat} (all : ∀ j ∈ ks, j = k) (hk : k ∈ ks) : sortNat ks = [k] :=
  List.perm_singleton.1 ((List.perm_ext_iff_of_nodup (sortNat_nodup ks) (List.nodup_singleton k)).2 (fun j => by
    rw [mem_sortNat, List.mem_singleton]
    exact ⟨all j, fun h => h ▸ hk⟩))

/-- A derivation of one station alone is its acts. -/
theorem State.derive_single {s : State} {ks : List Nat} {k : Nat} (all : ∀ j ∈ ks, j = k) (hk : k ∈ ks) {y : Station}
    (hy : s.station k = some y) : s.derive ks = (s.deriveSet ks).derivedActs ⟨k, s.tallyOf k, s.contributingOf k,
      y.contributing, s.tallyOf k != y.tally || s.contributingOf k != y.contributing⟩ := by
  have found : s.findings ks = [⟨k, s.tallyOf k, s.contributingOf k, y.contributing,
      s.tallyOf k != y.tally || s.contributingOf k != y.contributing⟩] := by
    unfold State.findings State.deriveOne
    rw [sortNat_single all hk]
    simp [hy]
  rw [State.derive_eq, found]
  rfl

/-- The contribution notice of a Camera for one gallery recomputes its Beltpack in the gallery's follow conference, and in no
other (R108). -/
theorem State.contributionNotice_one {s : State} {k p g c : Nat} (hb : s.beltpackOf k = some p) {gs : List Nat}
    (hgs : ∀ h, h ∈ gs ↔ h = g) (hc : s.followOf none g = some c) (h1 : 1 ≤ c) (h24 : c ≤ 24) :
    s.contributionNotice k gs = s.recomputeFollow none p c := by
  have follows : ∀ t d, Only s t → (gs.any (fun g => t.followOf none g = some d) = true ↔ d = c) := by
    intro t d only
    have same : t.followOf none g = some c := by
      rw [← hc]
      unfold State.followOf State.gallery
      rw [only.galleries]
    simp only [List.any_eq_true, hgs, exists_eq_left, decide_eq_true_eq, same, Option.some.injEq]
    exact eq_comm
  unfold State.contributionNotice
  rw [hb]
  dsimp only
  rw [State.forEach_single (P := Only s) (fun t d hd only => if_neg (fun h => hd ((follows t d only).1 h)))
    (fun t only => ?_) (mem_upTo.2 ⟨h1, h24⟩) (upTo_nodup 24) (Only.refl s), if_pos ((follows s c (Only.refl s)).2 rfl)]
  rw [if_pos ((follows t c only).2 rfl)]
  exact only.trans (t.recomputeFollow_only none p c)

theorem State.beltpackOf_eq {s : State} {k p : Nat} {y : Station} (hy : s.station k = some y) (hcam : y.kind = .camera)
    (hp : y.pair = some p) : s.beltpackOf k = some p := by
  unfold State.beltpackOf
  rw [hy]
  exact (if_pos hcam).trans hp

theorem State.recomputeFollow_recomputes {s w : State} (links : ∀ j, (w.station j).map Station.link = (s.station j).map Station.link)
    {c : Nat} (hc : w.conference c = s.conference c) (p : Nat) : s.recomputes (w.recomputeFollow none p c) p c := by
  intro x hx hn
  have told := w.recomputeFollow_untold none p c
  have due : ∀ q, (w.recomputeFollow none p c).dueReasons none q c = w.dueReasons none q c := fun q =>
    State.dueReasons_untold told (w.recomputeFollow_only none p c).galleries none q c
  obtain ⟨held, denied⟩ := (State.recomputeFollow_followedTo (hc.trans hx) hn none p).before (s := s)
    (State.absentNow_of_links links)
  rw [due p]
  exact ⟨by simpa only [due] using held, denied⟩

/-- A derivation of a Camera that becomes or ceases to be a contributor of one gallery. -/
theorem State.derive_recomputes {s : State} {ks : List Nat} {k p g c : Nat} {y : Station} (all : ∀ j ∈ ks, j = k) (hk : k ∈ ks)
    (hy : s.station k = some y) (hcam : y.kind = .camera) (hp : y.pair = some p) (h1 : 1 ≤ c) (h24 : c ≤ 24)
    (hf : s.followOf none g = some c) (hg : 1 ≤ g ∧ g ≤ 8)
    (flips : ∀ h, (h ∈ s.contributingOf k ↔ h ∈ y.contributing) ↔ h ≠ g) :
    s.recomputes (s.derive ks) p c ∧ ∀ d, d ≠ c → (s.derive ks).conference d = s.conference d := by
  obtain ⟨only, -, conferences, -, -⟩ := s.deriveSet_beside ks
  have held := s.deriveSet_station ks k
  rw [if_pos hk, hy] at held
  have setLinks : ∀ j, ((s.deriveSet ks).station j).map Station.link = (s.station j).map Station.link := by
    intro j
    rw [State.deriveSet_station]
    split
    · rw [Option.map_map]
      rfl
    · rfl
  have changed : (s.tallyOf k != y.tally || s.contributingOf k != y.contributing) = true := by
    rw [Bool.or_eq_true]
    refine .inr (bne_iff_ne.2 (fun same => ?_))
    exact (flips g).1 (by rw [same]) rfl
  have delta : ∀ h, h ∈ (upTo 8).filter (fun h => (s.contributingOf k).contains h != y.contributing.contains h) ↔ h = g := by
    intro h
    rw [List.mem_filter, mem_upTo, bne_iff_ne, ne_eq, Bool.eq_iff_iff, List.contains_iff_mem, List.contains_iff_mem, flips h, not_not]
    exact ⟨fun ⟨_, h⟩ => h, fun e => ⟨e ▸ hg, e⟩⟩
  have acted := State.derive_single all hk hy
  unfold State.derivedActs at acted
  dsimp only at acted
  rw [if_pos changed] at acted
  have told : (s.deriveSet ks).stationsUntold (((s.deriveSet ks).markStation k StationReason.tallyChanged).recomputeLamps k) :=
    (Telling.untold _).recomputeLamps ((Telling.untold _).mark k _ (State.stationsUntold.refl _)) k
  have hushed : Hushed (s.deriveSet ks) (((s.deriveSet ks).markStation k StationReason.tallyChanged).recomputeLamps k) :=
    (Hushed.calm _).recomputeLamps ((Hushed.calm _).markStation (Hushed.refl _) k _) k
  generalize ((s.deriveSet ks).markStation k StationReason.tallyChanged).recomputeLamps k = w at acted told hushed
  obtain ⟨v, hv, same⟩ := told.station held
  have kind : v.kind = .camera := ((congrArg Station.kind same :) : v.kind = y.kind).trans hcam
  have pair : v.pair = some p := ((congrArg Station.pair same :) : v.pair = y.pair).trans hp
  have some_ : ((upTo 8).filter (fun h => (s.contributingOf k).contains h != y.contributing.contains h)).isEmpty = false := by
    rw [List.isEmpty_eq_false_iff_exists_mem]
    exact ⟨g, (delta g).2 rfl⟩
  rw [hv] at acted
  dsimp only at acted
  rw [if_pos (by rw [some_]; simp [kind]), State.contributionNotice_one (State.beltpackOf_eq hv kind pair) delta ?_ h1 h24] at acted
  · have conference : ∀ d, w.conference d = s.conference d := fun d => by
      unfold State.conference
      rw [hushed.conferences, conferences]
    rw [acted]
    refine ⟨State.recomputeFollow_recomputes (fun j => (told.map (g := Station.link) (fun _ => rfl) j).trans (setLinks j))
      (conference c) p, fun d hd => ?_⟩
    rw [State.recomputeFollow_others _ _ _ _ hd, conference d]
  · rw [← hf]
    unfold State.followOf State.gallery
    rw [hushed.quiet.1.galleries, only.galleries]

/-! ## Contributing galleries -/

theorem Gallery.reaches_iff (x : Gallery) (set : List Nat) (k : Nat) :
    x.reaches set k = true ↔ k ∈ set.filterMap x.stationOf := by
  simp [Gallery.reaches, List.mem_filterMap]

theorem State.mem_contributingOf {s : State} {h k : Nat} :
    h ∈ s.contributingOf k ↔ (1 ≤ h ∧ h ≤ 8) ∧ ∃ x, s.gallery h = some x ∧ k ∈ x.reached := by
  unfold State.contributingOf
  rw [List.mem_filter, mem_upTo]
  refine and_congr_right (fun _ => ?_)
  cases hx : s.gallery h with
  | none => simp
  | some x => simpa [Gallery.reached] using x.reaches_iff (x.program ++ x.preview) k

/-! ## The item -/

/-- The gallery that a TALLY item makes (R78). -/
def Gallery.reported (x : Gallery) (live : Bool) (program preview : List Nat) : Gallery :=
  { x with live := live, program := sortNat program, preview := sortNat preview }

/-- The gallery is put as the item makes it, with Tally Reported. -/
def State.tallyReported (s : State) (g : Nat) (x : Gallery) : State :=
  { s with galleries := s.galleries.put g { x with mark := addReason 1 x.mark } }

theorem State.tallyItem_same {s : State} {g : Nat} {x : Gallery} (hx : s.gallery g = some x) {live : Bool}
    {program preview : List Nat} (h : x.reported live program preview = x) : s.tallyItem g live program preview = s := by
  have live' : x.live = live := (congrArg Gallery.live h :).symm
  have program' : x.program = sortNat program := (congrArg Gallery.program h :).symm
  have preview' : x.preview = sortNat preview := (congrArg Gallery.preview h :).symm
  unfold State.tallyItem
  rw [hx]
  exact if_pos (by simp [live', program', preview'])

theorem State.tallyItem_changed {s : State} {g : Nat} {x : Gallery} (hx : s.gallery g = some x) {live : Bool}
    {program preview : List Nat} (h : x.reported live program preview ≠ x) : s.tallyItem g live program preview =
      (s.tallyReported g (x.reported live program preview)).derive (x.reached ++ (x.reported live program preview).reached) := by
  have changed : ¬ (decide (x.live = live) && decide (x.program = sortNat program) && decide (x.preview = sortNat preview)) = true := by
    simp only [Bool.and_eq_true, decide_eq_true_eq]
    rintro ⟨⟨rfl, program'⟩, preview'⟩
    exact h (by unfold Gallery.reported; rw [← program', ← preview'])
  unfold State.tallyItem
  rw [hx]
  refine (if_neg changed).trans (congrArg (State.derive · _) ?_)
  exact congrArg (fun gs => { s with galleries := gs })
    ((Table.modify_modify _ _ _ _).trans (Table.modify_of_get hx _))

/-- The answer that is one item takes the item's effect, which may be a change of galleries. -/
theorem State.polls.takes_of_load {s t : State} {a seq : Nat} {u : LineUnit} {kind : UnitKind} (h : s.polls a seq u kind)
    {body : List Word} (hb : body.length ≤ 104) {act : State → State} (hi : parseItem a body = some (act, []))
    (ht : act (s.answeredBy a u) = t) (hl : t.load = s.load) :
    exec (.pollAnswered (unitFrame (.poll a) seq kind body)) s = .next t := by
  have load : (act (s.answeredBy a u)).load = .none := by
    rw [ht, hl]
    exact (State.onLine_noted h.line u).2.1
  rw [State.oneItem h.line h.present h.kind hb hi load, ht]

theorem parseItem_tally (a g : Nat) (hg : g ≤ 8) (live : Bool) {program preview : List Word} (hp : program.length ≤ 4)
    (hq : preview.length ≤ 4) :
    parseItem a ([4#16, wordOf g, wordOfBool live, wordOf program.length, wordOf preview.length] ++ program ++ preview) =
      some ((State.takeTally · a g (wordOfBool live).toNat program.length preview.length
        ((program ++ preview).map BitVec.toNat)), []) := by
  have whole : ((program ++ preview).map BitVec.toNat).take (program.length + preview.length) =
      (program ++ preview).map BitVec.toNat := List.take_of_length_le (by simp)
  have rest : ([4#16, wordOf g, wordOfBool live, wordOf program.length, wordOf preview.length] ++ program ++ preview).drop
      (5 + program.length + preview.length) = [] := List.drop_of_length_le (by simp; omega)
  have words : ([4#16, wordOf g, wordOfBool live, wordOf program.length, wordOf preview.length] ++ program ++ preview).map
      BitVec.toNat = 4 :: g :: (wordOfBool live).toNat :: program.length :: preview.length ::
        (program ++ preview).map BitVec.toNat := by
    simp [toNat_wordOf (show g < 65536 by omega), toNat_wordOf (show program.length < 65536 by omega),
      toNat_wordOf (show preview.length < 65536 by omega)]
  unfold parseItem
  rw [words]
  refine (if_pos (show program.length + preview.length ≤ ((program ++ preview).map BitVec.toNat).length by simp)).trans ?_
  rw [whole, rest]

/-- A TALLY item within its ranges, of a gallery whose tally unit answers. -/
theorem State.polls.takeTally {s : State} {a seq : Nat} {u : LineUnit} (h : s.polls a seq u .tgi) {g : Nat} {x : Gallery}
    (hx : s.gallery g = some x) (hunit : x.tallyUnit = some a) (live : Bool) {program preview : List Word}
    (hp : program.length ≤ 4) (hq : preview.length ≤ 4) (hs : ∀ w ∈ program ++ preview, 1 ≤ w.toNat ∧ w.toNat ≤ 32) :
    (s.answeredBy a u).takeTally a g (wordOfBool live).toNat program.length preview.length
      ((program ++ preview).map BitVec.toNat) =
        (s.answeredBy a u).tallyItem g live (program.map BitVec.toNat) (preview.map BitVec.toNat) := by
  have held : (s.answeredBy a u).gallery g = some x := hx
  have ranges : ((program ++ preview).map BitVec.toNat).all gallerySource = true := by
    rw [List.all_map, List.all_eq_true]
    intro w hw
    simpa [gallerySource] using hs w hw
  have flag : (wordOfBool live).toNat ≤ 1 ∧ decide ((wordOfBool live).toNat = 1) = live := by
    cases live <;> decide
  have sets : ((program ++ preview).map BitVec.toNat).take program.length = program.map BitVec.toNat ∧
      ((program ++ preview).map BitVec.toNat).drop program.length = preview.map BitVec.toNat := by
    rw [List.map_append]
    exact ⟨List.take_left' (by simp), List.drop_left' (by simp)⟩
  have owner : ((s.answeredBy a u).gallery g).bind Gallery.tallyUnit = some a := by rw [held]; exact hunit
  unfold State.takeTally
  rw [h.unitKind, State.reading_sound (State.onLine_noted h.line _).1, h.item, sets.1, sets.2, flag.2, ranges]
  refine (if_pos (by rw [held]; simp [hp, hq, flag.1])).trans ?_
  exact if_pos owner

/-! ## What the item comes to -/

theorem Only.quarantined {s t : State} (h : Only s t) : t.quarantined = s.quarantined := by
  unfold State.quarantined
  rw [h.sameMachine.service, h.sameMachine.snapshot, h.sameMachine.badCodes]

/-- Lamps that were as R87 gives are so after a derivation. -/
theorem State.derive_lampsMatch {s : State} (ks : List Nat) (paired : s.pairsMutual) (h : s.lampsMatch) :
    (s.derive ks).lampsMatch := by
  intro k v hv own partner
  have only := (s.derive_beside ks).1
  have kept := s.derive_station ks k
  rw [only.quarantined] at own partner
  rw [hv] at kept
  obtain ⟨x, hx, same⟩ := Option.map_eq_some_iff.1 kept.symm
  have pair : v.pair = x.pair := by
    have := congrArg Station.pair same
    split at this <;> exact this.symm
  rw [pair] at partner
  have lit := (s.derive_lit paired ks hx ((h k x hx own partner).trans (State.lampWanted_eq hx))).2
  rw [hv, State.deriveSet_station, hx] at lit
  rw [State.lampWanted_eq hv, State.lampOf_untold (s.derive_told ks)]
  split at lit <;> exact Option.some.inj lit

theorem State.besideGalleries_tallied {s t : State} {gs : Table Gallery} (h : Only { s with galleries := gs } t) :
    s.besideGalleries t := by
  refine ⟨h.windows, h.settings, h.checkQueue, h.engine, ?_⟩
  have machine := h.sameMachine
  cases machine
  constructor <;> assumption

/-- A station that one of the two sets of a gallery reaches becomes or ceases to be a contributor of it. -/
theorem State.tallyReported_flips {s : State} {g k : Nat} {x new : Gallery} (h1 : 1 ≤ g) (h8 : g ≤ 8) (hx : s.gallery g = some x)
    (hk : k ∈ x.reached ↔ k ∉ new.reached) (h : Nat) :
    (h ∈ (s.tallyReported g new).contributingOf k ↔ h ∈ s.contributingOf k) ↔ h ≠ g := by
  rw [State.mem_contributingOf, State.mem_contributingOf]
  have held : (s.tallyReported g new).gallery h = if h = g then some { new with mark := addReason 1 new.mark }
      else s.gallery h := Table.get_put _ _ _ _
  rw [held]
  by_cases same : h = g
  · subst same
    rw [if_pos rfl, hx]
    simp only [Option.some.injEq, exists_eq_left', h1, h8, and_self, true_and, ne_eq, not_true_eq_false, iff_false]
    rw [hk]
    exact fun e => by
      by_cases r : k ∈ new.reached
      · exact e.1 r r
      · exact r (e.2 r)
  · rw [if_neg same]
    simp [same]

end Sys2Proof.Machine

namespace Sys2Proof
open Machine

/-- Settles O51. -/
theorem tallyItem : Obligations.TallyItem := by
  intro a seq g live program preview s u x hon hp hk h1 h8 hx hunit hlp hlq hsources answer noted new
  have polls : s.polls a seq u .tgi := ⟨hon, hp, hk⟩
  have held : (s.answeredBy a u).gallery g = some x := hx
  have short : ([4#16, wordOf g, wordOfBool live, wordOf program.length, wordOf preview.length] ++ program ++
      preview).length ≤ 104 := by
    simp only [List.length_append, List.length_cons, List.length_nil]
    omega
  have takes : ∀ t, (s.answeredBy a u).tallyItem g live (program.map BitVec.toNat) (preview.map BitVec.toNat) = t →
      t.load = s.load → exec answer s = .next t := fun t ht load =>
    polls.takes_of_load short (parseItem_tally a g h8 live hlp hlq) ((polls.takeTally hx hunit live hlp hlq hsources).trans ht) load
  refine ⟨fun same => takes _ (State.tallyItem_same held same) rfl, fun changed => ?_⟩
  have taken : (s.answeredBy a u).tallyItem g live (program.map BitVec.toNat) (preview.map BitVec.toNat) =
      ((s.answeredBy a u).tallyReported g new).derive (x.reached ++ new.reached) := State.tallyItem_changed held changed
  have rederived := State.derive_rederived (Only.refl ((s.answeredBy a u).tallyReported g new)) rfl (State.stationsUntold.refl _)
    (x.reached ++ new.reached)
  have lamps := State.derive_lampsMatch (s := (s.answeredBy a u).tallyReported g new) (x.reached ++ new.reached)
  have recompute : ∀ k p c y, (∀ j, j ∈ x.reached ∨ j ∈ new.reached → j = k) → (k ∈ x.reached ↔ k ∉ new.reached) → s.paired k p →
      s.station k = some y → s.tallyDerived k → x.follow = some c → 1 ≤ c → c ≤ 24 →
      s.recomputes (((s.answeredBy a u).tallyReported g new).derive (x.reached ++ new.reached)) p c ∧
        ∀ d, d ≠ c → (((s.answeredBy a u).tallyReported g new).derive (x.reached ++ new.reached)).conference d =
          s.conference d := by
    intro k p c y all one hpaired hy hderived hfollow hc1 hc24
    obtain ⟨y', z, hy', hcam, hpair, -⟩ := hpaired
    obtain rfl := Option.some.inj (hy.symm.trans hy')
    have reached : k ∈ x.reached ++ new.reached := by
      rw [List.mem_append]
      by_cases r : k ∈ new.reached
      · exact .inr r
      · exact .inl (one.2 r)
    have follow : ((s.answeredBy a u).tallyReported g new).followOf none g = some c := by
      have put : ((s.answeredBy a u).tallyReported g new).gallery g = some { new with mark := addReason 1 new.mark } :=
        Table.get_put_self _ _ _
      unfold State.followOf
      dsimp only
      rw [put]
      exact hfollow
    have flips : ∀ h, (h ∈ ((s.answeredBy a u).tallyReported g new).contributingOf k ↔ h ∈ y.contributing) ↔ h ≠ g := by
      intro h
      rw [(hderived y hy).2]
      exact State.tallyReported_flips (s := s.answeredBy a u) h1 h8 held one h
    exact State.derive_recomputes (s := (s.answeredBy a u).tallyReported g new) (fun j hj => all j (List.mem_append.1 hj))
      reached hy hcam hpair hc1 hc24 follow ⟨h1, h8⟩ flips
  generalize ((s.answeredBy a u).tallyReported g new).derive (x.reached ++ new.reached) = t at taken rederived lamps recompute
  obtain ⟨only, carriers, tallies, tallyless, cores⟩ := rederived
  refine ⟨t, takes t taken only.sameMachine.load, only.galleries, fun j hj => tallies j (List.mem_append.2 hj), tallyless,
    fun j hx hn => cores j (fun h => (List.mem_append.1 h).elim hx hn), lamps, fun k p c y all one hpaired hy hd hf hc1 hc24 =>
      ⟨State.dueAre_of_paired (State.paired_of_tallyless tallyless hpaired) c, recompute k p c y all one hpaired hy hd hf hc1 hc24⟩,
    carriers, State.besideGalleries_tallied only, only.storeStates, only.port⟩

end Sys2Proof
end

section
/-! What the ends of a Poll come to (R145, R146): the statement fails for a station without a lamp that has one. -/

namespace Sys2Proof.Machine

/-! ## A Mic with a wanted lamp -/

/-- A Mic that is Up, on unit 1, with a wanted lamp that waits to be delivered, although R87 gives a Mic none. -/
def litMic : Station :=
  { Station.ofWords stationDefaults with
    kind := .mic
    controlUnit := some 1
    link := .up
    lamp := some ⟨.live, false, false⟩
    lampBase := .waiting
    tally := .live
    contributing := [1] }

/-- Unit 1 has missed two Polls, and the third is on the line; it is the tally unit of a gallery in which the Mic is Live. -/
def litMicPolled : State :=
  { State.reset with
    service := .inService
    load := .none
    stations := ⟨[(1, .held litMic)]⟩
    galleries := ⟨[(1, .held { Gallery.blank with tallyUnit := some 1, live := true, program := [1], sources := [some 1] })]⟩
    units := ⟨some .txc, .present, 2, []⟩ :: List.replicate 31 LineUnit.reset
    line := some ⟨.poll 1, 7⟩ }

theorem litMicPolled_onLine : litMicPolled.onLine (.poll 1) 7 ⟨some .txc, .present, 2, []⟩ := by
  refine ⟨.inl rfl, rfl, rfl, ?_, ?_, by decide, rfl, rfl⟩ <;> decide

/-- Its lamp is delivered to unit 1, and waits. -/
theorem litMicPolled_waits : litMicPolled.delivery .lamp 1 = some ⟨some 1, .lamp ⟨.live, false, false⟩, none, .waiting⟩ ∧
    litMicPolled.deliveryCode .lamp 1 = some 3 := by decide +kernel

/-- The lost unit's gallery is emptied, the Mic's tally is derived afresh, and its lamp is recomputed: it has none. -/
theorem litMicPolled_missed : ∀ t, exec .pollMissed litMicPolled = .next t → t.deliveryCode .lamp 1 = none := by
  have missed : (match exec .pollMissed litMicPolled with
    | .next t => t.deliveryCode .lamp 1
    | _ => some 4) = none := by decide +kernel
  intro t ht
  rwa [ht] at missed

end Sys2Proof.Machine

namespace Sys2Proof
open Machine

/-- Refutes O47: the loss of a unit empties the galleries that it serves, and a Mic that they reach has its lamp recomputed
(R80, R87). Where the state gave the Mic a wanted lamp, which no rule gives it, that lamp's delivery is gone and not Stale. -/
theorem not_pollOutcomes : ¬ Obligations.PollOutcomes := by
  intro h
  obtain ⟨t, ht, loses⟩ := (h.1 1 7 .txc litMicPolled _ litMicPolled_onLine (by decide)).2.2.2.2.1 rfl (by decide)
  have gone := litMicPolled_missed t ht
  have stale := loses.stale .lamp 1 _ 3 (by decide) (by decide) (by decide) litMicPolled_waits.1 rfl litMicPolled_waits.2
    (by decide) (by decide)
  rw [gone] at stale
  cases stale

end Sys2Proof
end

section
/-! The loss of the TKM unit, and the tally sets that a lost tally unit empties (R85, R104, R123). -/

namespace Sys2Proof.Machine

/-! ## Talkers are dropped -/

/-- The talkers of one conference are dropped (R104). -/
def State.dropTalkersIn (s : State) (c : Nat) : State :=
  match s.conference c with
  | none => s
  | some x =>
    if x.talkers.isEmpty then s
    else ((s.modConference c (fun x => { x with talkers := [] })).markConference c
      ConferenceReason.talkersDropped).recomputeRouting c

theorem State.dropTalkers_eq (s : State) : s.dropTalkers = s.forEach (upTo 24) State.dropTalkersIn := rfl

theorem State.dropTalkersIn_spec (s : State) (c : Nat) : s.besideConference (s.dropTalkersIn c) c ∧
    ∀ x, s.conference c = some x → ∃ m r b, (s.dropTalkersIn c).conference c =
      some { x with talkers := [], mark := m, routing := r, routingBase := b } := by
  unfold State.dropTalkersIn
  cases hx : s.conference c with
  | none =>
    dsimp only
    exact ⟨State.besideConference.refl s c, fun x h => by cases h⟩
  | some x =>
    dsimp only
    split
    · rename_i empty
      refine ⟨State.besideConference.refl s c, fun y h => ⟨x.mark, x.routing, x.routingBase, ?_⟩⟩
      obtain rfl := Option.some.inj h
      rw [hx, ← List.isEmpty_iff.1 empty]
    · have dropped := State.conference_of_mod (State.conference_of_mod hx (fun x => { x with talkers := [] }))
        (fun x => { x with mark := addReason ConferenceReason.talkersDropped x.mark })
      obtain ⟨beside, b, held⟩ := State.recomputeRouting_rerouted dropped
      refine ⟨((s.besideConference_mod c _).trans (State.besideConference_mod _ c _)).trans beside, fun y h => ?_⟩
      obtain rfl := Option.some.inj h
      exact ⟨_, _, b, held⟩

theorem State.dropTalkersIn_none {s : State} {c : Nat} (h : s.conference c = none) : s.dropTalkersIn c = s := by
  unfold State.dropTalkersIn
  rw [h]

theorem State.dropTalkersIn_talkers (s : State) (c : Nat) {x : Conference} (hx : (s.dropTalkersIn c).conference c = some x) :
    x.talkers = [] := by
  cases hy : s.conference c with
  | none =>
    rw [State.dropTalkersIn_none hy, hy] at hx
    cases hx
  | some y =>
    obtain ⟨m, r, b, held⟩ := (s.dropTalkersIn_spec c).2 y hy
    rw [held] at hx
    cases hx
    rfl

/-- Every talker list is empty once the talkers are dropped. -/
theorem State.dropTalkers_talkers (s : State) {c : Nat} (h1 : 1 ≤ c) (h24 : c ≤ 24) {x : Conference}
    (hx : s.dropTalkers.conference c = some x) : x.talkers = [] := by
  refine State.forEach_establishes (P := fun (t : State) (c : Nat) => ∀ x, t.conference c = some x → x.talkers = [])
    (f := State.dropTalkersIn) (fun t c _ hx => t.dropTalkersIn_talkers c hx) (fun t c d h x hx => ?_) (upTo 24) s c
    (mem_upTo.2 ⟨h1, h24⟩) x hx
  by_cases e : c = d
  · subst e
    exact t.dropTalkersIn_talkers c hx
  · rw [(t.dropTalkersIn_spec d).1.others c e] at hx
    exact h x hx

/-- What was last delivered of a routing stands while talkers are dropped. -/
theorem State.dropTalkers_delivered (s : State) (c : Nat) :
    (s.dropTalkers.conference c).map Conference.deliveredRouting = (s.conference c).map Conference.deliveredRouting := by
  refine State.forEach_keeps (P := fun t => (t.conference c).map Conference.deliveredRouting =
    (s.conference c).map Conference.deliveredRouting) rfl (upTo 24) (f := State.dropTalkersIn) (fun t d h => ?_)
  obtain ⟨beside, spec⟩ := t.dropTalkersIn_spec d
  rw [← h]
  by_cases e : c = d
  · subst e
    cases hy : t.conference c with
    | none => rw [State.dropTalkersIn_none hy, hy]
    | some y =>
      obtain ⟨m, r, b, held⟩ := spec y hy
      rw [held]
      rfl
  · rw [beside.others c e]

/-! ## The TKM unit is lost -/

theorem Calm.releaseKeyCues {P : State → Prop} (hc : Calm P) {s : State} (h : P s) : P s.releaseKeyCues := by
  refine State.forEach_keeps h _ (fun t k ht => ?_)
  split
  · split
    · exact hc.markStation (hc.releaseWhere ht _ _) _ _
    · exact ht
  · exact ht

theorem State.releaseKeyCues_conferences (s : State) : s.releaseKeyCues.conferences = s.conferences :=
  ((Hushed.calm s).releaseKeyCues (Hushed.refl s)).conferences

/-- What was last delivered of a station. -/
def Station.deliveries (x : Station) : Option Tune × Option Lamp × Option (Option Source) :=
  (x.delivered, x.deliveredLamp, x.deliveredRoute)

theorem Cueing.deliveries (s : State) :
    Cueing (fun t => ∀ j, (t.station j).map Station.deliveries = (s.station j).map Station.deliveries) :=
  Cueing.project Station.deliveries (fun _ kd _ => by cases kd <;> rfl) (fun _ _ => rfl) (fun _ _ => rfl) (fun _ _ _ _ => rfl) s

/-- What the notice of the TKM unit's loss comes to (R104, R123). -/
structure State.matrixGone (s t : State) : Prop where
  quiet : Quiet s t
  talkers : ∀ c x, 1 ≤ c → c ≤ 24 → t.conference c = some x → x.talkers = []
  routings : ∀ c, (t.conference c).map Conference.deliveredRouting = (s.conference c).map Conference.deliveredRouting
  deliveries : ∀ j, (t.station j).map Station.deliveries = (s.station j).map Station.deliveries

theorem State.matrixLost_gone (s : State) : s.matrixGone s.matrixLost := by
  have conferences : ∀ c, s.matrixLost.conference c = s.dropTalkers.conference c := fun c =>
    congrArg (Table.get · c) s.dropTalkers.releaseKeyCues_conferences
  refine ⟨(Quiet.soft s).matrixLost (Quiet.refl s), fun c x h1 h24 hx => ?_, fun c => ?_,
    (Cueing.deliveries s).matrixLost (fun _ => rfl)⟩
  · rw [conferences] at hx
    exact s.dropTalkers_talkers h1 h24 hx
  · rw [conferences]
    exact s.dropTalkers_delivered c

/-! ## Tally sets are emptied -/

/-- A gallery whose tally sets are emptied, with Tally Lost (R85). -/
@[reducible] def Gallery.silenced (x : Gallery) : Gallery :=
  { x with live := false, program := [], preview := [], mark := addReason 2 x.mark }

/-- A gallery has something to empty. -/
def Gallery.shows (x : Gallery) : Bool := x.live || !x.program.isEmpty || !x.preview.isEmpty

theorem Gallery.shows_iff (x : Gallery) : x.shows = true ↔ x.live = true ∨ x.program ≠ [] ∨ x.preview ≠ [] := by
  simp [Gallery.shows, or_assoc]

/-- The galleries whose sets a test empties. -/
def State.emptiedGalleries (s : State) (p : Gallery → Bool) : Table Gallery :=
  s.galleries.modifyAll ((s.galleries.records.filter (fun q => p q.2 && q.2.shows)).map (·.1)) Gallery.silenced

theorem State.emptied_gallery {s : State} (h : s.galleries.wf = true) (p : Gallery → Bool) (g : Nat) :
    (s.emptiedGalleries p).get g = (s.gallery g).map (fun x => if p x && x.shows then x.silenced else x) :=
  Table.get_modifyAll_records h (fun q => p q.2 && q.2.shows) Gallery.silenced g

theorem State.emptySets_eq (s : State) (p : Gallery → Bool) : s.emptySets p =
    State.derive { s with galleries := s.emptiedGalleries p }
      ((s.galleries.records.filter (fun q => p q.2 && q.2.shows)).flatMap (fun q => q.2.reached)) := by
  have step : ∀ (t : State) (q : Nat × Gallery), (t.modGallery q.1 (fun g => { g with
      live := false, program := [], preview := [] })).markGallery q.1 GalleryReason.tallyLost =
        t.modGallery q.1 Gallery.silenced := fun t q =>
    congrArg (fun m => { t with galleries := m }) (Table.modify_modify t.galleries q.1 _ _)
  have emptied : s.forEach (s.galleries.records.filter (fun q => p q.2 && q.2.shows)) (fun t q => t.modGallery q.1 Gallery.silenced) =
      { s with galleries := s.emptiedGalleries p } := by
    rw [State.emptiedGalleries, ← State.forEach_modGallery, State.forEach, State.forEach, List.foldl_map]
  rw [← emptied]
  unfold State.emptySets
  simp only [step]
  rfl

/-- The galleries are emptied, the stations that they reached derived afresh, and the rest stands (R85). -/
theorem State.emptySets_rederived (s : State) (p : Gallery → Bool) :
    State.rederived { s with galleries := s.emptiedGalleries p } (s.emptySets p)
      ((s.galleries.records.filter (fun q => p q.2 && q.2.shows)).flatMap (fun q => q.2.reached)) := by
  rw [State.emptySets_eq]
  exact State.derive_rederived (Only.refl _) rfl (State.stationsUntold.refl _) _

end Sys2Proof.Machine
end

section
/-! SET MATRIX UNIT, FORGET UNIT and LINE RESET, whole (R154 to R156). -/

namespace Sys2Proof.Machine

/-! ## SET MATRIX UNIT -/

/-- The delivered states of the routings and the cue routes are undelivered for a new TKM unit (R154). -/
def State.rematrixed (s : State) (u : Option Nat) : State :=
  { s with
    settings := { s.settings with matrixUnit := u }
    stations := s.stations.map (fun _ x => { x with deliveredRoute := none, cueBase := .waiting })
    conferences := s.conferences.map (fun _ c => { c with deliveredRouting := none, routingBase := .waiting })
    finals := s.finals.map (fun (f : Final) => if f.forMatrix then { f with delivered := none, base := .waiting } else f) }

/-- The deliveries of the old TKM unit are withdrawn and decided for the new one (R154). -/
def State.rematched (s : State) (u : Option Nat) : State :=
  ((s.rematrixed u).withdraw (fun e => e.forMatrix && !e.detached)).forEach matrixKeys (fun t p => t.decideDelivery p.1 p.2)

theorem State.changeMatrix_eq (s : State) (u : Option Nat) : s.changeMatrix u = (s.rematched u).partChanged.matrixLost := rfl

theorem Soft.rematched {P : State → Prop} (hc : Soft P) {s : State} {u : Option Nat} (h : P (s.rematrixed u)) :
    P (s.rematched u) :=
  State.forEach_keeps (hc.withdraw h _) _ (fun _ p ht => hc.decideDelivery ht p.1 p.2)

theorem Decides.rematched {P : State → Prop} (hc : Decides P) {s : State} {u : Option Nat} (h : P (s.rematrixed u)) :
    P (s.rematched u) :=
  State.forEach_keeps (hc.withdraw h _) _ (fun _ p ht => hc.decideDelivery ht p.1 p.2)

theorem State.conferencesUnrouted.delivered {s t : State} (h : s.conferencesUnrouted t) (c : Nat) :
    (t.conference c).map Conference.deliveredRouting = (s.conference c).map Conference.deliveredRouting := by
  have kept := congrArg (Option.map Conference.deliveredRouting) (h c)
  rw [Option.map_map, Option.map_map] at kept
  exact kept

theorem State.rematrixed_station (s : State) (u : Option Nat) (j : Nat) : (s.rematrixed u).station j =
    (s.station j).map (fun x => { x with deliveredRoute := none, cueBase := .waiting }) := Table.get_map _ _ _

theorem State.rematrixed_conference (s : State) (u : Option Nat) (c : Nat) : (s.rematrixed u).conference c =
    (s.conference c).map (fun x => { x with deliveredRouting := none, routingBase := .waiting }) := Table.get_map _ _ _

/-- What a new TKM unit comes to (R154). -/
structure State.changesMatrix (s t : State) (u : Option Nat) : Prop where
  only : Only { s with settings := { s.settings with matrixUnit := u }, storeStates := { s.storeStates with part := true } } t
  carriers : t.carriers = s.carriers
  cores : ∀ j, (t.station j).map Station.core = (s.station j).map Station.core
  conferences : ∀ c x, 1 ≤ c → c ≤ 24 → t.conference c = some x → x.talkers = [] ∧ x.deliveredRouting = none
  routes : ∀ j v, t.station j = some v → v.deliveredRoute = none

theorem State.changeMatrix_changes (s : State) (u : Option Nat) : s.changesMatrix (s.changeMatrix u) u := by
  have quiet : Quiet (s.rematrixed u) (s.rematched u) := (Quiet.soft (s.rematrixed u)).rematched (Quiet.refl _)
  obtain ⟨only, carriers, cores⟩ := quiet
  have routes : ∀ j, ((s.rematched u).station j).map Station.deliveredRoute =
      ((s.rematrixed u).station j).map Station.deliveredRoute :=
    Decides.rematched (s := s) (u := u)
      (Decides.project Station.deliveredRoute (fun _ kd _ => by cases kd <;> rfl) (s.rematrixed u)) (fun _ => rfl)
  have unrouted : (s.rematrixed u).conferencesUnrouted (s.rematched u) :=
    (State.conferencesUnrouted.decides (s.rematrixed u)).rematched (State.conferencesUnrouted.refl _)
  have routings := unrouted.delivered
  rw [State.changeMatrix_eq]
  clear unrouted
  generalize s.rematched u = w at *
  obtain ⟨⟨only', carriers', cores'⟩, talkers, routings', deliveries⟩ := w.partChanged.matrixLost_gone
  generalize w.partChanged.matrixLost = t at *
  refine ⟨?_, carriers'.trans carriers, fun j => ?_, fun c x h1 h24 hx => ⟨talkers c x h1 h24 hx, ?_⟩, fun j v hv => ?_⟩
  · unfold Only at only only' ⊢
    rw [only']
    unfold State.partChanged
    rw [only]
    rfl
  · refine ((cores' j).trans (cores j)).trans ?_
    rw [State.rematrixed_station, Option.map_map]
    rfl
  · have kept := (routings' c).trans (routings c)
    rw [hx, State.rematrixed_conference, Option.map_map] at kept
    obtain ⟨y, -, none⟩ := Option.map_eq_some_iff.1 kept.symm
    exact none.symm
  · have kept := congrArg (Option.map (fun p => p.2.2)) (deliveries j)
    rw [Option.map_map, Option.map_map] at kept
    have first : (t.station j).map Station.deliveredRoute = ((s.rematrixed u).station j).map Station.deliveredRoute :=
      Eq.trans kept (routes j)
    rw [hv, State.rematrixed_station, Option.map_map] at first
    obtain ⟨y, -, none⟩ := Option.map_eq_some_iff.1 first.symm
    exact none.symm

/-! ## FORGET UNIT -/

/-- A Stale delivery to a unit that is forgotten waits (R155). -/
def State.unstale (a : Nat) (s : State) (p : DeliveryKind × Nat) : State :=
  match s.delivery p.1 p.2 with
  | some d => if d.destination = some a && d.base = .stale then s.setBase p.1 p.2 .waiting else s
  | none => s

theorem State.forget_eq (s : State) (a : Nat) : s.forget a =
    ((s.modUnit a (fun u => { u with kind := none, state := .absent, missed := 0 })).dropFinalsTo a).forEach deliveryKeys
      (State.unstale a) := rfl

/-- A delivery that no record owns is a final one. -/
theorem State.finalDelivery_of_delivery {s : State} {kd : DeliveryKind} {k : Nat} (ho : s.owned kd k = false) {d : Delivery}
    (hd : s.delivery kd k = some d) : s.finalDelivery kd k = some d := by
  unfold State.owned at ho
  unfold State.delivery at hd
  cases kd with
  | tune =>
    dsimp only at ho hd
    cases hx : s.station k with
    | none => rwa [hx] at hd
    | some x => rw [hx] at ho; cases ho
  | lamp =>
    dsimp only at ho hd
    cases hx : s.station k with
    | none => rw [hx] at hd; cases hd
    | some x => rw [hx] at ho; cases ho
  | routing =>
    dsimp only at ho hd
    cases hx : s.conference k with
    | none => rwa [hx] at hd
    | some x => rw [hx] at ho; cases ho
  | cueRoute =>
    dsimp only at ho hd
    cases hx : s.station k with
    | none => rwa [hx] at hd
    | some x =>
      rw [hx] at ho hd
      dsimp only at ho hd
      rwa [ho] at hd

theorem State.final_of_delivery {s : State} {kd : DeliveryKind} {k : Nat} (ho : s.owned kd k = false) {d : Delivery}
    (hd : s.delivery kd k = some d) : ∃ f ∈ s.finals, s.finalDestination f = d.destination := by
  obtain ⟨f, hf, rfl⟩ := Option.map_eq_some_iff.1 (State.finalDelivery_of_delivery ho hd)
  exact ⟨f, List.mem_of_find?_eq_some hf, rfl⟩

/-- A step of the forgetting is nothing, or a delivery of a record waits. -/
theorem State.unstale_cases {a : Nat} {s : State} (hf : ∀ f ∈ s.finals, s.finalDestination f ≠ some a) (p : DeliveryKind × Nat) :
    s.unstale a p = s ∨ (s.owned p.1 p.2 = true ∧ s.unstale a p = s.setBase p.1 p.2 .waiting) := by
  unfold State.unstale
  split
  · rename_i d hd
    split
    · rename_i h
      simp only [Bool.and_eq_true, decide_eq_true_eq] at h
      cases ho : s.owned p.1 p.2 with
      | true => exact .inr ⟨rfl, rfl⟩
      | false =>
        obtain ⟨f, hm, hd'⟩ := State.final_of_delivery ho hd
        exact absurd (hd'.trans h.1) (hf f hm)
    · exact .inl rfl
  · exact .inl rfl

/-- What the base of a record's delivery does not bear on. -/
theorem State.setBase_owned {s : State} {kd : DeliveryKind} {k : Nat} (ho : s.owned kd k = true) (b : DeliveryBase) :
    (s.setBase kd k b).finals = s.finals ∧ (s.setBase kd k b).queue = s.queue := by
  unfold State.setBase
  rw [if_pos ho]
  cases kd <;> exact ⟨rfl, rfl⟩

/-- What the forgetting of a unit has kept so far. -/
structure State.forgetting (u t : State) : Prop where
  quiet : Quiet u t
  finals : t.finals = u.finals
  queue : t.queue = u.queue

theorem State.forgetting.unstale {u t : State} {a : Nat} (h : u.forgetting t)
    (hf : ∀ f ∈ u.finals, u.finalDestination f ≠ some a) (p : DeliveryKind × Nat) : u.forgetting (t.unstale a p) := by
  have fs : ∀ f ∈ t.finals, t.finalDestination f ≠ some a := by
    intro f hm
    rw [h.finals] at hm
    unfold State.finalDestination
    rw [h.quiet.1.settings]
    exact hf f hm
  rcases State.unstale_cases fs p with e | ⟨ho, e⟩
  · rw [e]
    exact h
  · obtain ⟨finals, queue⟩ := State.setBase_owned ho .waiting
    rw [e]
    exact ⟨(Quiet.soft u).setBase h.quiet _ _ _, finals.trans h.finals, queue.trans h.queue⟩

/-- The tune of a station is not Stale for unit a. -/
def State.tuneFresh (a k : Nat) (s : State) : Prop :=
  ∀ x, s.station k = some x → x.controlUnit = some a → x.tuneBase ≠ .stale

theorem State.tuneFresh.mod {s : State} {a k : Nat} (h : s.tuneFresh a k) (j : Nat) {f : Station → Station}
    (hf : ∀ x, (f x).controlUnit = x.controlUnit ∧ ((f x).tuneBase = x.tuneBase ∨ (f x).tuneBase = .waiting)) :
    (s.modStation j f).tuneFresh a k := by
  intro x hx hu
  rw [State.station_modStation] at hx
  split at hx
  · obtain ⟨y, hy, rfl⟩ := Option.map_eq_some_iff.1 hx
    rw [(hf y).1] at hu
    rcases (hf y).2 with e | e
    · rw [e]
      exact h y hy hu
    · rw [e]
      exact nofun
  · exact h x hx hu

theorem State.tuneFresh.setBase {s : State} {a k : Nat} (h : s.tuneFresh a k) (kd : DeliveryKind) (j : Nat) :
    (s.setBase kd j .waiting).tuneFresh a k := by
  unfold State.setBase
  split
  · cases kd with
    | tune => exact h.mod j (fun _ => ⟨rfl, .inr rfl⟩)
    | lamp => exact h.mod j (fun _ => ⟨rfl, .inl rfl⟩)
    | cueRoute => exact h.mod j (fun _ => ⟨rfl, .inl rfl⟩)
    | routing => exact h
  · split
    · exact h
    · exact h

theorem State.tuneFresh.unstale {s : State} {a k : Nat} (h : s.tuneFresh a k) (p : DeliveryKind × Nat) :
    (s.unstale a p).tuneFresh a k := by
  unfold State.unstale
  split
  · split
    · exact h.setBase _ _
    · exact h
  · exact h

theorem State.unstale_tune (s : State) (a k : Nat) : (s.unstale a (.tune, k)).tuneFresh a k := by
  cases hx : s.station k with
  | none =>
    refine State.tuneFresh.unstale (fun x h => ?_) _
    rw [hx] at h
    cases h
  | some x =>
    by_cases stale : x.controlUnit = some a ∧ x.tuneBase = .stale
    · obtain ⟨hu, hb⟩ := stale
      have delivery : s.delivery .tune k = some ⟨some a, .tune x.wanted, x.delivered.map .tune, .stale⟩ := by
        unfold State.delivery
        rw [hx]
        dsimp only
        rw [hu, hb]
        rfl
      unfold State.unstale
      dsimp only
      rw [delivery]
      dsimp only
      rw [if_pos (by simp), State.setBase_station hx (kind := .tune) nofun nofun]
      intro y hy _
      rw [State.station_of_mod hx] at hy
      cases hy
      exact nofun
    · refine State.tuneFresh.unstale (fun y h hu hb => stale ?_) _
      rw [hx] at h
      cases h
      exact ⟨hu, hb⟩

theorem mem_deliveryKeys_tune {k : Nat} (h1 : 1 ≤ k) (h96 : k ≤ 96) : (DeliveryKind.tune, k) ∈ deliveryKeys := by
  unfold deliveryKeys
  rw [List.mem_append, List.mem_append, List.mem_flatMap]
  exact .inl (.inl ⟨k, mem_upTo.2 ⟨h1, h96⟩, List.mem_cons_self⟩)

/-- What the forgetting of a unit comes to, after the unit and its final deliveries. -/
theorem State.forEach_unstale {s : State} {a : Nat} (hf : ∀ f ∈ s.finals, s.finalDestination f ≠ some a) :
    s.forgetting (s.forEach deliveryKeys (State.unstale a)) ∧
      ∀ k, 1 ≤ k → k ≤ 96 → (s.forEach deliveryKeys (State.unstale a)).tuneFresh a k :=
  ⟨State.forEach_keeps ⟨Quiet.refl s, rfl, rfl⟩ _ (fun _ p h => h.unstale hf p),
    fun k h1 h96 => State.forEach_reaches (P := fun _ => True) (mem_deliveryKeys_tune h1 h96) (fun _ _ _ _ => trivial)
      (fun t _ => t.unstale_tune a k) (fun _ p h => h.unstale p) trivial⟩

/-- A unit is forgotten, and its final deliveries with it. -/
def State.dismissed (s : State) (a : Nat) (u : LineUnit) : State :=
  { s with
    units := s.units.set (a - 1) { u with kind := none, state := .absent, missed := 0 }
    finals := s.finals.filter (fun f => s.finalDestination f != some a) }

/-- What a FORGET UNIT comes to (R155). -/
structure State.forgets (s t : State) (a : Nat) (u : LineUnit) : Prop where
  only : Only (s.dismissed a u) t
  carriers : t.carriers = s.carriers
  cores : ∀ j, (t.station j).map Station.core = (s.station j).map Station.core
  finals : t.finals = s.finals.filter (fun f => s.finalDestination f != some a)
  queue : t.queue = s.queue
  tunes : ∀ k d, 1 ≤ k → k ≤ 96 → t.delivery .tune k = some d → d.destination = some a → d.base ≠ .stale

theorem State.forget_forgets (s : State) {a : Nat} {u : LineUnit} (hu : s.unitAt a = some u) : s.forgets (s.forget a) a u := by
  have start : (s.modUnit a (fun u => { u with kind := none, state := .absent, missed := 0 })).dropFinalsTo a = s.dismissed a u := by
    rw [State.modUnit_set hu]
    rfl
  have gone : ∀ f ∈ (s.dismissed a u).finals, (s.dismissed a u).finalDestination f ≠ some a := by
    intro f hf
    have := (List.mem_filter.1 hf).2
    exact bne_iff_ne.1 this
  obtain ⟨⟨⟨only, carriers, cores⟩, finals, queue⟩, fresh⟩ := State.forEach_unstale gone
  rw [State.forget_eq, start]
  generalize (s.dismissed a u).forEach deliveryKeys (State.unstale a) = t at *
  refine ⟨only, carriers, cores, finals, queue, fun k d h1 h96 hd hto => ?_⟩
  cases hx : t.station k with
  | none =>
    have ho : t.owned .tune k = false := by
      unfold State.owned
      rw [hx]
      rfl
    obtain ⟨f, hf, dest⟩ := State.final_of_delivery ho hd
    rw [finals] at hf
    unfold State.finalDestination at dest
    rw [only.settings, hto] at dest
    exact absurd dest (gone f hf)
  | some x =>
    unfold State.delivery at hd
    rw [hx] at hd
    obtain ⟨v, hv, rfl⟩ := Option.map_eq_some_iff.1 hd
    exact fresh k h1 h96 x hx (hv.trans hto)

/-! ## LINE RESET -/

/-- The line as a LINE RESET leaves it, before the notices (R156). -/
def State.lineRestarted (s : State) : State :=
  { s with
    line := none
    units := List.replicate 32 LineUnit.reset
    queue := []
    stations := s.stations.map (fun _ x =>
      { x with tuneBase := x.tuneBase.lineReset, lampBase := x.lampBase.lineReset, cueBase := x.cueBase.lineReset })
    conferences := s.conferences.map (fun _ c => { c with routingBase := c.routingBase.lineReset })
    finals := s.finals.map (fun (f : Final) => { f with base := .waiting })
    round := []
    lastDiscover := 0
    turn := .poll }

theorem State.resetLine_eq (s : State) : s.resetLine = (s.lineRestarted.emptySets (fun _ => true)).matrixLost := rfl

/-- The queue is empty, and no unit is there to which it could be filled. -/
def State.lineIdle (s : State) : Prop := s.queue = [] ∧ s.units = List.replicate 32 LineUnit.reset

theorem State.setBase_line (s : State) (kd : DeliveryKind) (k : Nat) (b : DeliveryBase) :
    (s.setBase kd k b).queue = s.queue ∧ (s.setBase kd k b).units = s.units := by
  unfold State.setBase
  split
  · cases kd <;> exact ⟨rfl, rfl⟩
  · split <;> exact ⟨rfl, rfl⟩

theorem State.lineIdle.unreachable {s : State} (h : s.lineIdle) (kd : DeliveryKind) (d : Option Nat) : s.reachable kd d = false := by
  unfold State.reachable State.unitAt
  rw [h.2]
  cases d with
  | none => rfl
  | some u =>
    dsimp only
    split
    · rename_i x hx
      split at hx
      · cases hx
      · rw [List.eq_of_mem_replicate (List.mem_of_getElem? hx)]
        rfl
    · rfl

theorem State.lineIdle.hand {s : State} (h : s.lineIdle) (kd : DeliveryKind) (k : Nat) : (s.hand kd k).lineIdle := by
  have based : ∀ b, (s.setBase kd k b).lineIdle := fun b => by
    obtain ⟨queue, units⟩ := s.setBase_line kd k b
    exact ⟨queue.trans h.1, units.trans h.2⟩
  have empty : ∀ d, s.entryOf d kd k = none := fun d => by
    unfold State.entryOf
    rw [h.1]
    split <;> rfl
  unfold State.hand
  split
  · exact h
  · split
    · unfold State.decideDelivery
      split
      · exact h
      · rw [empty]
        dsimp only
        rw [h.unreachable]
        split
        · exact based _
        · split
          · exact based _
          · exact based _
    · exact h

theorem Cueing.lineIdle : Cueing State.lineIdle where
  hand h kd k := h.hand kd k
  mark _ _ h := h
  lamp _ _ h := h
  modConference h := h
  stack _ _ _ _ h := h

/-- What a LINE RESET comes to (R156). -/
structure State.restarts (s t : State) : Prop where
  only : Only { s.lineRestarted with galleries := s.emptiedGalleries (fun _ => true) } t
  carriers : t.carriers = s.carriers
  queue : t.queue = []
  talkers : ∀ c x, 1 ≤ c → c ≤ 24 → t.conference c = some x → x.talkers = []
  tallyless : ∀ j, (t.station j).map Station.tallyless = (s.station j).map Station.tallyless

theorem State.deriveSet_lineIdle {s : State} (h : s.lineIdle) (ks : List Nat) : (s.deriveSet ks).lineIdle := by
  obtain ⟨only, -, -, queue, -⟩ := s.deriveSet_beside ks
  exact ⟨queue.trans h.1, only.sameMachine.units.trans h.2⟩

theorem State.derive_lineIdle {s : State} (h : s.lineIdle) (ks : List Nat) : (s.derive ks).lineIdle := by
  rw [State.derive_eq]
  exact State.forEach_keeps (State.deriveSet_lineIdle h ks) _ (fun _ d ht => Cueing.lineIdle.derivedActs ht d)

theorem State.resetLine_restarts (s : State) : s.restarts s.resetLine := by
  have rederived := s.lineRestarted.emptySets_rederived (fun _ => true)
  have idle : (s.lineRestarted.emptySets (fun _ => true)).lineIdle := by
    rw [State.emptySets_eq]
    exact State.derive_lineIdle ⟨rfl, rfl⟩ _
  rw [State.resetLine_eq]
  generalize s.lineRestarted.emptySets (fun _ => true) = u at rederived idle
  obtain ⟨⟨only, carriers, cores⟩, talkers, -, -⟩ := u.matrixLost_gone
  have idle' := Cueing.lineIdle.matrixLost idle
  generalize u.matrixLost = t at *
  refine ⟨rederived.only.trans only, carriers.trans rederived.carriers, idle'.1, talkers, fun j => ?_⟩
  have kept := congrArg (Option.map Station.tallyless) (cores j)
  rw [Option.map_map, Option.map_map] at kept
  refine (Eq.trans kept (rederived.tallyless j)).trans ?_
  refine (congrArg (Option.map Station.tallyless) (Table.get_map s.stations _ j)).trans ?_
  rw [Option.map_map]
  rfl

end Sys2Proof.Machine

namespace Sys2Proof
open Machine

/-- Settles O55. -/
theorem unitOrders : Obligations.UnitOrders := by
  refine ⟨fun o s ht hr hs hl hoption => ?_, fun o s u ht hr hp h1 h32 hu => ?_, fun o s ht hr hp hwf => ?_⟩
  · intro u
    have tests : firstFailing [s.lacks o .plan 1, failIf (!optionIn 1 32 (o.params.getD 0 0#16)) .range 2,
        failIf (s.saving && u != s.settings.matrixUnit) .state 3] = none :=
      passes_cons (State.lacks_fst hr 1) (passes_cons (by rw [hoption]; rfl) (passes_cons (by rw [hs]; rfl) firstFailing_nil))
    have taken : exec (.setMatrixUnit o) s =
        .next ((if u = s.settings.matrixUnit then s.begun o else (s.begun o).changeMatrix u).answer (doneReply o)) :=
      congrArg Host.Outcome.next (State.takeOrder_takes ht (by omega) (by simp [hl]) tests rfl rfl)
    refine ⟨fun same => ?_, fun changed => ?_⟩
    · rw [taken, if_pos same]
      rfl
    · rw [if_neg changed] at taken
      have changes := (s.begun o).changeMatrix_changes u
      generalize (s.begun o).changeMatrix u = t at taken changes
      obtain ⟨only, carriers, cores, conferences, routes⟩ := changes
      have machine := only.sameMachine
      exact ⟨_, taken, only.settings, only.storeStates, conferences, cores, routes, only.windows, carriers, only.galleries,
        machine.units, machine.line, machine.service, machine.clock, rfl⟩
  · have state : s.unitState (keyOf o) = u.state := by
      unfold State.unitState
      rw [hu]
    have key : (!(decide (1 ≤ keyOf o) && decide (keyOf o ≤ 32))) = false := by simp [h1, h32]
    refine ⟨fun hn => ?_, fun hlost => ?_⟩
    · refine congrArg Host.Outcome.next (State.takeOrder_refuses ht (length_of_noParams hp) (by simp [hp]) ?_)
      simp [State.lacks_fst hr 1, h1, h32, state, hn]
    · have tests : firstFailing [s.lacks o .plan 1, failIf (!(decide (1 ≤ keyOf o) && decide (keyOf o ≤ 32))) .key 1,
          failIf (s.unitState (keyOf o) != .lost) .state 1] = none :=
        passes_cons (State.lacks_fst hr 1) (passes_cons key (passes_cons (by rw [state, hlost]; rfl) firstFailing_nil))
      have taken : exec (.forgetUnit o) s = .next (((s.begun o).forget (keyOf o)).answer (doneReply o)) :=
        congrArg Host.Outcome.next (by
          unfold State.forgetUnit
          rw [State.takeOrder_accept ht (length_of_noParams hp) (by simp [hp]) tests])
      have forgotten := (s.begun o).forget_forgets hu
      generalize (s.begun o).forget (keyOf o) = t at taken forgotten
      obtain ⟨only, carriers, cores, finals, queue, tunes⟩ := forgotten
      exact ⟨_, taken, only.sameMachine.units, finals, tunes, cores, queue, carriers, only.galleries, only.windows, only.settings,
        only.sameMachine.line, only.storeStates, rfl⟩
  · have tests : firstFailing [s.lacks o .plan 1] = none := passes_cons (State.lacks_fst hr 1) firstFailing_nil
    have taken : exec (.lineReset o) s = .next ((s.begun o).resetLine.answer (doneReply o)) :=
      congrArg Host.Outcome.next (by
        unfold State.lineReset
        rw [State.takeOrder_accept ht (length_of_noParams hp) (by simp [hp]) tests])
    have restarts := (s.begun o).resetLine_restarts
    generalize (s.begun o).resetLine = t at taken restarts
    obtain ⟨only, carriers, queue, talkers, tallyless⟩ := restarts
    have machine := only.sameMachine
    refine ⟨_, taken, machine.units, queue, machine.line, machine.round, machine.turn, machine.sequence, talkers, fun g x hx => ?_,
      tallyless, carriers, only.windows, only.settings, machine.service, only.storeStates, rfl⟩
    have emptied := State.emptied_gallery (s := s.begun o) hwf (fun _ => true) g
    rw [show (s.begun o).gallery g = some x from hx] at emptied
    refine (congrArg (Table.get · g) only.galleries).trans (Eq.trans emptied ?_)
    simp only [Option.map_some, Bool.true_and, Gallery.shows_iff]

end Sys2Proof
end

section
/-! The Directive Queue: what deciding a delivery and scanning the Waiting ones make of it (R150 to R152). -/

namespace Sys2Proof.Machine

/-! ## Deciding a delivery -/

/-- An entry whose content is replaced in place: Queued, no attempts, taken back when it was detached (R151, R153). -/
@[reducible] def Entry.renewed (e : Entry) (c : Content) : Entry :=
  { e with content := c, sent := false, attempts := 0, detached := false }

/-- What deciding the delivery of a kind and target can make of the queue: it stands, its entry is replaced in place, or a new
entry is appended where there is room. -/
inductive Queued (kd : DeliveryKind) (k : Nat) (q : List Entry) : List Entry → Prop where
  | same : Queued kd k q q
  | replaced (u : Nat) (c : Content) : Queued kd k q (q.map (fun e => if e.has u kd k then e.renewed c else e))
  | appended (u : Nat) (c : Content) (new : ∀ e ∈ q, e.has u kd k = false) (room : q.length < 64) :
    Queued kd k q (q ++ [⟨u, kd, k, c, false, 0, false⟩])

theorem State.entryOf_none {s : State} {d : Delivery} {kd : DeliveryKind} {k : Nat} (h : s.entryOf d kd k = none) {u : Nat}
    (hu : d.destination = some u) : ∀ e ∈ s.queue, e.has u kd k = false := by
  intro e he
  unfold State.entryOf at h
  rw [hu] at h
  have := List.find?_eq_none.1 h e he
  simpa using this

theorem State.decideDelivery_queued (s : State) (kd : DeliveryKind) (k : Nat) :
    Queued kd k s.queue (s.decideDelivery kd k).queue := by
  have based : ∀ b, (s.setBase kd k b).queue = s.queue := fun b => (s.setBase_line kd k b).1
  unfold State.decideDelivery
  split
  · exact .same
  · rename_i d hd
    split
    · rename_i e he
      unfold State.replaceEntry
      dsimp only
      rw [based]
      exact .replaced e.unit d.wanted
    · rename_i he
      split
      · rw [based]
        exact .same
      · split
        · rw [based]
          exact .same
        · split
          · rename_i h
            simp only [Bool.and_eq_true, decide_eq_true_eq] at h
            obtain ⟨reach, room⟩ := h
            unfold State.appendEntry
            dsimp only
            rw [based]
            cases hu : d.destination with
            | none =>
              rw [hu] at reach
              cases reach
            | some u => exact .appended u d.wanted (State.entryOf_none he hu) room
          · rw [based]
            exact .same

theorem Queued.length {kd : DeliveryKind} {k : Nat} {q r : List Entry} (h : Queued kd k q r) : q.length ≤ r.length := by
  cases h with
  | same => exact le_rfl
  | replaced u c => simp
  | appended u c _ _ => simp

/-! ## The scan -/

/-- An entry that was appended and has not been sent. -/
def Entry.fresh (e : Entry) : Prop := e.sent = false ∧ e.detached = false ∧ e.attempts = 0

/-- The queue has fresh entries appended, and the rest of it stands. -/
def State.appends (s t : State) : Prop := ∃ l, t.queue = s.queue ++ l ∧ ∀ e ∈ l, e.fresh

theorem State.appends.refl (s : State) : s.appends s := ⟨[], by simp, by simp⟩

theorem State.appends.trans {s t u : State} (h : s.appends t) (g : t.appends u) : s.appends u := by
  obtain ⟨l, hl, fl⟩ := h
  obtain ⟨m, hm, fm⟩ := g
  refine ⟨l ++ m, by rw [hm, hl, List.append_assoc], fun e he => ?_⟩
  exact (List.mem_append.1 he).elim (fl e) (fm e)

/-- A Waiting delivery without an entry is decided, or nothing happens (R152). -/
theorem State.scanOne_cases (s : State) (p : DeliveryKind × Nat) : s.scanOne p = s ∨ ∃ d, s.delivery p.1 p.2 = some d ∧
    d.base = .waiting ∧ s.entryOf d p.1 p.2 = none ∧ s.reachable p.1 d.destination = true ∧
    s.scanOne p = s.decideDelivery p.1 p.2 := by
  unfold State.scanOne
  split
  · exact .inl rfl
  · rename_i d hd
    split
    · rename_i h
      simp only [Bool.and_eq_true, decide_eq_true_eq, Option.isNone_iff_eq_none] at h
      exact .inr ⟨d, hd, h.1.1, h.1.2, h.2, rfl⟩
    · exact .inl rfl

theorem State.scanOne_appends (s : State) (p : DeliveryKind × Nat) : s.appends (s.scanOne p) := by
  rcases s.scanOne_cases p with e | ⟨d, hd, -, none, -, e⟩
  · rw [e]
    exact State.appends.refl s
  · rw [e]
    unfold State.decideDelivery
    rw [hd]
    dsimp only
    rw [none]
    dsimp only
    have based : ∀ b, s.appends (s.setBase p.1 p.2 b) := fun b => ⟨[], by rw [(s.setBase_line p.1 p.2 b).1]; simp, by simp⟩
    split
    · exact based _
    · split
      · exact based _
      · split
        · refine (based .waiting).trans ⟨_, rfl, fun e he => ?_⟩
          rw [List.mem_singleton] at he
          rw [he]
          exact ⟨rfl, rfl, rfl⟩
        · exact based _

theorem State.fillQueue_appends (s : State) : s.appends s.fillQueue :=
  State.forEach_keeps (State.appends.refl s) _ (fun t p h => h.trans (t.scanOne_appends p))

/-! ## A Queued tune -/

/-- The first entry of the tune of station k to unit a is Queued. -/
def State.awaits (s : State) (a k : Nat) : Prop :=
  ∃ e, s.queue.find? (fun e => e.has a .tune k) = some e ∧ e.sent = false ∧ e.detached = false

theorem Queued.awaits {kd : DeliveryKind} {j a k : Nat} {q r : List Entry} (h : Queued kd j q r)
    (hq : ∃ e, q.find? (fun e => e.has a .tune k) = some e ∧ e.sent = false ∧ e.detached = false) :
    ∃ e, r.find? (fun e => e.has a .tune k) = some e ∧ e.sent = false ∧ e.detached = false := by
  obtain ⟨e, he, sent, attached⟩ := hq
  cases h with
  | same => exact ⟨e, he, sent, attached⟩
  | appended u c _ _ => exact ⟨e, by rw [List.find?_append, he]; rfl, sent, attached⟩
  | replaced u c =>
    have keeps : (fun e : Entry => e.has a .tune k) ∘ (fun e : Entry => if e.has u kd j then e.renewed c else e) =
        fun e => e.has a .tune k := by
      funext x
      simp only [Function.comp_apply]
      split <;> rfl
    refine ⟨if e.has u kd j then e.renewed c else e, by rw [List.find?_map, keeps, he]; rfl, ?_, ?_⟩
    · split
      · rfl
      · exact sent
    · split
      · rfl
      · exact attached

theorem State.awaits.code {s : State} {a k : Nat} (h : s.awaits a k) {x : Station} (hx : s.station k = some x)
    (hu : x.controlUnit = some a) : s.deliveryCode .tune k = some 1 := by
  obtain ⟨e, he, sent, attached⟩ := h
  have delivery : s.delivery .tune k = some ⟨some a, .tune x.wanted, x.delivered.map .tune, x.tuneBase⟩ := by
    unfold State.delivery
    rw [hx]
    dsimp only
    rw [hu]
    rfl
  unfold State.deliveryCode State.entryOf
  rw [delivery]
  dsimp only
  rw [he]
  dsimp only
  rw [attached, sent]
  rfl

end Sys2Proof.Machine
end

section
/-! Units found and returned (R144, R147). -/

namespace Sys2Proof.Machine

/-! ## Deliveries to a unit are decided -/

/-- A station but for the states of its deliveries. -/
@[reducible] def Station.unbased (x : Station) : Station :=
  { x with tuneBase := .current, lampBase := .current, cueBase := .current }

theorem Station.unbased_withBase (x : Station) (kd : DeliveryKind) (b : DeliveryBase) :
    (x.withBase kd b).unbased = x.unbased := by cases kd <;> rfl

/-- Every station keeps all but the states of its deliveries. -/
def State.stationsUnbased (s t : State) : Prop := ∀ j, (t.station j).map Station.unbased = (s.station j).map Station.unbased

theorem Decides.unbased (s : State) : Decides s.stationsUnbased :=
  Decides.project Station.unbased (fun x kd b => x.unbased_withBase kd b) s

theorem State.stationsUnbased.station {s t : State} (h : s.stationsUnbased t) {j : Nat} {x : Station} (hx : s.station j = some x) :
    ∃ v, t.station j = some v ∧ v.unbased = x.unbased := by
  have kept := h j
  rw [hx] at kept
  exact Option.map_eq_some_iff.1 kept

/-- A delivery to a unit is decided afresh. -/
def State.decideTo (a : Nat) (s : State) (p : DeliveryKind × Nat) : State :=
  match s.delivery p.1 p.2 with
  | some d => if d.destination = some a then s.decideDelivery p.1 p.2 else s
  | none => s

theorem State.redeliver_eq (s : State) (a : Nat) : s.redeliver a =
    ((s.resetUndelivered a).forEach deliveryKeys (State.decideTo a)).forEach deliveryKeys State.scanOne := rfl

theorem State.decideTo_cases (a : Nat) (s : State) (p : DeliveryKind × Nat) :
    s.decideTo a p = s ∨ s.decideTo a p = s.decideDelivery p.1 p.2 := by
  unfold State.decideTo
  split
  · split
    · exact .inr rfl
    · exact .inl rfl
  · exact .inl rfl

theorem State.scanOne_decides (s : State) (p : DeliveryKind × Nat) :
    s.scanOne p = s ∨ s.scanOne p = s.decideDelivery p.1 p.2 := by
  rcases s.scanOne_cases p with e | ⟨_, _, _, _, _, e⟩
  · exact .inl e
  · exact .inr e

/-- What a unit that has become Present keeps: all but the queue, the final deliveries and the states of deliveries. -/
structure State.redelivering (s t : State) : Prop where
  quiet : Quiet s t
  stations : s.stationsUnbased t

theorem State.redelivering.decided {s t : State} (h : s.redelivering t) (kd : DeliveryKind) (k : Nat) :
    s.redelivering (t.decideDelivery kd k) :=
  ⟨(Quiet.soft s).decideDelivery h.quiet kd k, (Decides.unbased s).decideDelivery h.stations kd k⟩

theorem State.redelivering.decideTo {s t : State} (h : s.redelivering t) (a : Nat) (p : DeliveryKind × Nat) :
    s.redelivering (t.decideTo a p) := by
  rcases t.decideTo_cases a p with e | e <;> rw [e]
  · exact h
  · exact h.decided _ _

theorem State.redelivering.scanOne {s t : State} (h : s.redelivering t) (p : DeliveryKind × Nat) :
    s.redelivering (t.scanOne p) := by
  rcases t.scanOne_decides p with e | e <;> rw [e]
  · exact h
  · exact h.decided _ _

/-! ## The tunes to a TXC unit -/

/-- The tune of station k to unit a is Queued, or the queue is full. -/
def State.awaitsOrFull (s : State) (a k : Nat) : Prop := s.awaits a k ∨ 64 ≤ s.queue.length

theorem State.awaitsOrFull.decided {s : State} {a k : Nat} (h : s.awaitsOrFull a k) (kd : DeliveryKind) (j : Nat) :
    (s.decideDelivery kd j).awaitsOrFull a k := by
  have queued := s.decideDelivery_queued kd j
  exact h.imp queued.awaits (fun full => full.trans queued.length)

theorem State.awaitsOrFull.decideTo {s : State} {a k : Nat} (h : s.awaitsOrFull a k) (b : Nat) (p : DeliveryKind × Nat) :
    (s.decideTo b p).awaitsOrFull a k := by
  rcases s.decideTo_cases b p with e | e <;> rw [e]
  · exact h
  · exact h.decided _ _

theorem State.awaitsOrFull.scanOne {s : State} {a k : Nat} (h : s.awaitsOrFull a k) (p : DeliveryKind × Nat) :
    (s.scanOne p).awaitsOrFull a k := by
  rcases s.scanOne_decides p with e | e <;> rw [e]
  · exact h
  · exact h.decided _ _

/-- The undelivered tune of a station to a Present TXC unit is Queued where the queue has room. -/
theorem State.decideTo_tune {s : State} {a k : Nat} {x : Station} {v : LineUnit} (hx : s.station k = some x)
    (hu : x.controlUnit = some a) (hd : x.delivered = none) (hv : s.unitAt a = some v) (present : v.state = .present)
    (kind : v.kind = some .txc) : (s.decideTo a (.tune, k)).awaitsOrFull a k := by
  have delivery : s.delivery .tune k = some ⟨some a, .tune x.wanted, none, x.tuneBase⟩ := by
    unfold State.delivery
    rw [hx]
    dsimp only
    rw [hu, hd]
    rfl
  have lost : s.unitIsLost (some a) = false := by
    unfold State.unitIsLost
    dsimp only
    rw [hv]
    dsimp only
    rw [present]
    rfl
  have reach : s.reachable .tune (some a) = true := by
    unfold State.reachable
    dsimp only
    rw [hv]
    dsimp only
    rw [present, kind]
    rfl
  have based : (s.setBase .tune k .waiting).queue = s.queue := (s.setBase_line .tune k .waiting).1
  unfold State.decideTo State.decideDelivery
  dsimp only
  rw [delivery]
  dsimp only
  rw [if_pos rfl]
  cases he : s.entryOf ⟨some a, .tune x.wanted, none, x.tuneBase⟩ .tune k with
  | some e =>
    dsimp only
    have found : s.queue.find? (fun e => e.has a .tune k) = some e := he
    have unit : e.unit = a := by
      have := List.find?_some found
      simp only [Entry.has, Bool.and_eq_true, decide_eq_true_eq] at this
      exact this.1.1
    left
    unfold State.awaits State.replaceEntry
    dsimp only
    rw [based, unit]
    have keeps : (fun e : Entry => e.has a .tune k) ∘ (fun e : Entry => if e.has a .tune k then e.renewed (.tune x.wanted) else e) =
        fun e => e.has a .tune k := by
      funext y
      simp only [Function.comp_apply]
      split <;> rfl
    refine ⟨e.renewed (.tune x.wanted), ?_, rfl, rfl⟩
    rw [List.find?_map, keeps, found]
    exact congrArg some (if_pos (List.find?_some found))
  | none =>
    dsimp only
    rw [if_neg nofun, lost, if_neg nofun, reach, Bool.true_and]
    by_cases room : s.queue.length < Config.directiveQueueSize
    · rw [if_pos (decide_eq_true room)]
      left
      unfold State.awaits State.appendEntry
      dsimp only
      rw [based, List.find?_append, show s.queue.find? (fun e => e.has a .tune k) = none from he]
      refine ⟨⟨a, .tune, k, .tune x.wanted, false, 0, false⟩, ?_, rfl, rfl⟩
      simp [Entry.has]
    · rw [if_neg (fun h => room (of_decide_eq_true h))]
      right
      rw [based]
      exact Nat.not_lt.1 room

/-! ## A unit becomes Present -/

theorem State.modUnit_modUnit {s : State} {a : Nat} {u : LineUnit} (h : s.unitAt a = some u) (f g : LineUnit → LineUnit) :
    (s.modUnit a f).modUnit a g = { s with units := s.units.set (a - 1) (g (f u)) } := by
  rw [State.modUnit_set h, State.modUnit_set (State.unitAt_set h (f u))]
  simp only [List.set_set]

/-- What a station has delivered when the deliveries through a unit are reset (R144). -/
@[reducible] def Station.undelivered (x : Station) (a : Nat) (matrix : Prop) [Decidable matrix] : Station :=
  { x with
    delivered := if x.controlUnit = some a then none else x.delivered
    deliveredLamp := if x.controlUnit = some a then none else x.deliveredLamp
    deliveredRoute := if matrix then none else x.deliveredRoute }

theorem State.resetUndelivered_station (s : State) (a k : Nat) : (s.resetUndelivered a).station k =
    (s.station k).map (fun x => x.undelivered a (s.settings.matrixUnit = some a)) := Table.get_map _ _ _

/-- What a unit that becomes Present comes to (R144, R147, R152). -/
structure State.redelivers (s t : State) (a : Nat) : Prop where
  only : Only s t
  carriers : t.carriers = s.carriers
  stations : ∀ k x, s.station k = some x → ∃ v, t.station k = some v ∧
    v.unbased = Station.unbased (x.undelivered a (s.settings.matrixUnit = some a))
  queued : ∀ k x v, 1 ≤ k → k ≤ 96 → s.station k = some x → x.controlUnit = some a → s.unitAt a = some v →
    v.state = .present → v.kind = some .txc → t.queue.length < 64 → t.deliveryCode .tune k = some 1

theorem State.redeliver_redelivers (s : State) (a : Nat) : s.redelivers (s.redeliver a) a := by
  have first : (s.resetUndelivered a).redelivering ((s.resetUndelivered a).forEach deliveryKeys (State.decideTo a)) :=
    State.forEach_keeps (P := (s.resetUndelivered a).redelivering) ⟨Quiet.refl _, fun _ => rfl⟩ _ (fun _ p h => h.decideTo a p)
  have tunes : ∀ k x v, 1 ≤ k → k ≤ 96 → s.station k = some x → x.controlUnit = some a → s.unitAt a = some v →
      v.state = .present → v.kind = some .txc →
      ((s.resetUndelivered a).forEach deliveryKeys (State.decideTo a)).awaitsOrFull a k := by
    intro k x v h1 h96 hx hu hv present kind
    refine State.forEach_reaches (P := (s.resetUndelivered a).redelivering) (Q := fun t => t.awaitsOrFull a k)
      (f := State.decideTo a) (mem_deliveryKeys_tune h1 h96) (fun t p _ (h : State.redelivering _ t) => h.decideTo a p) (fun t h => ?_)
      (fun t p (h : t.awaitsOrFull a k) => h.decideTo a p) ⟨Quiet.refl _, fun _ => rfl⟩
    have reset : (s.resetUndelivered a).station k = some (x.undelivered a (s.settings.matrixUnit = some a)) := by
      rw [State.resetUndelivered_station, hx]
      rfl
    obtain ⟨w, hw, same⟩ := h.stations.station reset
    have units : t.unitAt a = some v := by
      unfold State.unitAt
      rw [h.quiet.1.sameMachine.units]
      exact hv
    refine State.decideTo_tune hw ((congrArg Station.controlUnit same :).trans hu)
      ((congrArg Station.delivered same :).trans (if_pos hu)) units present kind
  have reset : Only s (s.resetUndelivered a) := rfl
  have carriers : (s.resetUndelivered a).carriers = s.carriers := rfl
  have stations := s.resetUndelivered_station a
  rw [State.redeliver_eq]
  generalize s.resetUndelivered a = r at first tunes reset carriers stations
  generalize r.forEach deliveryKeys (State.decideTo a) = u at first tunes
  have second : r.redelivering (u.forEach deliveryKeys State.scanOne) :=
    State.forEach_keeps first _ (fun _ p h => h.scanOne p)
  have scanned : ∀ k, u.awaitsOrFull a k → (u.forEach deliveryKeys State.scanOne).awaitsOrFull a k := fun k h =>
    State.forEach_keeps (P := fun t => t.awaitsOrFull a k) h _ (fun _ p h => h.scanOne p)
  generalize u.forEach deliveryKeys State.scanOne = t at second scanned
  have station : ∀ k x, s.station k = some x → ∃ v, t.station k = some v ∧
      v.unbased = Station.unbased (x.undelivered a (s.settings.matrixUnit = some a)) := fun k x hx =>
    second.stations.station (by rw [stations, hx]; rfl)
  refine ⟨reset.trans second.quiet.1, second.quiet.2.1.trans carriers, station, ?_⟩
  intro k x v h1 h96 hx hu hv present kind room
  obtain ⟨w, hw, same⟩ := station k x hx
  rcases scanned k (tunes k x v h1 h96 hx hu hv present kind) with awaits | full
  · exact awaits.code hw ((congrArg Station.controlUnit same :).trans hu)
  · omega

/-- A unit that is made Present, and to which the deliveries are decided. -/
theorem State.redelivers.finds {s t : State} {a : Nat} {u v : LineUnit} (hu : s.unitAt a = some u)
    (present : v.state = .present) (h : State.redelivers (s.unitNoted a v) t a) : s.findsUnit t a v := by
  obtain ⟨only, carriers, stations, queued⟩ := h
  refine ⟨only.sameMachine.units, fun k x hx => ?_, fun k x h1 h96 hx hc kind room =>
    queued k x v h1 h96 hx hc (State.unitAt_set hu v) present kind room, only.sameMachine.line, only.windows, carriers, only.galleries,
    only.settings, only.sameMachine.service, only.storeStates, only.port⟩
  obtain ⟨w, hw, same⟩ := stations k x hx
  have core : w.core = x.core := (congrArg Station.core same :)
  refine ⟨w, hw, core, (congrArg Station.mark same :), (congrArg Station.lamp same :), (congrArg Station.accept same :),
    (congrArg Station.stack same :), (congrArg Station.cueRoute same :), (congrArg Station.delivered same :),
    (congrArg Station.deliveredLamp same :), ?_⟩
  exact (congrArg Station.deliveredRoute same :)

end Sys2Proof.Machine

namespace Sys2Proof
open Machine

/-- Settles O53. -/
theorem unitsFoundAndReturned : Obligations.UnitsFoundAndReturned := by
  intro a seq kind s u
  refine ⟨fun body hon hs hb => ?_, fun hon hs => ?_⟩
  · obtain ⟨-, load, sound, h1, h32, hseq, line, hu⟩ := hon
    have held : s.endTransaction.unitAt a = some u := hu
    have state : s.endTransaction.unitState a = .absent := by
      unfold State.unitState
      rw [held]
      exact hs
    have found : s.endTransaction.unitFound a (some kind) =
        (s.unitNoted a { kind := some kind, state := .present, missed := 0, mark := addReason 1 u.mark }).redeliver a := by
      unfold State.unitFound State.markUnit
      rw [if_pos state]
      dsimp only
      rw [State.modUnit_modUnit held]
      rfl
    have finds := State.redeliver_redelivers
      (s.unitNoted a { kind := some kind, state := .present, missed := 0, mark := addReason 1 u.mark }) a
    rw [← found] at finds
    refine ⟨_, ?_, finds.finds hu rfl⟩
    have load' : (s.endTransaction.unitFound a (some kind)).load = .none := finds.only.sameMachine.load.trans load
    unfold exec execDiscoverAnswered State.discoverAnswer
    rw [line]
    dsimp only
    rw [Transaction.matching_unitFrame _ _ _ _ h32 hseq (by omega)]
    dsimp only
    unfold State.unitEvent
    rw [State.beside_sound (s := s.endTransaction) sound, State.acting_sound (s := s.endTransaction) sound]
    generalize s.endTransaction.unitFound a (some kind) = t at load' ⊢
    unfold State.afterLine
    rw [load']
  · obtain ⟨-, load, sound, h1, h32, hseq, line, hu⟩ := id hon
    have held : s.endTransaction.unitAt a = some u := hu
    have state : s.endTransaction.unitState a = .lost := by
      unfold State.unitState
      rw [held]
      exact hs
    have returned : s.endTransaction.unitReturned a (some kind) = (s.unitNoted a {
        kind := some kind
        state := .present
        missed := 0
        mark := if u.kind = some kind then addReason 3 u.mark else addReason 4 (addReason 3 u.mark) }).redeliver a := by
      have before : s.endTransaction.unitKind a = u.kind := by
        unfold State.unitKind
        rw [held]
        rfl
      unfold State.unitReturned State.markUnit
      dsimp only
      rw [before, State.modUnit_modUnit held]
      by_cases same : u.kind = some kind
      · rw [if_neg (by simp [same]), if_pos same]
        rfl
      · rw [if_pos (by simpa using same), if_neg same, State.modUnit_set (State.unitAt_set held _)]
        simp only [List.set_set]
        rfl
    have finds := State.redeliver_redelivers (s.unitNoted a {
      kind := some kind
      state := .present
      missed := 0
      mark := if u.kind = some kind then addReason 3 u.mark else addReason 4 (addReason 3 u.mark) }) a
    rw [← returned] at finds
    refine ⟨_, ?_, finds.finds hu rfl⟩
    have load' : (s.endTransaction.unitReturned a (some kind)).load = .none := finds.only.sameMachine.load.trans load
    have answered : State.pollIsAnswered s.endTransaction a ⟨some kind, []⟩ = s.endTransaction.unitReturned a (some kind) := by
      unfold State.pollIsAnswered
      rw [State.quarantined_sound (s := s.endTransaction) sound, if_neg nofun, state]
      dsimp only
      rw [State.beside_sound (s := s.endTransaction) sound, State.touching_sound (s := s.endTransaction) sound]
      unfold takeItems
      split <;> rfl
    rw [State.pollAnswer_eq hon kind (by simp) (by rw [answered]; exact load'), answered]

end Sys2Proof
end

section
/-! The final deliveries stand while deliveries are decided, and what a step leaves of the other deliveries (R150 to R153). -/

namespace Sys2Proof.Machine

/-! ## Bases of one delivery, and the other deliveries -/

theorem State.finalAt_modFinal_other (s : State) {kd dk : DeliveryKind} {k j : Nat} (h : (kd, k) ≠ (dk, j)) (b : DeliveryBase) :
    (s.modFinal kd k (fun x => { x with base := b })).finalAt dk j = s.finalAt dk j := by
  have keeps : (fun f : Final => decide (f.kind = dk) && decide (f.target = j)) ∘
      (fun x : Final => if x.kind = kd && x.target = k then { x with base := b } else x) =
        fun f => decide (f.kind = dk) && decide (f.target = j) := by
    funext x
    simp only [Function.comp_apply]
    split <;> rfl
  unfold State.finalAt State.modFinal
  dsimp only
  rw [List.find?_map, keeps]
  cases hf : s.finals.find? (fun f => decide (f.kind = dk) && decide (f.target = j)) with
  | none => rfl
  | some f =>
    have key := List.find?_some hf
    simp only [Bool.and_eq_true, decide_eq_true_eq] at key
    refine congrArg some (if_neg ?_)
    simp only [Bool.and_eq_true, decide_eq_true_eq]
    rintro ⟨hk, ht⟩
    exact h (by rw [← hk, ← ht, key.1, key.2])

theorem State.finalAt_dropFinal_other (s : State) {kd dk : DeliveryKind} {k j : Nat} (h : (kd, k) ≠ (dk, j)) :
    (s.dropFinal kd k).finalAt dk j = s.finalAt dk j := by
  unfold State.finalAt State.dropFinal
  dsimp only
  rw [List.find?_filter]
  refine congrArg (List.find? · s.finals) (funext fun f => ?_)
  rw [Bool.eq_iff_iff]
  simp only [Bool.and_eq_true, Bool.not_eq_true', Bool.and_eq_false_iff, decide_eq_true_eq, decide_eq_false_iff_not,
    and_iff_right_iff_imp]
  rintro ⟨hk, ht⟩
  by_contra hn
  rw [not_or, not_not, not_not] at hn
  exact h (by rw [← hn.1, ← hn.2, hk, ht])

/-- A delivery is read of its record, the settings and its final delivery. -/
theorem State.delivery_congr {s t : State} {dk : DeliveryKind} {j : Nat} (station : dk ≠ .routing → t.station j = s.station j)
    (conference : dk = .routing → t.conference j = s.conference j) (settings : t.settings = s.settings)
    (final : t.finalAt dk j = s.finalAt dk j) : t.delivery dk j = s.delivery dk j := by
  have destination : t.finalDestination = s.finalDestination := by
    funext f
    unfold State.finalDestination
    rw [settings]
  have final' : t.finalDelivery dk j = s.finalDelivery dk j := by
    unfold State.finalDelivery
    rw [final, destination]
  unfold State.delivery
  cases dk with
  | routing => simp only [conference rfl, settings, final']
  | tune => simp only [station nofun, final']
  | lamp => simp only [station nofun]
  | cueRoute => simp only [station nofun, settings, final']

theorem State.delivery_withBase_other (s : State) {kd dk : DeliveryKind} {k j : Nat} (h : (kd, k) ≠ (dk, j)) (b : DeliveryBase) :
    (s.modStation k (·.withBase kd b)).delivery dk j = s.delivery dk j := by
  by_cases hk : j = k
  · subst hk
    have kinds : kd ≠ dk := fun e => h (by rw [e])
    have mod := s.station_modStation j (·.withBase kd b) j
    rw [if_pos rfl] at mod
    cases hx : s.station j with
    | none =>
      rw [hx] at mod
      exact State.delivery_congr (fun _ => mod.trans hx.symm) (fun _ => rfl) rfl rfl
    | some x =>
      rw [hx] at mod
      unfold State.delivery
      cases dk with
      | routing => rfl
      | tune =>
        rw [mod, hx]
        cases kd with
        | tune => exact absurd rfl kinds
        | lamp => rfl
        | routing => rfl
        | cueRoute => rfl
      | lamp =>
        rw [mod, hx]
        cases kd with
        | lamp => exact absurd rfl kinds
        | tune => rfl
        | routing => rfl
        | cueRoute => rfl
      | cueRoute =>
        rw [mod, hx]
        cases kd with
        | cueRoute => exact absurd rfl kinds
        | tune => rfl
        | lamp => rfl
        | routing => rfl
  · exact State.delivery_congr (fun _ => by rw [State.station_modStation, if_neg hk]) (fun _ => rfl) rfl rfl

theorem State.delivery_modConference_other (s : State) {dk : DeliveryKind} {k j : Nat} (h : (DeliveryKind.routing, k) ≠ (dk, j))
    (f : Conference → Conference) : (s.modConference k f).delivery dk j = s.delivery dk j := by
  refine State.delivery_congr (fun _ => rfl) (fun e => ?_) rfl rfl
  have hk : j ≠ k := fun e' => h (by rw [e, e'])
  rw [State.conference_modConference, if_neg hk]

/-- The base of one delivery does not bear on another one. -/
theorem State.delivery_setBase_other (s : State) {kd dk : DeliveryKind} {k j : Nat} (h : (kd, k) ≠ (dk, j)) (b : DeliveryBase) :
    (s.setBase kd k b).delivery dk j = s.delivery dk j := by
  unfold State.setBase
  split
  · cases kd with
    | tune => exact s.delivery_withBase_other h b
    | lamp => exact s.delivery_withBase_other h b
    | cueRoute => exact s.delivery_withBase_other h b
    | routing => exact s.delivery_modConference_other h _
  · split
    · exact State.delivery_congr (fun _ => rfl) (fun _ => rfl) rfl (s.finalAt_dropFinal_other h)
    · exact State.delivery_congr (fun _ => rfl) (fun _ => rfl) rfl (s.finalAt_modFinal_other h b)

/-- To decide a delivery is to set its base and the queue. -/
theorem State.decideDelivery_base (s : State) (kd : DeliveryKind) (k : Nat) : s.decideDelivery kd k = s ∨
    ∃ b q, s.decideDelivery kd k = { s.setBase kd k b with queue := q } ∧
      (b = .current → ∃ d, s.delivery kd k = some d ∧ d.delivered = some d.wanted) := by
  unfold State.decideDelivery
  split
  · exact .inl rfl
  · rename_i d hd
    right
    split
    · exact ⟨.waiting, _, rfl, nofun⟩
    · split
      · rename_i same
        exact ⟨.current, _, rfl, fun _ => ⟨d, hd, same⟩⟩
      · split
        · exact ⟨.stale, _, rfl, nofun⟩
        · split
          · exact ⟨.waiting, _, rfl, nofun⟩
          · exact ⟨.waiting, _, rfl, nofun⟩

theorem State.delivery_decideDelivery_other (s : State) {kd dk : DeliveryKind} {k j : Nat} (h : (kd, k) ≠ (dk, j)) :
    (s.decideDelivery kd k).delivery dk j = s.delivery dk j := by
  rcases s.decideDelivery_base kd k with e | ⟨b, q, e, -⟩
  · rw [e]
  · rw [e]
    exact s.delivery_setBase_other h b

/-! ## The final deliveries stand -/

theorem State.finalsStand.refl (s : State) : s.finalsStand s :=
  ⟨fun f hf => ⟨f, hf, rfl⟩, fun g hg _ _ => ⟨g, hg, rfl⟩⟩

theorem State.finalsStand.of_eq {s t u : State} (h : s.finalsStand t) (hf : u.finals = t.finals) : s.finalsStand u := by
  unfold State.finalsStand at h ⊢
  rw [hf]
  exact h

theorem State.finalsStand.modFinal {s t : State} (h : s.finalsStand t) (kd : DeliveryKind) (k : Nat) (b : DeliveryBase) :
    s.finalsStand (t.modFinal kd k (fun x => { x with base := b })) := by
  obtain ⟨from_, kept⟩ := h
  refine ⟨fun f hf => ?_, fun g hg hd unique => ?_⟩
  · obtain ⟨x, hx, rfl⟩ := List.mem_map.1 hf
    obtain ⟨g, hg, same⟩ := from_ x hx
    refine ⟨g, hg, ?_⟩
    split
    · exact congrArg (fun y : Final => { y with base := b }) same
    · exact same
  · obtain ⟨f, hf, same⟩ := kept g hg hd unique
    refine ⟨_, List.mem_map_of_mem hf, ?_⟩
    split
    · exact congrArg (fun y : Final => { y with base := b }) same
    · exact same

/-- A final delivery is dropped only when what it wants is delivered (R152). -/
theorem State.finalsStand.dropFinal {s t : State} (h : s.finalsStand t) {kd : DeliveryKind} {k : Nat} {d : Delivery}
    (hd : t.finalDelivery kd k = some d) (delivered : d.delivered = some d.wanted) : s.finalsStand (t.dropFinal kd k) := by
  obtain ⟨from_, kept⟩ := h
  refine ⟨fun f hf => from_ f (List.mem_filter.1 hf).1, fun g hg hn unique => ?_⟩
  obtain ⟨f, hf, same⟩ := kept g hg hn unique
  refine ⟨f, List.mem_filter.2 ⟨hf, ?_⟩, same⟩
  rw [Bool.not_eq_true']
  by_contra key
  rw [Bool.not_eq_false] at key
  simp only [Bool.and_eq_true, decide_eq_true_eq] at key
  obtain ⟨x, hx, rfl⟩ := Option.map_eq_some_iff.1 hd
  have keyX := List.find?_some hx
  simp only [Bool.and_eq_true, decide_eq_true_eq] at keyX
  obtain ⟨y, hy, sameX⟩ := from_ x (List.mem_of_find?_eq_some hx)
  have kind : f.kind = g.kind := (congrArg Final.kind same :)
  have target : f.target = g.target := (congrArg Final.target same :)
  have kindX : x.kind = y.kind := (congrArg Final.kind sameX :)
  have targetX : x.target = y.target := (congrArg Final.target sameX :)
  have one : y = g := unique y hy (by rw [← kindX, keyX.1, ← kind, key.1]) (by rw [← targetX, keyX.2, ← target, key.2])
  have wanted : x.wanted = y.wanted := (congrArg Final.wanted sameX :)
  have got : x.delivered = y.delivered := (congrArg Final.delivered sameX :)
  exact hn (by rw [← one, ← got, ← wanted]; exact delivered)

theorem State.finalsStand.decideDelivery {s t : State} (h : s.finalsStand t) (kd : DeliveryKind) (k : Nat) :
    s.finalsStand (t.decideDelivery kd k) := by
  rcases t.decideDelivery_base kd k with e | ⟨b, q, e, current⟩
  · rw [e]
    exact h
  · rw [e]
    refine State.finalsStand.of_eq (t := t.setBase kd k b) ?_ rfl
    cases ho : t.owned kd k with
    | true => exact h.of_eq (State.setBase_owned ho b).1
    | false =>
      unfold State.setBase
      rw [ho, if_neg nofun]
      split
      · rename_i hb
        obtain ⟨d, hd, delivered⟩ := current hb
        exact h.dropFinal (State.finalDelivery_of_delivery ho hd) delivered
      · exact h.modFinal kd k b

theorem State.finalsStand.hand {s t : State} (h : s.finalsStand t) (kd : DeliveryKind) (k : Nat) : s.finalsStand (t.hand kd k) := by
  unfold State.hand
  split
  · exact h
  · split
    · exact h.decideDelivery kd k
    · exact h

/-- The notices keep the final deliveries. -/
theorem Cueing.finalsStand (s : State) : Cueing s.finalsStand where
  hand h kd k := h.hand kd k
  mark _ _ h := h
  lamp _ _ h := h
  modConference h := h
  stack _ _ _ _ h := h

theorem State.finalsStand.scanOne {s t : State} (h : s.finalsStand t) (p : DeliveryKind × Nat) : s.finalsStand (t.scanOne p) := by
  rcases t.scanOne_decides p with e | e <;> rw [e]
  · exact h
  · exact h.decideDelivery _ _

theorem State.finalsStand.fillQueue {s t : State} (h : s.finalsStand t) : s.finalsStand t.fillQueue :=
  State.forEach_keeps h _ (fun _ p h => h.scanOne p)

end Sys2Proof.Machine
end

section
/-! Acknowledgements (R152, R153). -/

namespace Sys2Proof.Machine

/-! ## What is acknowledged becomes the delivered state -/

theorem Soft.setDelivered {P : State → Prop} (hc : Soft P) {s : State} (h : P s) (kd : DeliveryKind) (k : Nat) (c : Content) :
    P (s.setDelivered kd k c) := by
  unfold State.setDelivered
  split
  · split
    · exact hc.modStation (fun _ => rfl) h
    · exact hc.modStation (fun _ => rfl) h
    · exact hc.modConference h
    · exact hc.modStation (fun _ => rfl) h
    · exact h
  · exact hc.modFinal h _ _ _

/-- What an acknowledged delivery of a record is before its base is set. -/
structure State.acknowledges (s t : State) (kd : DeliveryKind) (k : Nat) (c : Content) (d : Delivery) : Prop where
  delivery : t.delivery kd k = some { d with delivered := some c }
  owned : t.owned kd k = true
  based : ∀ b, (t.setBase kd k b).delivery kd k = some { d with delivered := some c, base := b }
  queue : t.queue = s.queue
  finals : t.finals = s.finals

theorem State.setDelivered_acknowledges {s : State} {kd : DeliveryKind} {k : Nat} {c : Content} (hc : c.ofKind kd = true)
    (ho : s.owned kd k = true) {d : Delivery} (hd : s.delivery kd k = some d) :
    s.acknowledges (s.setDelivered kd k c) kd k c d := by
  have some_ : (kd = .routing → ∃ x, s.conference k = some x) ∧ (kd ≠ .routing → ∃ x, s.station k = some x) := by
    unfold State.owned at ho
    cases kd with
    | tune => exact ⟨nofun, fun _ => Option.isSome_iff_exists.1 ho⟩
    | lamp => exact ⟨nofun, fun _ => Option.isSome_iff_exists.1 ho⟩
    | routing => exact ⟨fun _ => Option.isSome_iff_exists.1 ho, fun h => absurd rfl h⟩
    | cueRoute =>
      refine ⟨nofun, fun _ => ?_⟩
      cases hx : s.station k with
      | none => rw [hx] at ho; cases ho
      | some x => exact ⟨x, rfl⟩
  unfold State.setDelivered
  rw [if_pos ho]
  unfold State.delivery at hd
  cases kd with
  | tune =>
    obtain ⟨x, hx⟩ := some_.2 nofun
    cases c with
    | tune w =>
      rw [hx] at hd
      obtain ⟨u, hu, rfl⟩ := Option.map_eq_some_iff.1 hd
      have held := State.station_of_mod hx (fun x => { x with delivered := some w })
      have owned : (s.modStation k (fun x => { x with delivered := some w })).owned .tune k = true := by
        unfold State.owned
        rw [held]
        rfl
      refine ⟨?_, owned, fun b => ?_, rfl, rfl⟩
      · unfold State.delivery
        rw [held]
        exact Option.map_eq_some_iff.2 ⟨u, hu, rfl⟩
      · unfold State.setBase
        rw [if_pos owned]
        unfold State.delivery
        rw [State.station_of_mod held]
        exact Option.map_eq_some_iff.2 ⟨u, hu, rfl⟩
    | lamp _ => cases hc
    | routing _ => cases hc
    | cueRoute _ => cases hc
  | lamp =>
    obtain ⟨x, hx⟩ := some_.2 nofun
    cases c with
    | lamp w =>
      rw [hx] at hd
      dsimp only at hd
      split at hd
      · rename_i up
        obtain ⟨l, hl, rfl⟩ := Option.map_eq_some_iff.1 hd
        have held := State.station_of_mod hx (fun x => { x with deliveredLamp := some w })
        have owned : (s.modStation k (fun x => { x with deliveredLamp := some w })).owned .lamp k = true := by
          unfold State.owned
          rw [held]
          rfl
        refine ⟨?_, owned, fun b => ?_, rfl, rfl⟩
        · unfold State.delivery
          rw [held]
          exact (if_pos up).trans (Option.map_eq_some_iff.2 ⟨l, hl, rfl⟩)
        · unfold State.setBase
          rw [if_pos owned]
          unfold State.delivery
          rw [State.station_of_mod held]
          exact (if_pos up).trans (Option.map_eq_some_iff.2 ⟨l, hl, rfl⟩)
      · cases hd
    | tune _ => cases hc
    | routing _ => cases hc
    | cueRoute _ => cases hc
  | routing =>
    obtain ⟨x, hx⟩ := some_.1 rfl
    cases c with
    | routing w =>
      rw [hx] at hd
      cases hd
      have held := State.conference_of_mod hx (fun x => { x with deliveredRouting := some w })
      have owned : (s.modConference k (fun x => { x with deliveredRouting := some w })).owned .routing k = true := by
        unfold State.owned
        rw [held]
        rfl
      refine ⟨?_, owned, fun b => ?_, rfl, rfl⟩
      · unfold State.delivery
        rw [held]
        rfl
      · unfold State.setBase
        rw [if_pos owned]
        unfold State.delivery
        rw [State.conference_of_mod held]
        rfl
    | tune _ => cases hc
    | lamp _ => cases hc
    | cueRoute _ => cases hc
  | cueRoute =>
    obtain ⟨x, hx⟩ := some_.2 nofun
    have cue : x.kind.hasCue = true := by
      unfold State.owned at ho
      rwa [hx] at ho
    cases c with
    | cueRoute w =>
      rw [hx] at hd
      dsimp only at hd
      rw [if_pos cue] at hd
      cases hd
      have held := State.station_of_mod hx (fun x => { x with deliveredRoute := some w })
      have owned : (s.modStation k (fun x => { x with deliveredRoute := some w })).owned .cueRoute k = true := by
        unfold State.owned
        rw [held]
        exact cue
      refine ⟨?_, owned, fun b => ?_, rfl, rfl⟩
      · unfold State.delivery
        rw [held]
        exact if_pos cue
      · unfold State.setBase
        rw [if_pos owned]
        unfold State.delivery
        rw [State.station_of_mod held]
        exact if_pos cue
    | tune _ => cases hc
    | lamp _ => cases hc
    | routing _ => cases hc

/-! ## The scan after an entry has gone -/

/-- A Current delivery without an entry. -/
def State.settled (s : State) (a : Nat) (kd : DeliveryKind) (k : Nat) (d : Delivery) : Prop :=
  s.delivery kd k = some d ∧ ∀ e ∈ s.queue, e.has a kd k = false

theorem Queued.keeps_none {kd dk : DeliveryKind} {k j a : Nat} {q r : List Entry} (h : Queued kd k q r)
    (apart : (kd, k) ≠ (dk, j)) (none : ∀ e ∈ q, e.has a dk j = false) : ∀ e ∈ r, e.has a dk j = false := by
  cases h with
  | same => exact none
  | replaced u c =>
    intro e he
    obtain ⟨x, hx, rfl⟩ := List.mem_map.1 he
    have kept := none x hx
    split
    · exact kept
    · exact kept
  | appended u c _ _ =>
    intro e he
    rcases List.mem_append.1 he with he | he
    · exact none e he
    · rw [List.mem_singleton] at he
      rw [he]
      by_contra key
      rw [Bool.not_eq_false] at key
      simp only [Entry.has, Bool.and_eq_true, decide_eq_true_eq] at key
      exact apart (by rw [key.1.2, key.2])

theorem State.settled.scanOne {s : State} {a : Nat} {kd : DeliveryKind} {k : Nat} {d : Delivery} (h : s.settled a kd k d)
    (hb : d.base = .current) (p : DeliveryKind × Nat) : (s.scanOne p).settled a kd k d := by
  obtain ⟨delivery, none⟩ := h
  rcases s.scanOne_cases p with e | ⟨d', hd', waiting, -, -, e⟩
  · rw [e]
    exact ⟨delivery, none⟩
  · have apart : (p.1, p.2) ≠ (kd, k) := by
      intro e'
      rw [Prod.mk.injEq] at e'
      rw [e'.1, e'.2, delivery] at hd'
      cases hd'
      rw [hb] at waiting
      cases waiting
    rw [e]
    exact ⟨(s.delivery_decideDelivery_other apart).trans delivery, (s.decideDelivery_queued p.1 p.2).keeps_none apart none⟩

theorem State.settled.code {s : State} {a : Nat} {kd : DeliveryKind} {k : Nat} {d : Delivery} (h : s.settled a kd k d)
    (hb : d.base = .current) (hd : d.destination = some a) : s.deliveryCode kd k = some 0 := by
  obtain ⟨delivery, none⟩ := h
  have entry : s.entryOf d kd k = Option.none := by
    unfold State.entryOf
    rw [hd]
    exact List.find?_eq_none.2 (fun e he => by rw [none e he]; nofun)
  unfold State.deliveryCode
  rw [delivery]
  dsimp only
  rw [entry]
  dsimp only
  rw [hb]

/-- Entries are removed, and the scan is made. -/
theorem State.removeEntries_some {s : State} {p : Entry → Bool} (h : ∃ e ∈ s.queue, p e = true) :
    s.removeEntries p = State.fillQueue { s with queue := s.queue.filter (fun e => !p e) } := by
  unfold State.removeEntries
  exact if_pos (List.any_eq_true.2 h)

/-! ## The answer of a directive -/

theorem State.acknowledgement_takes {s t : State} {a seq target : Nat} {dk : DeliveryKind} {c : Content} {u : LineUnit}
    (h : s.onLine (.directive a dk target c) seq u) (kind : UnitKind) {body : List Word} (hb : body.length ≤ 104)
    (ht : s.endTransaction.directiveDone a dk target c = t) (hl : t.load = s.load) :
    exec (.acknowledgement (unitFrame (.directive a dk target c) seq kind body)) s = .next t := by
  obtain ⟨-, load, sound, h1, h32, hseq, line, -⟩ := h
  unfold exec execAcknowledgement State.directiveAnswer
  rw [line]
  dsimp only
  rw [Transaction.matching_unitFrame _ _ _ _ h32 hseq (by omega)]
  dsimp only
  unfold State.unitEvent
  rw [State.beside_sound (s := s.endTransaction) sound, State.acting_sound (s := s.endTransaction) sound, ht]
  unfold State.afterLine
  rw [hl, load]

/-- The only entry of a key is the one that is found. -/
theorem find_only {q before after : List Entry} {e : Entry} {a target : Nat} {dk : DeliveryKind} (hq : q = before ++ e :: after)
    (he : e.has a dk target = true) (only : ∀ x ∈ before ++ after, x.has a dk target = false) :
    q.find? (fun e => e.has a dk target) = some e := by
  rw [hq, List.find?_append, List.find?_eq_none.2 (fun x hx => by rw [only x (List.mem_append_left _ hx)]; nofun),
    Option.none_or]
  exact List.find?_cons_of_pos (p := fun e : Entry => e.has a dk target) he

theorem filter_only {q before after : List Entry} {e : Entry} {a target : Nat} {dk : DeliveryKind} (hq : q = before ++ e :: after)
    (he : e.has a dk target = true) (only : ∀ x ∈ before ++ after, x.has a dk target = false) :
    q.filter (fun e => !e.has a dk target) = before ++ after := by
  have kept : ∀ l : List Entry, (∀ x ∈ l, x.has a dk target = false) → l.filter (fun e => !e.has a dk target) = l := fun l h =>
    List.filter_eq_self.2 (fun x hx => by rw [h x hx]; rfl)
  rw [hq, List.filter_append, List.filter_cons_of_neg (by rw [he]; nofun),
    kept before (fun x hx => only x (List.mem_append_left _ hx)), kept after (fun x hx => only x (List.mem_append_right _ hx))]

end Sys2Proof.Machine

namespace Sys2Proof
open Machine

/-- Settles O54. -/
theorem directiveAcknowledged : Obligations.DirectiveAcknowledged := by
  intro a seq target dk c kind body s u e before after hon hc hbody hq he only answer
  have found : s.endTransaction.queue.find? (fun e => e.has a dk target) = some e := find_only hq he only
  have filtered : s.queue.filter (fun e => !e.has a dk target) = before ++ after := filter_only hq he only
  have there : ∃ x ∈ s.queue, x.has a dk target = true := ⟨e, by rw [hq]; simp, he⟩
  have takes : ∀ t, s.endTransaction.directiveDone a dk target c = t → t.load = s.load → exec answer s = .next t :=
    fun t ht hl => State.acknowledgement_takes hon kind hbody ht hl
  refine ⟨fun d ho hd hdest hattached => ⟨fun hsent => ?_, fun hqueued => ?_⟩, fun hdetached => ?_⟩
  · have done : s.endTransaction.directiveDone a dk target c =
        ((s.endTransaction.setDelivered dk target c).setBase dk target .current).removeEntries (fun e => e.has a dk target) := by
      unfold State.directiveDone
      rw [found]
      dsimp only
      rw [hattached, hsent]
      rfl
    have quiet := (Quiet.soft s.endTransaction).setBase
      ((Quiet.soft s.endTransaction).setDelivered (Quiet.refl _) dk target c) dk target .current
    obtain ⟨-, owned, based, queue, finals⟩ := State.setDelivered_acknowledges (s := s.endTransaction) hc ho hd
    have delivery := based .current
    obtain ⟨finals', queue'⟩ := State.setBase_owned owned .current
    generalize (s.endTransaction.setDelivered dk target c).setBase dk target .current = w at done quiet delivery finals' queue'
    have queueW : w.queue = s.queue := queue'.trans queue
    rw [State.removeEntries_some (by rw [queueW]; exact there), queueW, filtered] at done
    have settled : State.settled { w with queue := before ++ after } a dk target { d with delivered := some c, base := .current } :=
      ⟨delivery, only⟩
    have filled : (State.fillQueue { w with queue := before ++ after }).settled a dk target
        { d with delivered := some c, base := .current } :=
      State.forEach_keeps (P := fun t => t.settled a dk target { d with delivered := some c, base := .current }) settled _
        (fun _ p h => h.scanOne rfl p)
    have quiet' : Quiet s.endTransaction (State.fillQueue { w with queue := before ++ after }) :=
      (Quiet.soft s.endTransaction).fillQueue ((Quiet.soft s.endTransaction).withQueue ?_ quiet)
    have stand : s.finalsStand (State.fillQueue { w with queue := before ++ after }) :=
      State.finalsStand.fillQueue ((State.finalsStand.refl s).of_eq (finals'.trans finals))
    obtain ⟨l, appended, -⟩ := State.fillQueue_appends { w with queue := before ++ after }
    generalize State.fillQueue { w with queue := before ++ after } = t at done filled quiet' stand appended
    obtain ⟨qonly, carriers, cores⟩ := quiet'
    refine ⟨t, takes t done qonly.sameMachine.load, filled.1, filled.code rfl hdest, fun x hx => ?_, qonly.sameMachine.line,
      qonly.sameMachine.units, carriers, qonly.galleries, qonly.settings, cores, stand, qonly.port⟩
    · rw [appended]
      exact List.mem_append_left _ hx
    · rw [queueW, hq]
      refine le_trans ?_ (le_max_left _ _)
      simp
  · have done : s.endTransaction.directiveDone a dk target c = s.endTransaction.setDelivered dk target c := by
      unfold State.directiveDone
      rw [found]
      dsimp only
      rw [hattached, hqueued]
      rfl
    have quiet := (Quiet.soft s.endTransaction).setDelivered (Quiet.refl s.endTransaction) dk target c
    obtain ⟨delivery, -, -, queue, finals⟩ := State.setDelivered_acknowledges (s := s.endTransaction) hc ho hd
    generalize s.endTransaction.setDelivered dk target c = t at done quiet delivery queue finals
    obtain ⟨qonly, carriers, cores⟩ := quiet
    exact ⟨t, takes t done qonly.sameMachine.load, delivery, queue, qonly.sameMachine.line, qonly.sameMachine.units, carriers,
      qonly.galleries, qonly.settings, cores, finals, qonly.port⟩
  · have done : s.endTransaction.directiveDone a dk target c =
        State.fillQueue { s.endTransaction with queue := before ++ after } := by
      unfold State.directiveDone
      rw [found]
      dsimp only
      rw [hdetached, if_pos rfl, State.removeEntries_some (s := s.endTransaction) there]
      exact congrArg (fun q => State.fillQueue { s.endTransaction with queue := q }) filtered
    have quiet : Quiet s.endTransaction (State.fillQueue { s.endTransaction with queue := before ++ after }) :=
      (Quiet.soft s.endTransaction).fillQueue ((Quiet.soft s.endTransaction).withQueue ?_ (Quiet.refl _))
    have stations : s.stationsUnbased (State.fillQueue { s.endTransaction with queue := before ++ after }) :=
      (Decides.unbased s).fillQueue (fun _ => rfl)
    have unrouted : s.conferencesUnrouted (State.fillQueue { s.endTransaction with queue := before ++ after }) :=
      (State.conferencesUnrouted.decides s).fillQueue (fun _ => rfl)
    have stand : s.finalsStand (State.fillQueue { s.endTransaction with queue := before ++ after }) :=
      State.finalsStand.fillQueue ((State.finalsStand.refl s).of_eq rfl)
    obtain ⟨l, appended, fresh⟩ := State.fillQueue_appends { s.endTransaction with queue := before ++ after }
    generalize State.fillQueue { s.endTransaction with queue := before ++ after } = t at done quiet stations unrouted stand appended
    obtain ⟨qonly, carriers, cores⟩ := quiet
    have members : ∀ x ∈ t.queue, x.has a dk target = true → x.sent = false ∧ x.detached = false := by
      intro x hx key
      rw [appended] at hx
      rcases List.mem_append.1 hx with old | new
      · rw [only x old] at key
        cases key
      · obtain ⟨sent, attached, -⟩ := fresh x new
        exact ⟨sent, attached⟩
    refine ⟨t, takes t done qonly.sameMachine.load, fun hm => ?_, fun x hx => ?_, members, fun j v hv => ?_, unrouted.delivered,
      stand, qonly.sameMachine.line, qonly.sameMachine.units, carriers, qonly.galleries, qonly.settings, qonly.port⟩
    · rw [(members e hm he).2] at hdetached
      cases hdetached
    · rw [appended]
      exact List.mem_append_left _ hx
    · have kept := stations j
      rw [hv] at kept
      obtain ⟨x, hx, same⟩ := Option.map_eq_some_iff.1 kept.symm
      exact ⟨x, hx, (congrArg Station.core same.symm :), (congrArg Station.delivered same.symm :),
        (congrArg Station.deliveredLamp same.symm :), (congrArg Station.deliveredRoute same.symm :)⟩
    · refine le_trans ?_ (le_max_left _ _)
      rw [show s.endTransaction.queue = s.queue from rfl, hq]
      simp

end Sys2Proof
end

section
/-! A station leaves the other records (R44, R74, R86, R110, R111, R125). -/

namespace Sys2Proof.Machine

/-! ## What the leaving of a station keeps -/

/-- A property that the leaving of a station keeps: of the other stations it frees the pair too, and it changes the galleries
and the store states. -/
structure Leaving (P : State → Prop) : Prop extends Telling P where
  repair : ∀ {s : State} (p : Nat), P s → P (s.repair p none)
  tables : ∀ {s : State} (gs : Table Gallery) (x : StoreStates), P s → P { s with galleries := gs, storeStates := x }

/-- The partners that name a station. -/
def State.partners (s : State) (k : Nat) : List Nat := (s.stations.records.filter (fun p => p.2.pair = some k)).map (·.1)

/-- A partner's pair becomes none, with the notices of R93. -/
def State.partnerLeft (k : Nat) (s : State) (p : Nat) : State := (s.repair p none).pairsChanged [(p, some k, none)]

theorem State.partnersLeft_eq (s : State) (k : Nat) : s.partnersLeft k =
    (s.forEach (s.partners k) (State.partnerLeft k)).forEach (s.partners k)
      (fun t p => t.recomputeEverywhere none p (fun _ _ => false)) := rfl

section
variable {P : State → Prop}

theorem Recomputing.partnersLeft (hc : Recomputing P) (lamp : ∀ {t : State} (j : Nat), P t → P (t.recomputeLamp j))
    (repair : ∀ {t : State} (p : Nat), P t → P (t.repair p none)) {s : State} (h : P s) (k : Nat) : P (s.partnersLeft k) :=
  State.forEach_keeps (State.forEach_keeps h _ (fun _ p ht => hc.pairsChanged lamp (repair p ht) _)) _
    (fun _ _ ht => hc.recomputeEverywhere ht _ _ _)

theorem Leaving.partnersLeft (hc : Leaving P) {s : State} (h : P s) (k : Nat) : P (s.partnersLeft k) :=
  hc.recomputing.partnersLeft (fun j ht => hc.recomputeLamp ht j) (fun p ht => hc.repair p ht) h k

theorem Leaving.stationLeavesAll (hc : Leaving P) {s : State} (h : P s) (k : Nat) (b : Bool) : P (s.stationLeavesAll k b) :=
  State.forEach_keeps h _ (fun _ c ht => hc.stationLeaves (fun {t} ht => hc.tables t.galleries _ ht) ht k c b)

end

/-! ## Source maps -/

/-- A gallery whose source map names station k no longer, with Map Changed (R86). -/
@[reducible] def Gallery.unmapped (k : Nat) (x : Gallery) : Gallery :=
  { x with sources := x.sources.map (fun e => if e = some k then none else e), mark := addReason 3 x.mark }

/-- The galleries without a station. -/
def State.unmappedGalleries (s : State) (k : Nat) : Table Gallery :=
  s.galleries.modifyAll ((s.galleries.records.filter (fun q => q.2.sources.contains (some k))).map (·.1)) (Gallery.unmapped k)

theorem State.unmapped_gallery {s : State} (h : s.galleries.wf = true) (k g : Nat) : (s.unmappedGalleries k).get g =
    (s.gallery g).map (fun x => if x.sources.contains (some k) then x.unmapped k else x) :=
  Table.get_modifyAll_records h (fun q => q.2.sources.contains (some k)) (Gallery.unmapped k) g

theorem State.unmapStation_eq (s : State) (k : Nat) (b : Bool) :
    ∃ x, s.unmapStation k b = { s with galleries := s.unmappedGalleries k, storeStates := x } := by
  have step : ∀ (t : State) (g : Nat), (t.modGallery g (fun x => { x with
      sources := x.sources.map (fun e => if e = some k then none else e) })).markGallery g GalleryReason.mapChanged =
        t.modGallery g (Gallery.unmapped k) := fun t g =>
    congrArg (fun m => { t with galleries := m }) (Table.modify_modify t.galleries g _ _)
  have edits := s.forEach_modGallery ((s.galleries.records.filter (fun q => q.2.sources.contains (some k))).map (·.1))
    (Gallery.unmapped k)
  unfold State.unmapStation
  simp only [step]
  rw [edits]
  split
  · exact ⟨_, rfl⟩
  · exact ⟨_, rfl⟩

/-! ## The relations, but for the carriers and the cues -/

/-- The conferences, the galleries and the partners are left. -/
def State.left (s : State) (k : Nat) (b : Bool) : State := ((s.stationLeavesAll k b).unmapStation k b).partnersLeft k

theorem State.stationRelations_eq (s : State) (k : Nat) (b : Bool) :
    s.stationRelations k b = ((s.stationGone k b).left k b).releaseSourced k := rfl

theorem Leaving.left {P : State → Prop} (hc : Leaving P) {s : State} (h : P s) (k : Nat) (b : Bool) : P (s.left k b) := by
  obtain ⟨x, e⟩ := (s.stationLeavesAll k b).unmapStation_eq k b
  unfold State.left
  rw [e]
  exact hc.partnersLeft (hc.tables _ x (hc.stationLeavesAll h k b)) k

/-! ## Properties that are kept -/

theorem Leaving.carriers (s : State) : Leaving (fun t => t.carriers = s.carriers) where
  hand := fun {t} h kd k => ((Quiet.soft t).hand (Quiet.refl t) kd k).2.1.trans h
  mark _ _ h := h
  lamp _ _ h := h
  modConference h := h
  repair _ h := h
  tables _ _ h := h

theorem Leaving.finalsStand (s : State) : Leaving s.finalsStand where
  toTelling := (Cueing.finalsStand s).toTelling
  repair _ h := h
  tables _ _ h := h

theorem State.besideGalleries.refl (s : State) : s.besideGalleries s := ⟨rfl, rfl, rfl, rfl, by constructor <;> rfl⟩

theorem State.besideGalleries.only {s t u : State} (h : s.besideGalleries t) (ho : Only t u) : s.besideGalleries u := by
  obtain ⟨windows, settings, checkQueue, engine, machine⟩ := h
  exact ⟨ho.windows.trans windows, ho.settings.trans settings, ho.checkQueue.trans checkQueue, ho.engine.trans engine,
    machine.trans ho.sameMachine⟩

theorem Leaving.beside (s : State) : Leaving s.besideGalleries where
  hand := fun {t} h kd k => h.only ((Quiet.soft t).hand (Quiet.refl t) kd k).1
  mark := fun k r h => h.only ((Only.broad _).soft.markStation (Only.refl _) k r)
  lamp := fun k l h => h.only ((Only.broad _).modStation (Only.refl _))
  modConference := fun h => h.only ((Only.broad _).modConference (Only.refl _))
  repair := fun p h => h.only ((Only.broad _).soft.markStation ((Only.broad _).modStation (Only.refl _)) p _)
  tables := fun gs x ⟨windows, settings, checkQueue, engine, machine⟩ => by
    refine ⟨windows, settings, checkQueue, engine, ?_⟩
    cases machine
    constructor <;> assumption

theorem Leaving.project {α : Type} (g : Station → α) (hb : ∀ x kd b, g (x.withBase kd b) = g x)
    (hm : ∀ x m, g { x with mark := m } = g x) (hl : ∀ x l, g { x with lamp := l } = g x)
    (hp : ∀ x p m, g { x with pair := p, mark := m } = g x) (s : State) :
    Leaving (fun t => ∀ j, (t.station j).map g = (s.station j).map g) where
  toTelling := Telling.project g hb hm hl s
  repair := by
    intro t p h j
    rw [← h j, State.repair, State.markStation, State.station_modStation]
    split
    · rename_i e
      subst e
      rw [State.station_modStation, if_pos rfl, Option.map_map, Option.map_map]
      exact congrArg (Option.map · (t.station j)) (funext fun x => hp x none _)
    · rename_i e
      rw [State.station_modStation, if_neg e]
  tables _ _ h := h

/-- A slot without a station stays so. -/
theorem State.slot_modStation {s : State} {k : Nat} (h : s.stations.slot k = none) (j : Nat) (f : Station → Station) :
    (s.modStation j f).stations.slot k = none := by
  by_cases e : k = j
  · subst e
    have empty : s.stations.get k = none := by
      unfold Table.get
      rw [h]
    rw [State.modStation_stations, Table.modify_of_none empty]
    exact h
  · exact (Table.slot_modify_ne _ _ _ e).trans h

theorem Decides.slot (k : Nat) : Decides (fun t => t.stations.slot k = none) where
  station j _ _ h := State.slot_modStation h j _
  conference _ _ h := h
  withQueue h := h
  withFinals h := h

theorem Leaving.slot (k : Nat) : Leaving (fun t => t.stations.slot k = none) where
  hand h kd j := (Decides.slot k).hand h kd j
  mark j _ h := State.slot_modStation h j _
  lamp j _ h := State.slot_modStation h j _
  modConference h := h
  repair p h := State.slot_modStation (State.slot_modStation h p _) p _
  tables _ _ h := h

theorem Cueing.slot (k : Nat) : Cueing (fun t => t.stations.slot k = none) where
  toTelling := (Leaving.slot k).toTelling
  stack j _ _ _ h := State.slot_modStation h j _

theorem Decides.stationsWf : Decides (fun t => t.stations.wf = true) where
  station _ _ _ h := Table.wf_modify h _ _
  conference _ _ h := h
  withQueue h := h
  withFinals h := h

theorem Leaving.stationsWf : Leaving (fun t => t.stations.wf = true) where
  hand h kd k := Decides.stationsWf.hand h kd k
  mark _ _ h := Table.wf_modify h _ _
  lamp _ _ h := Table.wf_modify h _ _
  modConference h := h
  repair _ h := Table.wf_modify (Table.wf_modify h _ _) _ _
  tables _ _ h := h

/-! ## Pairs -/

/-- The partner's pair is none, and the other pairs stand. -/
theorem State.partnerLeft_pair (k : Nat) (s : State) (p j : Nat) : ((s.partnerLeft k p).station j).map Station.pair =
    (s.station j).map (fun x => if j = p then none else x.pair) := by
  have told := (Telling.untold (s.repair p none)).pairsChanged (State.stationsUntold.refl _) [(p, some k, none)]
  refine (told.map (fun _ => rfl) j).trans ?_
  rw [State.repair, State.markStation, State.station_modStation]
  by_cases e : j = p
  · subst e
    simp only [if_true, State.station_modStation, Option.map_map]
    rfl
  · rw [if_neg e, State.station_modStation, if_neg e]
    simp only [if_neg e]

theorem State.partnersLeft_pair (s : State) (k j : Nat) : ((s.partnersLeft k).station j).map Station.pair =
    (s.station j).map (fun x => if j ∈ s.partners k then none else x.pair) := by
  have each : ∀ (ps : List Nat) (t : State), ((t.forEach ps (State.partnerLeft k)).station j).map Station.pair =
      (t.station j).map (fun x => if j ∈ ps then none else x.pair) := by
    intro ps
    induction ps with
    | nil => exact fun t => by simp [State.forEach]
    | cons p ps ih =>
      intro t
      rw [State.forEach_cons, ih]
      by_cases hj : j ∈ ps
      · have there := congrArg (Option.map (fun _ => (none : Option Nat))) (t.partnerLeft_pair k p j)
        rw [Option.map_map, Option.map_map] at there
        simp only [hj, List.mem_cons, or_true, if_true]
        exact there
      · simp only [hj, List.mem_cons, or_false, if_false]
        exact t.partnerLeft_pair k p j
  rw [State.partnersLeft_eq, ← each]
  exact (State.forEach_keeps (P := fun t => (s.forEach (s.partners k) (State.partnerLeft k)).stationsUntold t)
    (State.stationsUntold.refl _) _ (fun _ p h => (Telling.untold _).recomputeEverywhere h _ _ _)).map (fun _ => rfl) j

theorem State.mem_partners {s : State} (h : s.stations.wf = true) {k j : Nat} {x : Station} (hx : s.station j = some x) :
    j ∈ s.partners k ↔ x.pair = some k := by
  simp only [State.partners, List.mem_map, List.mem_filter, decide_eq_true_eq]
  constructor
  · rintro ⟨⟨i, y⟩, ⟨hm, hp⟩, rfl⟩
    have held := (Table.mem_records h i y).1 hm
    rw [State.station, held] at hx
    cases hx
    exact hp
  · exact fun hp => ⟨(j, x), ⟨(Table.mem_records h j x).2 hx, hp⟩, rfl⟩

end Sys2Proof.Machine
end

section
/-! What a station leaves behind: its carriers, and its final deliveries (R44, R74, R153). -/

namespace Sys2Proof.Machine

/-! ## Carriers -/

/-- Each record of a list is changed by itself. -/
theorem Table.get_modifyEach {α : Type} (f : Nat × α → α → α) {ps : List (Nat × α)} (hn : (ps.map (·.1)).Nodup) (t : Table α)
    (i : Nat) : (ps.foldl (fun t p => t.modify p.1 (f p)) t).get i =
      (t.get i).map (fun y => ((ps.find? (fun p => p.1 = i)).map (f · y)).getD y) := by
  induction ps generalizing t with
  | nil => simp
  | cons p ps ih =>
    rw [List.map_cons, List.nodup_cons] at hn
    rw [List.foldl_cons, ih hn.2, Table.get_modify]
    by_cases e : i = p.1
    · have none : ps.find? (fun q => q.1 = i) = none := by
        rw [List.find?_eq_none]
        intro q hq
        rw [decide_eq_true_eq, e]
        exact fun h => hn.1 (List.mem_map.2 ⟨q, hq, h⟩)
      rw [if_pos e, none, List.find?_cons_of_pos (by simp [e]), Option.map_map]
      rfl
    · rw [if_neg e, List.find?_cons_of_neg (by simpa using Ne.symm e)]

/-- A carrier whose station is gone (R44). -/
@[reducible] def Carrier.orphaned (k : Nat) (y : Carrier) : Carrier :=
  { y with
    state := if y.bound.map (·.1) = some k ∧ y.state ≠ .blocked then .cleared else y.state
    bound := if y.bound.map (·.1) = some k then none else y.bound
    intent := if y.intent.map (·.1) = some k then none else y.intent
    mark := addReason 12 y.mark }

/-- The change of a carrier whose record p named the station. -/
@[reducible] def orphaning (k : Nat) (p : Nat × Carrier) (y : Carrier) : Carrier :=
  { y with
    state := if p.2.bound.map (·.1) = some k && y.state != .blocked then .cleared else y.state
    bound := if p.2.bound.map (·.1) = some k then none else y.bound
    intent := if p.2.intent.map (·.1) = some k then none else y.intent
    mark := addReason 12 y.mark }

theorem orphaning_self (k c : Nat) (y : Carrier) : orphaning k (c, y) y = y.orphaned k := by
  simp only [orphaning, Carrier.orphaned, Bool.and_eq_true, decide_eq_true_eq, bne_iff_ne]

/-- A carrier names a station, as the one that it is bound to or as the one of its intent. -/
def Carrier.meant (k : Nat) (y : Carrier) : Bool := y.bound.map (·.1) = some k || y.intent.map (·.1) = some k

/-- The carriers once station k is gone. -/
def State.carriersWithout (s : State) (k : Nat) : Table Carrier :=
  (s.carriers.records.filter (fun p => p.2.meant k)).foldl (fun t p => t.modify p.1 (orphaning k p)) s.carriers

theorem State.stationGone_eq (s : State) (k : Nat) (b : Bool) :
    ∃ x, s.stationGone k b = { s with carriers := s.carriersWithout k, storeStates := x } := by
  have step : ∀ (t : State) (p : Nat × Carrier), (t.modCarrier p.1 (fun y => { y with
      state := if p.2.bound.map (·.1) = some k && y.state != .blocked then .cleared else y.state
      bound := if p.2.bound.map (·.1) = some k then none else y.bound
      intent := if p.2.intent.map (·.1) = some k then none else y.intent })).markCarrier p.1 CarrierReason.stationGone =
        t.modCarrier p.1 (orphaning k p) := fun t p =>
    congrArg (fun m => { t with carriers := m }) (Table.modify_modify t.carriers p.1 _ _)
  have each : ∀ (ps : List (Nat × Carrier)) (t : State), t.forEach ps (fun s p => s.modCarrier p.1 (orphaning k p)) =
      { t with carriers := ps.foldl (fun t p => t.modify p.1 (orphaning k p)) t.carriers } := by
    intro ps
    induction ps with
    | nil => exact fun _ => rfl
    | cons p ps ih => exact fun t => ih (t.modCarrier p.1 (orphaning k p))
  have gone : s.forEach (s.carriers.records.filter (fun p => p.2.meant k)) (fun s p => s.modCarrier p.1 (orphaning k p)) =
      { s with carriers := s.carriersWithout k } := each _ s
  unfold State.stationGone
  simp only [step]
  split
  · exact ⟨_, congrArg State.carrierChanged gone⟩
  · exact ⟨_, gone⟩

/-- The record of a key is the one that is found. -/
theorem find_key {α : Type} {ps : List (Nat × α)} (hn : (ps.map (·.1)).Nodup) {p : Nat × α} (hp : p ∈ ps) :
    ps.find? (fun q => q.1 = p.1) = some p := by
  cases hf : ps.find? (fun q => q.1 = p.1) with
  | none =>
    have := List.find?_eq_none.1 hf p hp
    simp at this
  | some q =>
    have key : q.1 = p.1 := by simpa using List.find?_some hf
    exact congrArg some (List.inj_on_of_nodup_map hn (List.mem_of_find?_eq_some hf) hp key)

theorem State.carriersWithout_get {s : State} (h : s.carriers.wf = true) (k c : Nat) : (s.carriersWithout k).get c =
    (s.carrier c).map (fun y => if y.meant k then y.orphaned k else y) := by
  have distinct : ((s.carriers.records.filter (fun p => p.2.meant k)).map (·.1)).Nodup :=
    (Table.records_nodup h).sublist (List.filter_sublist.map _)
  unfold State.carriersWithout
  rw [Table.get_modifyEach _ distinct]
  cases hy : s.carrier c with
  | none =>
    rw [show s.carriers.get c = none from hy]
    rfl
  | some y =>
    have record := (Table.mem_records h c y).2 hy
    rw [show s.carriers.get c = some y from hy, Option.map_some, Option.map_some]
    refine congrArg some ?_
    by_cases hit : y.meant k = true
    · have found := find_key distinct (p := (c, y)) (List.mem_filter.2 ⟨record, hit⟩)
      dsimp only at found
      rw [found, if_pos hit]
      exact orphaning_self k c y
    · have none : (s.carriers.records.filter (fun p => p.2.meant k)).find? (fun p => p.1 = c) = none := by
        rw [List.find?_eq_none]
        rintro ⟨i, z⟩ hz e
        obtain ⟨hm, hp⟩ := List.mem_filter.1 hz
        have held := (Table.mem_records h i z).1 hm
        rw [decide_eq_true_eq] at e
        dsimp only at e
        rw [e, show s.carriers.get c = some y from hy] at held
        cases held
        exact hit hp
      rw [none, if_neg hit]
      rfl

/-! ## Final deliveries -/

/-- A delivery that is not Current, or has an entry. -/
theorem State.entry_of_delivery {s : State} {kd : DeliveryKind} {k : Nat} {d : Delivery} (hd : s.delivery kd k = some d)
    (h : s.deliveryCode kd k ≠ some 0) (hb : d.base = .current) : (s.entryOf d kd k).isSome = true := by
  cases he : s.entryOf d kd k with
  | some e => rfl
  | none =>
    refine absurd ?_ h
    unfold State.deliveryCode
    rw [hd]
    dsimp only
    rw [he]
    dsimp only
    rw [hb]

/-- A final delivery that joins stands as the only one of its key, and the others as they were. -/
theorem State.finalsWith_spec (s : State) (f : Final) :
    (∀ g ∈ s.finalsWith f, g.kind = f.kind → g.target = f.target → g = f) ∧
      (∀ g, ¬ (g.kind = f.kind ∧ g.target = f.target) → (g ∈ s.finalsWith f ↔ g ∈ s.finals)) := by
  refine ⟨fun g hg hk ht => ?_, fun g key => ?_⟩
  · rcases List.mem_append.1 hg with hg | hg
    · have := (List.mem_filter.1 hg).2
      simp [hk, ht] at this
    · exact List.mem_singleton.1 hg
  · have other : (!(decide (g.kind = f.kind) && decide (g.target = f.target))) = true := by
      simpa [imp_iff_not_or] using key
    rw [List.mem_append, List.mem_filter, List.mem_singleton, other]
    simp only [and_true, or_iff_left_iff_imp]
    rintro rfl
    exact absurd ⟨rfl, rfl⟩ key

/-- What the taking over of a final delivery leaves: no other of its key, and the others as they were. -/
theorem State.takeOver_finals (s : State) (f : Final) : ∃ fs, s.takeOver f false = { s with finals := fs } ∧
    (∀ g ∈ fs, g.kind = f.kind → g.target = f.target → g = f) ∧
    (∀ g, ¬ (g.kind = f.kind ∧ g.target = f.target) → (g ∈ fs ↔ g ∈ s.finals)) := by
  obtain ⟨one, others⟩ := s.finalsWith_spec f
  have dropped : ∃ fs, State.dropFinal { s with finals := s.finalsWith f } f.kind f.target = { s with finals := fs } ∧
      (∀ g ∈ fs, g.kind = f.kind → g.target = f.target → g = f) ∧
      (∀ g, ¬ (g.kind = f.kind ∧ g.target = f.target) → (g ∈ fs ↔ g ∈ s.finals)) := by
    refine ⟨_, rfl, fun g hg => one g (List.mem_filter.1 hg).1, fun g key => ?_⟩
    have other : (!(decide (g.kind = f.kind) && decide (g.target = f.target))) = true := by
      simpa [imp_iff_not_or] using key
    rw [List.mem_filter, other]
    simpa using others g key
  unfold State.takeOver
  dsimp only
  rw [if_neg nofun]
  split
  · split
    · exact dropped
    · exact ⟨_, rfl, one, others⟩
  · exact ⟨_, rfl, one, others⟩

end Sys2Proof.Machine
end

section
/-! What a station that leaves hands over, the conferences without it, and the cues that it was sourcing (R111, R125, R153). -/

namespace Sys2Proof.Machine

/-! ## The final deliveries of a retired station -/

/-- A final delivery stands as the only one of its key. -/
def State.holdsFinal (s : State) (f : Final) : Prop :=
  f ∈ s.finals ∧ ∀ g ∈ s.finals, g.kind = f.kind → g.target = f.target → g = f

theorem State.holdsFinal.takeOver {s : State} {f g : Final} (h : s.holdsFinal f)
    (key : ¬ (f.kind = g.kind ∧ f.target = g.target)) : (s.takeOver g false).holdsFinal f := by
  obtain ⟨held, alone⟩ := h
  obtain ⟨fs, frame, -, others⟩ := s.takeOver_finals g
  rw [frame]
  refine ⟨(others f key).2 held, fun e he hk ht => alone e ((others e ?_).1 he) hk ht⟩
  rw [hk, ht]
  exact key

theorem State.takeOver_holdsFinal {s : State} {f : Final} (hown : ∀ fs, State.delivery { s with finals := fs } f.kind f.target =
      State.finalDelivery { s with finals := fs } f.kind f.target)
    (h : f.base = .current → (s.entryOf (s.asDelivery f) f.kind f.target).isSome = true) : (s.takeOver f false).holdsFinal f := by
  have stands := State.takeOver_stands hown h
  obtain ⟨fs, frame, only, -⟩ := s.takeOver_finals f
  rw [frame] at stands ⊢
  exact ⟨stands, only⟩

theorem State.holdsFinal.stands {s t : State} {f : Final} (h : s.holdsFinal f) (hd : f.delivered ≠ some f.wanted)
    (ht : s.finalsStand t) : ∃ g ∈ t.finals, g = { f with base := g.base } := ht.2 f h.1 hd h.2

/-- The MUTE that goes on after a station (R74, R153). -/
@[reducible] def Station.finalTune (x : Station) (k a : Nat) : Final :=
  ⟨.tune, k, some a, .tune { x.wanted with muted := true }, x.delivered.map .tune, x.tuneBase⟩

/-- The cue route of none that goes on after a station. -/
@[reducible] def Station.finalRoute (x : Station) (k : Nat) : Final :=
  ⟨.cueRoute, k, none, .cueRoute none, x.deliveredRoute.map .cueRoute, x.cueBase⟩

/-- The final deliveries of a retired station. -/
def Station.finals (x : Station) (k : Nat) : List Final :=
  stationFinals k x.kind x.controlUnit
    (fun f => { f with wanted := .tune { x.wanted with muted := true }, delivered := x.delivered.map .tune, base := x.tuneBase })
    (fun f => { f with delivered := x.deliveredRoute.map .cueRoute, base := x.cueBase })

theorem Station.finals_eq (x : Station) (k : Nat) : x.finals k =
    (match x.controlUnit with | some a => [x.finalTune k a] | none => []) ++
      (if x.kind.hasCue then [x.finalRoute k] else []) := by
  unfold Station.finals stationFinals
  cases x.controlUnit <;> rfl

theorem State.takeOverAll_frame (s : State) (fs : List Final) : ∃ gs, s.takeOverAll fs false = { s with finals := gs } := by
  refine State.forEach_keeps (P := fun t => ∃ gs, t = { s with finals := gs }) ⟨s.finals, rfl⟩ fs (fun t f ht => ?_)
  obtain ⟨gs, rfl⟩ := ht
  exact State.takeOver_frame _ f

section
variable {s : State} {k : Nat} {x : Station}

theorem State.takeOver_finalTune (hx : s.station k = some x) {a : Nat} (ha : x.controlUnit = some a)
    (hc : s.deliveryCode .tune k ≠ some 0) :
    (State.takeOver { s with stations := s.stations.erase k } (x.finalTune k a) false).holdsFinal (x.finalTune k a) := by
  have gone : (s.stations.erase k).get k = none := (Table.get_erase _ _ _).trans (if_pos rfl)
  refine State.takeOver_holdsFinal (fun fs => ?_) (fun hb => ?_)
  · simp only [State.delivery, State.station, gone]
  · refine State.entry_of_delivery (s := s) (kd := .tune) (k := k) (d := ⟨some a, .tune x.wanted, x.delivered.map .tune, x.tuneBase⟩)
      ?_ hc hb
    simp [State.delivery, hx, ha]

theorem State.takeOver_finalRoute (hx : s.station k = some x) (hk : x.kind.hasCue = true)
    (hc : s.deliveryCode .cueRoute k ≠ some 0) (fs : List Final) :
    (State.takeOver { s with stations := s.stations.erase k, finals := fs } (x.finalRoute k) false).holdsFinal
      (x.finalRoute k) := by
  have gone : (s.stations.erase k).get k = none := (Table.get_erase _ _ _).trans (if_pos rfl)
  refine State.takeOver_holdsFinal (fun fs => ?_) (fun hb => ?_)
  · simp only [State.delivery, State.station, gone]
  · refine State.entry_of_delivery (s := s) (kd := .cueRoute) (k := k)
      (d := ⟨s.settings.matrixUnit, .cueRoute x.cueRoute, x.deliveredRoute.map .cueRoute, x.cueBase⟩) ?_ hc hb
    simp [State.delivery, hx, hk]

theorem State.retired_tune (hx : s.station k = some x) {a : Nat} (ha : x.controlUnit = some a)
    (hc : s.deliveryCode .tune k ≠ some 0) :
    (State.takeOverAll { s with stations := s.stations.erase k } (x.finals k) false).holdsFinal (x.finalTune k a) := by
  have taken := State.takeOver_finalTune hx ha hc
  rw [x.finals_eq, ha]
  cases x.kind.hasCue with
  | true => exact taken.takeOver (by simp)
  | false => exact taken

theorem State.retired_route (hx : s.station k = some x) (hk : x.kind.hasCue = true) (hc : s.deliveryCode .cueRoute k ≠ some 0) :
    (State.takeOverAll { s with stations := s.stations.erase k } (x.finals k) false).holdsFinal (x.finalRoute k) := by
  rw [x.finals_eq, hk, if_pos rfl]
  cases x.controlUnit with
  | none => exact State.takeOver_finalRoute hx hk hc s.finals
  | some a =>
    obtain ⟨fs, frame⟩ := State.takeOver_frame { s with stations := s.stations.erase k } (x.finalTune k a)
    have second := State.takeOver_finalRoute hx hk hc fs
    rw [State.takeOverAll, State.forEach]
    simp only [List.cons_append, List.nil_append, List.foldl_cons, List.foldl_nil]
    rw [frame]
    exact second

end

/-! ## The conferences without the station -/

/-- A conference names station k in no list. -/
def Conference.lacks (x : Conference) (k : Nat) : Prop := k ∉ x.waiting ∧ ∀ m ∈ x.members, m.id ≠ Source.station k

/-- There is no station k, and conference c names it in no list. -/
def State.lacksMember (s : State) (k c : Nat) : Prop := s.station k = none ∧ ∀ x, s.conference c = some x → x.lacks k

theorem State.lacksMember.modConference {s : State} {k c d : Nat} (h : s.lacksMember k c) (f : Conference → Conference)
    (hf : d = c → ∀ x, x.lacks k → (f x).lacks k) : (s.modConference d f).lacksMember k c := by
  refine ⟨h.1, fun y hy => ?_⟩
  change (s.conferences.modify d f).get c = some y at hy
  rw [Table.get_modify] at hy
  split at hy
  · rename_i e
    obtain ⟨x, hx, rfl⟩ := Option.map_eq_some_iff.1 hy
    exact hf e.symm x (h.2 x hx)
  · exact h.2 y hy

theorem State.lacksMember.modStation {s : State} {k c : Nat} (h : s.lacksMember k c) (j : Nat) (f : Station → Station) :
    (s.modStation j f).lacksMember k c := by
  refine ⟨?_, h.2⟩
  rw [State.station_modStation, h.1]
  split
  · rfl
  · rfl

theorem Decides.lacksMember (k c : Nat) : Decides (fun t => t.lacksMember k c) where
  station j _ _ h := h.modStation j _
  conference _ _ h := h.modConference _ (fun _ _ hx => hx)
  withQueue h := h
  withFinals h := h

theorem State.lacksMember.markConference {s : State} {k c : Nat} (h : s.lacksMember k c) (d r : Nat) :
    (s.markConference d r).lacksMember k c := h.modConference _ (fun _ _ hx => hx)

theorem State.lacksMember.recomputeRouting {s : State} {k c : Nat} (h : s.lacksMember k c) (d : Nat) :
    (s.recomputeRouting d).lacksMember k c := by
  unfold State.recomputeRouting
  split
  · exact h
  · split
    · exact h
    · exact (Decides.lacksMember k c).hand (h.modConference (fun x => { x with routing := x.routed }) (fun _ _ hx => hx)) _ _

theorem Conference.lacks.append {x : Conference} {k p : Nat} (h : x.lacks k) (hp : p ≠ k) {m : Member} (hm : m.id = .station p) :
    Conference.lacks { x with members := x.members ++ [m] } k := by
  refine ⟨h.1, fun n hn => ?_⟩
  rcases List.mem_append.1 hn with hn | hn
  · exact h.2 n hn
  · rw [List.mem_singleton.1 hn, hm]
    exact fun e => hp (Source.station.inj e)

theorem State.lacksMember.serveList {k c : Nat} (ov : FollowOverride) (silent : Bool) (d : Nat) {ps : List Nat}
    (hk : d = c → k ∉ ps) {s : State} (h : s.lacksMember k c) : (Machine.serveList ov silent d ps s).lacksMember k c := by
  induction ps generalizing s with
  | nil => exact h
  | cons p rest ih =>
    have rests : d = c → k ∉ rest := fun e hm => hk e (List.mem_cons_of_mem _ hm)
    have other : d = c → p ≠ k := fun e hp => hk e (hp ▸ List.mem_cons_self)
    have served : (s.modConference d (fun x => { x with waiting := rest })).lacksMember k c :=
      h.modConference _ (fun e _ hx => ⟨rests e, hx.2⟩)
    have joined : ∀ m : Member, m.id = .station p →
        ((s.modConference d (fun x => { x with waiting := rest })).modConference d
          (fun x => { x with members := x.members ++ [m] })).lacksMember k c :=
      fun m hm => served.modConference _ (fun e _ hx => hx.append (other e) hm)
    unfold Machine.serveList
    dsimp only
    split
    · exact ih rests (served.markConference _ _)
    · split
      · exact joined _ rfl
      · exact (joined _ rfl).markConference _ _

theorem State.lacksMember.serveWaitList {s : State} {k c : Nat} (h : s.lacksMember k c) (ov : FollowOverride) (silent : Bool)
    (d : Nat) : (s.serveWaitList ov silent d).lacksMember k c := by
  unfold State.serveWaitList
  split
  · exact h
  · rename_i x hx
    refine h.serveList ov silent d (fun e => ?_)
    subst e
    exact (h.2 x hx).1

theorem State.dueReasons_gone {s : State} {k : Nat} (h : s.station k = none) (ov : FollowOverride) (c : Nat) :
    s.dueReasons ov k c = [] := by
  unfold State.dueReasons State.cameraOf
  rw [h]

theorem Conference.lacks.dropMember {x : Conference} {k : Nat} (h : x.lacks k) (id : Source) : (x.dropMember id).lacks k :=
  ⟨h.1, fun m hm => h.2 m (List.mem_filter.1 hm).1⟩

theorem Conference.lacks.unwait {x : Conference} {k : Nat} (h : x.lacks k) (p : Nat) :
    Conference.lacks { x with waiting := x.waiting.filter (· != p) } k :=
  ⟨fun hm => h.1 (List.mem_filter.1 hm).1, h.2⟩

theorem State.lacksMember.followLeaves {s : State} {k c : Nat} (h : s.lacksMember k c) (ov : FollowOverride) (p d : Nat)
    (st : Standing) : (s.followLeaves ov p d st).lacksMember k c := by
  unfold State.followLeaves
  cases st with
  | fixed => exact h
  | out => exact h
  | follow =>
    exact (((h.modConference _ (fun _ _ hx => hx.dropMember _)).markConference _ _).serveWaitList ov false d).recomputeRouting d
  | waits => exact (h.modConference _ (fun _ _ hx => hx.unwait p)).markConference _ _

theorem State.lacksMember.followJoins {s : State} {k c : Nat} (h : s.lacksMember k c) {p : Nat} (hp : p ≠ k) (d : Nat)
    (x : Conference) (due : List Nat) (st : Standing) : (s.followJoins p d x due st).lacksMember k c := by
  unfold State.followJoins
  cases st with
  | fixed => exact h
  | waits => exact h
  | follow =>
    refine h.modConference _ (fun _ y hy => ⟨hy.1, fun m hm => ?_⟩)
    obtain ⟨n, hn, rfl⟩ := List.mem_map.1 hm
    split
    · exact hy.2 n hn
    · exact hy.2 n hn
  | out =>
    dsimp only
    split
    · exact ((h.modConference _ (fun _ y hy => hy.append hp rfl)).markConference _ _).recomputeRouting d
    · split
      · refine State.lacksMember.markConference (h.modConference (fun x => { x with waiting := x.waiting ++ [p] })
          (fun _ y hy => ⟨?_, hy.2⟩)) _ _
        rw [List.mem_append, List.mem_singleton, not_or]
        exact ⟨hy.1, Ne.symm hp⟩
      · exact h.modStation _ _

theorem State.lacksMember.recomputeFollow {s : State} {k c : Nat} (h : s.lacksMember k c) (ov : FollowOverride) (p d : Nat) :
    (s.recomputeFollow ov p d).lacksMember k c := by
  unfold State.recomputeFollow
  split
  · exact h
  · dsimp only
    split
    · exact h.followLeaves ov p d _
    · rename_i due
      refine h.followJoins (fun e => due ?_) d _ _ _
      rw [e, State.dueReasons_gone h.1]
      rfl

theorem Recomputing.lacksMember (k c : Nat) : Recomputing (fun t => t.lacksMember k c) := ⟨fun h ov p d => h.recomputeFollow ov p d⟩

theorem State.lacksMember.recomputeLamp {s : State} {k c : Nat} (h : s.lacksMember k c) (j : Nat) :
    (s.recomputeLamp j).lacksMember k c := by
  unfold State.recomputeLamp
  split
  · exact h
  · dsimp only
    split
    · exact h
    · exact (Decides.lacksMember k c).hand (h.modStation _ _) _ _

theorem State.lacksMember.partnersLeft {s : State} {k c : Nat} (h : s.lacksMember k c) (j : Nat) :
    (s.partnersLeft j).lacksMember k c :=
  (Recomputing.lacksMember k c).partnersLeft (fun i ht => ht.recomputeLamp i)
    (fun p ht => State.lacksMember.modStation (ht.modStation p _) p _) h j

theorem State.lacksMember.served {s : State} {k c : Nat} (h : s.lacksMember k c) {α : Type} (xs : List α) (d : Nat) :
    ((s.forEach xs (fun t _ => t.serveWaitList none false d)).recomputeRouting d).lacksMember k c :=
  (State.forEach_keeps (P := fun t => t.lacksMember k c) h xs (fun _ _ ht => ht.serveWaitList none false d)).recomputeRouting d

/-- A conference without station k. -/
@[reducible] def Conference.without (k : Nat) (x : Conference) : Conference :=
  { x.dropMember (.station k) with waiting := x.waiting.filter (· != k) }

/-- Conference c without station k, with Member Gone. -/
@[reducible] def State.withoutMember (s : State) (k c : Nat) : State :=
  (s.modConference c (Conference.without k)).markConference c ConferenceReason.memberGone

/-- A station that is in no list of a conference leaves nothing; else its places are served (R111). -/
theorem State.stationLeaves_cases {P : State → Prop} {s : State} (k c : Nat) (b : Bool) (out : (∀ x, s.conference c = some x →
      x.lacks k) → P s) (served : ∀ u, u = s.withoutMember k c ∨ u = (s.withoutMember k c).conferenceChanged → ∀ gone : List Member,
      P ((u.forEach gone (fun t _ => t.serveWaitList none false c)).recomputeRouting c)) : P (s.stationLeaves k c b) := by
  unfold State.stationLeaves
  split
  · rename_i none
    exact out (fun x hx => absurd (none.symm.trans hx) nofun)
  · rename_i x hx
    dsimp only
    split
    · rename_i absent
      refine out (fun y hy => ?_)
      rw [hx] at hy
      cases hy
      simp only [Bool.and_eq_true, List.isEmpty_iff, Bool.not_eq_true', List.contains_eq_mem, decide_eq_false_iff_not] at absent
      obtain ⟨members, waiting⟩ := absent
      exact ⟨waiting, fun m hm hid => absurd (List.filter_eq_nil_iff.1 members m hm) (by simp [hid])⟩
    · split
      · exact served _ (.inr rfl) _
      · exact served _ (.inl rfl) _

theorem State.lacksMember.conferenceChanged {s : State} {k c : Nat} (h : s.lacksMember k c) : s.conferenceChanged.lacksMember k c := h

theorem State.lacksMember.ofLeaving {s u : State} {k c j d : Nat} (h : (s.withoutMember j d).lacksMember k c)
    (hu : u = s.withoutMember j d ∨ u = (s.withoutMember j d).conferenceChanged) : u.lacksMember k c := by
  rcases hu with rfl | rfl
  · exact h
  · exact h.conferenceChanged

theorem State.lacksMember.stationLeaves {s : State} {k c : Nat} (h : s.lacksMember k c) (j d : Nat) (b : Bool) :
    (s.stationLeaves j d b).lacksMember k c := by
  have left : (s.withoutMember j d).lacksMember k c := (h.modConference (Conference.without j)
    (fun _ _ hx => (hx.dropMember (.station j)).unwait j)).markConference d ConferenceReason.memberGone
  exact State.stationLeaves_cases (P := fun t => t.lacksMember k c) j d b (fun _ => h)
    (fun u hu gone => (left.ofLeaving hu).served gone d)

theorem Conference.without_lacks (k : Nat) (x : Conference) : (x.without k).lacks k := by
  refine ⟨fun hm => ?_, fun m hm => ?_⟩
  · simpa using (List.mem_filter.1 hm).2
  · simpa using (List.mem_filter.1 hm).2

/-- A station that has left its table is in no list of a conference that it has left (R111). -/
theorem State.stationLeaves_lacks {s : State} {k : Nat} (h : s.station k = none) (c : Nat) (b : Bool) :
    (s.stationLeaves k c b).lacksMember k c := by
  have removed : (s.modConference c (Conference.without k)).lacksMember k c := by
    refine ⟨h, fun y hy => ?_⟩
    change (s.conferences.modify c (Conference.without k)).get c = some y at hy
    rw [Table.get_modify_self] at hy
    obtain ⟨x, -, rfl⟩ := Option.map_eq_some_iff.1 hy
    exact x.without_lacks k
  have left : (s.withoutMember k c).lacksMember k c := removed.markConference c ConferenceReason.memberGone
  exact State.stationLeaves_cases (P := fun t => t.lacksMember k c) k c b (fun lacks => ⟨h, lacks⟩)
    (fun u hu gone => (left.ofLeaving hu).served gone c)

theorem State.stationLeavesAll_lacks {s : State} {k : Nat} (h : s.station k = none) (b : Bool) {c : Nat} (h1 : 1 ≤ c)
    (h24 : c ≤ 24) : (s.stationLeavesAll k b).lacksMember k c := by
  unfold State.stationLeavesAll
  exact State.forEach_reaches (P := fun t => t.station k = none) (Q := fun t => t.lacksMember k c)
    (mem_upTo.2 ⟨h1, h24⟩) (fun t d _ ht => (State.stationLeaves_lacks ht d b).1) (fun t ht => State.stationLeaves_lacks ht c b)
    (fun t d ht => ht.stationLeaves k d b) h

theorem State.lacksMember.unmapped {s : State} {k c : Nat} (h : s.lacksMember k c) (gs : Table Gallery) (x : StoreStates) :
    State.lacksMember { s with galleries := gs, storeStates := x } k c := h

theorem State.left_lacks {s : State} {k : Nat} (h : s.station k = none) (b : Bool) {c : Nat} (h1 : 1 ≤ c) (h24 : c ≤ 24) :
    (s.left k b).lacksMember k c := by
  obtain ⟨x, e⟩ := (s.stationLeavesAll k b).unmapStation_eq k b
  unfold State.left
  rw [e]
  exact ((State.stationLeavesAll_lacks h b h1 h24).unmapped _ x).partnersLeft k

end Sys2Proof.Machine
end

section
/-! The cues that a station was sourcing are released (R125). -/

namespace Sys2Proof.Machine

/-- A loop that visits an item once. -/
theorem State.forEach_once {α : Type} {P Q : State → Prop} {f : State → α → State} {xs : List α} (hn : xs.Nodup) {a : α}
    (ha : a ∈ xs) (before : ∀ t b, b ≠ a → P t → P (f t b)) (at_ : ∀ t, P t → Q (f t a))
    (after : ∀ t b, b ≠ a → Q t → Q (f t b)) {s : State} (h : P s) : Q (s.forEach xs f) := by
  induction xs generalizing s with
  | nil => exact absurd ha List.not_mem_nil
  | cons x xs ih =>
    obtain ⟨fresh, rest⟩ := List.nodup_cons.1 hn
    rw [State.forEach_cons]
    by_cases e : x = a
    · subst e
      have later : ∀ (ys : List α) (t : State), (∀ y ∈ ys, y ≠ x) → Q t → Q (t.forEach ys f) := by
        intro ys
        induction ys with
        | nil => exact fun _ _ ht => ht
        | cons y ys ihy =>
          intro t hy ht
          rw [State.forEach_cons]
          exact ihy _ (fun z hz => hy z (List.mem_cons_of_mem _ hz)) (after t y (hy y List.mem_cons_self) ht)
      exact later xs _ (fun y hy e => fresh (e ▸ hy)) (at_ s h)
    · exact ih rest ((List.mem_cons.1 ha).resolve_left (Ne.symm e)) (before s x e h)

/-- Station k no longer hears the station src, with Cue Source Gone (R125). -/
def State.unsource (src : Nat) (s : State) (k : Nat) : State :=
  match s.station k with
  | some x =>
    if k != src && holdsEntry x.stack (.station src) then
      (s.cueRelease k (.station src)).markStation k StationReason.cueSourceGone
    else s
  | none => s

theorem State.releaseSourced_eq (s : State) (src : Nat) : s.releaseSourced src = s.forEach (upTo 96) (State.unsource src) := rfl

section
variable {P : State → Prop}

/-- What a release at station i keeps: what the notices keep, when station i itself has no bearing on it. -/
theorem Telling.unsource (hc : Telling P) {i : Nat} (own : ∀ {t : State} (f : Station → Station), P t → P (t.modStation i f))
    {s : State} (h : P s) (src : Nat) : P (s.unsource src i) := by
  have set : ∀ st a, P (s.setStack i st a) := by
    intro st a
    have set := own (fun x => { x with stack := st, accept := a, cueRoute := currentSource st }) h
    unfold State.setStack
    split
    · exact h
    · have routed := fun c [Decidable c] => iteInduction (c := c) (motive := P) (fun _ => set) (fun _ => hc.hand set .cueRoute i)
      exact iteInduction (motive := P) (fun _ => routed _) (fun _ => hc.recomputeLamps (routed _) _)
  have released : P (s.cueRelease i (.station src)) := by
    unfold State.cueRelease
    split
    · exact h
    · split
      · exact set _ _
      · exact h
  unfold State.unsource
  split
  · split
    · exact hc.mark _ _ released
    · exact h
  · exact h

end

/-- What a release sets of a station. -/
def Station.hearing (x : Station) : List CueEntry × Bool × Option Source := (x.stack, x.accept, x.cueRoute)

/-- A release at another station leaves what does not bear on the notices. -/
theorem State.unsource_other {i j : Nat} (h : i ≠ j) {F : Station → Prop} (hb : ∀ x kd b, F x → F (x.withBase kd b))
    (hm : ∀ x r, F x → F { x with mark := addReason r x.mark }) (hl : ∀ x l, F x → F { x with lamp := l }) {s : State}
    (hs : ∃ z, s.station j = some z ∧ F z) (src : Nat) : ∃ z, (s.unsource src i).station j = some z ∧ F z := by
  refine Telling.unsource (Telling.ofStation j hb hm hl) (fun {t} f ht => ?_) hs src
  obtain ⟨z, hz, hF⟩ := ht
  exact ⟨z, by rw [State.station_modStation, if_neg (Ne.symm h), hz], hF⟩

/-- Station j hears by this stack, accept and route. -/
def State.hears (s : State) (j : Nat) (v : List CueEntry × Bool × Option Source) : Prop :=
  ∃ z, s.station j = some z ∧ z.hearing = v

theorem State.hears.unsource {s : State} {i j : Nat} {v : List CueEntry × Bool × Option Source} (hs : s.hears j v) (h : i ≠ j)
    (src : Nat) : (s.unsource src i).hears j v :=
  State.unsource_other h (F := fun x => x.hearing = v) (fun x kd _ hx => by cases kd <;> exact hx) (fun _ _ hx => hx)
    (fun _ _ hx => hx) hs src

theorem State.hears.unsourced {s : State} {j : Nat} {z : Station} (hs : s.hears j z.hearing) {src : Nat}
    (h : ∀ e ∈ z.stack, e.source ≠ .station src) (i : Nat) : (s.unsource src i).hears j z.hearing := by
  by_cases e : i = j
  · subst e
    obtain ⟨x, hx, same⟩ := hs
    have stack : x.stack = z.stack := (congrArg (·.1) same :)
    have kept : s.unsource src i = s := by
      unfold State.unsource
      rw [hx]
      dsimp only
      rw [stack, holdsEntry_eq_false.2 h, Bool.and_false, if_neg nofun]
    rw [kept]
    exact ⟨x, hx, same⟩
  · exact hs.unsource e src

theorem Station.afterRelease.congr {x y v : Station} {src : Source} (h : x.afterRelease src v) (hs : x.stack = y.stack)
    (ha : x.accept = y.accept) : y.afterRelease src v := by
  unfold Station.afterRelease at h ⊢
  rw [← hs, ← ha]
  exact h

theorem State.unsource_released {s : State} {j : Nat} {z : Station} (hs : s.hears j z.hearing) {src : Nat} (hj : j ≠ src)
    (h : ∃ e ∈ z.stack, e.source = .station src) :
    ∃ w, (s.unsource src j).station j = some w ∧ 23 ∈ w.mark ∧ z.afterRelease (.station src) w := by
  obtain ⟨x, hx, same⟩ := hs
  have stack : x.stack = z.stack := (congrArg (·.1) same :)
  have accept : x.accept = z.accept := (congrArg (·.2.1) same :)
  rw [← stack] at h
  obtain ⟨-, v, hv, -, after⟩ := State.cueRelease_leaves hx h
  refine ⟨{ v with mark := addReason StationReason.cueSourceGone v.mark }, ?_, mem_addReason_self _ _, after.congr stack accept⟩
  unfold State.unsource
  rw [hx]
  dsimp only
  rw [if_pos (Bool.and_eq_true_iff.2 ⟨bne_iff_ne.2 hj, holdsEntry_iff.2 h⟩)]
  exact State.station_markStation hv _

/-- What the release of its cues comes to at another station (R125). -/
theorem State.releaseSourced_hears {s : State} {src j : Nat} (hj : j ≠ src) {z : Station} (hz : s.hears j z.hearing) :
    ((∀ e ∈ z.stack, e.source ≠ .station src) → (s.releaseSourced src).hears j z.hearing) ∧
      (1 ≤ j → j ≤ 96 → (∃ e ∈ z.stack, e.source = .station src) →
        ∃ w, (s.releaseSourced src).station j = some w ∧ 23 ∈ w.mark ∧ z.afterRelease (.station src) w) := by
  rw [State.releaseSourced_eq]
  have unsourced : (∀ e ∈ z.stack, e.source ≠ .station src) → ∀ (t : State) (i : Nat), t.hears j z.hearing →
      (t.unsource src i).hears j z.hearing := fun h t i ht => ht.unsourced h i
  refine ⟨fun h => State.forEach_keeps hz _ (unsourced h), fun h1 h96 h => ?_⟩
  have other : ∀ (t : State) (i : Nat), i ≠ j → t.hears j z.hearing → (t.unsource src i).hears j z.hearing :=
    fun t i e ht => ht.unsource e src
  have after : ∀ (t : State) (i : Nat), i ≠ j → (∃ w, t.station j = some w ∧ 23 ∈ w.mark ∧ z.afterRelease (.station src) w) →
      ∃ w, (t.unsource src i).station j = some w ∧ 23 ∈ w.mark ∧ z.afterRelease (.station src) w := by
    intro t i e ht
    refine State.unsource_other (F := fun w => 23 ∈ w.mark ∧ z.afterRelease (.station src) w) e (fun x kd _ h => ?_)
      (fun x r h => ⟨mem_addReason_of_mem _ h.1, h.2⟩) (fun _ _ hx => hx) ht src
    cases kd <;> exact h
  exact State.forEach_once (upTo_nodup 96) (mem_upTo.2 ⟨h1, h96⟩) other (fun t ht => State.unsource_released ht hj h) after hz

end Sys2Proof.Machine
end

section
/-! RETIRE STATION (R74). -/

namespace Sys2Proof.Machine

theorem Calm.releaseSourced {P : State → Prop} (hc : Calm P) {s : State} (h : P s) (src : Nat) : P (s.releaseSourced src) := by
  refine State.forEach_keeps h _ (fun t k ht => ?_)
  split
  · split
    · exact hc.markStation (hc.cueRelease ht _ _) _ _
    · exact ht
  · exact ht

theorem State.releaseSourced_hushed (s : State) (src : Nat) : Hushed s (s.releaseSourced src) :=
  (Hushed.calm s).releaseSourced (Hushed.refl s) src

theorem Telling.galleries (s : State) : Telling (fun t => t.galleries = s.galleries) where
  hand := fun {t} h kd k => ((Quiet.soft t).hand (Quiet.refl t) kd k).1.galleries.trans h
  mark _ _ h := h
  lamp _ _ h := h
  modConference h := h

theorem State.left_gallery {s : State} (h : s.galleries.wf = true) (k g : Nat) (b : Bool) : (s.left k b).gallery g =
    (s.gallery g).map (fun x => if x.sources.contains (some k) then x.unmapped k else x) := by
  have first : (s.stationLeavesAll k b).galleries = s.galleries := State.forEach_keeps (P := fun t => t.galleries = s.galleries)
    rfl (upTo 24) (fun t c ht => (Telling.galleries s).stationLeaves (fun {t} ht => ht) ht k c b)
  obtain ⟨x, e⟩ := (s.stationLeavesAll k b).unmapStation_eq k b
  have last : ∀ t : State, (t.partnersLeft k).galleries = t.galleries := fun t =>
    (Telling.galleries t).recomputing.partnersLeft (fun j ht => (Telling.galleries t).recomputeLamp ht j) (fun _ ht => ht) rfl k
  unfold State.left State.gallery
  rw [last, e]
  dsimp only
  rw [State.unmapped_gallery (by rw [first]; exact h), State.gallery, first]

/-- A station but for its pair and what the notices set. -/
def Station.unpaired (x : Station) : Station := { x.core with pair := none }

theorem Station.core_of_unpaired {w z : Station} {p : Option Nat} (h : w.unpaired = z.unpaired) (hp : w.pair = p) :
    w.core = { z with pair := p : Station }.core := by
  have core := congrArg (fun y : Station => { y with pair := p }) h
  subst hp
  exact core

theorem State.left_unpaired (s : State) (k j : Nat) (b : Bool) :
    ((s.left k b).station j).map Station.unpaired = (s.station j).map Station.unpaired :=
  (Leaving.project Station.unpaired (fun _ kd _ => by cases kd <;> rfl) (fun _ _ => rfl) (fun _ _ => rfl) (fun _ _ _ => rfl) s).left
    (fun _ => rfl) k b j

theorem State.left_hearing (s : State) (k j : Nat) (b : Bool) :
    ((s.left k b).station j).map Station.hearing = (s.station j).map Station.hearing :=
  (Leaving.project Station.hearing (fun _ kd _ => by cases kd <;> rfl) (fun _ _ => rfl) (fun _ _ => rfl) (fun _ _ _ => rfl) s).left
    (fun _ => rfl) k b j

theorem State.left_pair {s : State} (h : s.stations.wf = true) (k j : Nat) (b : Bool) :
    ((s.left k b).station j).map Station.pair = (s.station j).map (fun x => if x.pair = some k then none else x.pair) := by
  have wf : (s.stationLeavesAll k b).stations.wf = true := Leaving.stationsWf.stationLeavesAll h k b
  have first : ((s.stationLeavesAll k b).station j).map Station.pair = (s.station j).map Station.pair :=
    State.stationsUntold.map (State.forEach_keeps (P := fun t => s.stationsUntold t) (State.stationsUntold.refl s) (upTo 24)
      (fun t c ht => (Telling.untold s).stationLeaves (fun {t} ht => ht) ht k c b)) (fun _ => rfl) j
  obtain ⟨x, e⟩ := (s.stationLeavesAll k b).unmapStation_eq k b
  unfold State.left
  rw [e, State.partnersLeft_pair]
  generalize s.stationLeavesAll k b = t at wf first
  change (t.station j).map (fun x => if j ∈ t.partners k then none else x.pair) = _
  cases hz : t.station j with
  | none =>
    rw [hz] at first
    rw [Option.map_eq_none_iff.1 first.symm]
    rfl
  | some y =>
    rw [hz] at first
    obtain ⟨z, hz', same⟩ := Option.map_eq_some_iff.1 first.symm
    rw [hz', Option.map_some, Option.map_some, same]
    simp only [State.mem_partners wf hz]

/-- What the relations of a station come to that has left its table (R44, R74, R86, R110, R111, R125): all but its carriers. -/
structure State.leaves (s t : State) (k : Nat) : Prop where
  slot : t.stations.slot k = none
  carriers : t.carriers = s.carriers
  galleries : ∀ g, t.gallery g = (s.gallery g).map (fun x => if x.sources.contains (some k) then x.unmapped k else x)
  cores : ∀ j z, s.station j = some z → ∃ w, t.station j = some w ∧
    w.core = { z with pair := if z.pair = some k then none else z.pair : Station }.core
  unheard : ∀ j z, j ≠ k → s.station j = some z → (∀ e ∈ z.stack, e.source ≠ .station k) → t.hears j z.hearing
  heard : ∀ j z, j ≠ k → 1 ≤ j → j ≤ 96 → s.station j = some z → (∃ e ∈ z.stack, e.source = .station k) →
    ∃ w, t.station j = some w ∧ 23 ∈ w.mark ∧ z.afterRelease (.station k) w
  finals : s.finalsStand t
  conferences : ∀ c, 1 ≤ c → c ≤ 24 → t.lacksMember k c
  beside : s.besideGalleries t

theorem State.left_leaves {s : State} {k : Nat} (hk : s.stations.slot k = none) (hs : s.stations.wf = true)
    (hg : s.galleries.wf = true) (b : Bool) : s.leaves ((s.left k b).releaseSourced k) k := by
  have hushed := (s.left k b).releaseSourced_hushed k
  have gone : s.station k = none := by
    unfold State.station Table.get
    rw [hk]
  have hears : ∀ j z, s.station j = some z → (s.left k b).hears j z.hearing := by
    intro j z hz
    have kept := s.left_hearing k j b
    rw [hz] at kept
    exact Option.map_eq_some_iff.1 kept
  exact {
    slot := (Cueing.slot k).releaseSourced ((Leaving.slot k).left hk k b) k
    carriers := hushed.quiet.2.1.trans ((Leaving.carriers s).left rfl k b)
    galleries := fun g => (congrArg (Table.get · g) hushed.quiet.1.galleries).trans (State.left_gallery hg k g b)
    cores := by
      intro j z hz
      have unpaired := s.left_unpaired k j b
      have pair := State.left_pair hs k j b
      rw [hz] at unpaired pair
      obtain ⟨v, hv, same⟩ := Option.map_eq_some_iff.1 unpaired
      rw [hv] at pair
      obtain ⟨w, hw, core⟩ := hushed.core hv
      exact ⟨w, hw, core.trans (Station.core_of_unpaired same (Option.some.inj pair))⟩
    unheard := fun j z hj hz h => (State.releaseSourced_hears hj (hears j z hz)).1 h
    heard := fun j z hj h1 h96 hz h => (State.releaseSourced_hears hj (hears j z hz)).2 h1 h96 h
    finals := (Cueing.finalsStand s).releaseSourced ((Leaving.finalsStand s).left (State.finalsStand.refl s) k b) k
    conferences := by
      intro c h1 h24
      obtain ⟨none, lacks⟩ := State.left_lacks gone b h1 h24
      refine ⟨?_, fun x hx => lacks x ?_⟩
      · have core := hushed.quiet.2.2 k
        rw [none] at core
        exact Option.map_eq_none_iff.1 core
      · exact (congrArg (Table.get · c) hushed.conferences).symm.trans hx
    beside := ((Leaving.beside s).left (State.besideGalleries.refl s) k b).only hushed.quiet.1 }

/-- The state in which a retired station has left its table and handed over its final deliveries. -/
@[reducible] def State.departed (s : State) (k : Nat) (gs : List Final) (x : StoreStates) : State :=
  { s with stations := s.stations.erase k, finals := gs, carriers := s.carriersWithout k, storeStates := x }

theorem State.retire_eq {s : State} {k : Nat} {x : Station} (hx : s.station k = some x) : ∃ gs y,
    State.takeOverAll { s with stations := s.stations.erase k } (x.finals k) false =
      { s with stations := s.stations.erase k, finals := gs } ∧
    s.retire k = ((s.departed k gs y).left k true).releaseSourced k := by
  obtain ⟨gs, frame⟩ := State.takeOverAll_frame { s with stations := s.stations.erase k } (x.finals k)
  obtain ⟨y, gone⟩ := State.stationGone_eq { s with stations := s.stations.erase k, finals := gs } k true
  refine ⟨gs, y, frame, ?_⟩
  have retired : s.retire k = (State.takeOverAll { s with stations := s.stations.erase k } (x.finals k) false).stationRelations k
      true := by
    unfold State.retire
    rw [hx]
    rfl
  rw [retired, frame, State.stationRelations_eq, gone]
  rfl

theorem State.retire_none {s : State} {k : Nat} (hx : s.station k = none) :
    s.retire k = { s with stations := s.stations.erase k } := by
  unfold State.retire
  rw [hx]

theorem exec_retireStation {s : State} {o : Order} (ha : s.admits o .station) (h1 : 1 ≤ keyOf o) (h96 : keyOf o ≤ 96)
    (hp : o.params = []) (hslot : (s.stations.slot (keyOf o)).isSome = true)
    (hclaim : claimFree o ((s.station (keyOf o)).bind Station.claim))
    (hlink : ∀ x, s.station (keyOf o) = some x → x.link = .parked ∧ (x.tally ≠ .live ∨ s.forced o = true)) :
    exec (.retireStation o) s = .next (((s.begun o).retire (keyOf o)).stationChanged.answer (doneReply o)) := by
  have accepted : s.retireStation o = ((s.begun o).retire (keyOf o)).stationChanged.answer (doneReply o) := by
    unfold State.retireStation
    dsimp only
    rw [State.takeOrder_accept ha.1 (length_of_noParams hp) (by simp [hp])]
    refine passes_append (passes_append (passes_cons (State.lacks_fst ha.2.1 4) (passes_cons ?_ (passes_cons (claimHold_fst hclaim)
      firstFailing_nil))) (State.passes_holds ha.2.2)) ?_
    · obtain ⟨x, hx⟩ := Option.isSome_iff_exists.1 hslot
      simp [stationKey, h1, h96, hx]
    · cases hx : s.station (keyOf o) with
      | none => simp [State.airHold]
      | some x =>
        obtain ⟨link, tally⟩ := hlink x hx
        rcases tally with h | h <;> simp [State.airHold, link, h]
  exact congrArg Host.Outcome.next accepted

end Sys2Proof.Machine

namespace Sys2Proof
open Machine

/-- Settles O28. -/
theorem retireStation : Obligations.RetireStation := by
  refine fun o s ha h1 h96 hp => ⟨fun x hwf hx hclaim hlink htally => ?_, fun m hm => ?_⟩
  · obtain ⟨-, carriersWf, stationsWf, galleriesWf, -⟩ := hwf
    have taken := exec_retireStation ha h1 h96 hp (Table.slot_isSome_of_get hx) (by rw [hx]; exact hclaim)
      (fun y hy => by rw [hx] at hy; cases hy; exact ⟨hlink, htally⟩)
    obtain ⟨gs, y, handed, retired⟩ := State.retire_eq (s := s.begun o) hx
    have tune : ∀ a, x.controlUnit = some a → s.deliveryCode .tune (keyOf o) ≠ some 0 →
        State.holdsFinal ((s.begun o).departed (keyOf o) gs y) (x.finalTune (keyOf o) a) := by
      intro a hu hc
      have holds := State.retired_tune (s := s.begun o) hx hu hc
      rw [handed] at holds
      exact holds
    have route : x.kind.hasCue = true → s.deliveryCode .cueRoute (keyOf o) ≠ some 0 →
        State.holdsFinal ((s.begun o).departed (keyOf o) gs y) (x.finalRoute (keyOf o)) := by
      intro hu hc
      have holds := State.retired_route (s := s.begun o) hx hu hc
      rw [handed] at holds
      exact holds
    have away : ∀ j, j ≠ keyOf o → ((s.begun o).departed (keyOf o) gs y).station j = s.station j := fun j hj =>
      (Table.get_erase _ _ _).trans (if_neg hj)
    have leaves : ((s.begun o).departed (keyOf o) gs y).leaves ((s.begun o).retire (keyOf o)) (keyOf o) := by
      rw [retired]
      exact State.left_leaves (s := (s.begun o).departed (keyOf o) gs y) ((Table.slot_erase _ _ _).trans (if_pos rfl))
        (Table.wf_erase (t := s.stations) stationsWf (keyOf o)) galleriesWf true
    generalize (s.begun o).retire (keyOf o) = t at taken leaves
    obtain ⟨windows, settings, checkQueue, engine, machine⟩ := leaves.beside
    refine ⟨_, taken, leaves.slot, fun c z hz => ?_, fun g z hz => ?_, fun j z hj hz => ?_, fun a hu hc hd => ?_,
      fun hk hc hd => ?_, fun c z h1 h24 hz => (leaves.conferences c h1 h24).2 z hz, windows, settings, checkQueue, engine, ?_,
      rfl, rfl⟩
    · refine (congrArg (Table.get · c) leaves.carriers).trans ((State.carriersWithout_get carriersWf (keyOf o) c).trans ?_)
      rw [hz, Option.map_some]
      simp only [Carrier.meant, Bool.or_eq_true, decide_eq_true_eq]
    · refine (leaves.galleries g).trans ?_
      rw [show ((s.begun o).departed (keyOf o) gs y).gallery g = some z from hz, Option.map_some]
      simp only [List.contains_eq_mem, decide_eq_true_eq]
    · obtain ⟨w, hw, core⟩ := leaves.cores j z ((away j hj).trans hz)
      refine ⟨w, hw, core, fun none => ?_, fun h1 h96 some => ?_⟩
      · obtain ⟨v, hv, same⟩ := leaves.unheard j z hj ((away j hj).trans hz) none
        rw [hw] at hv
        cases hv
        exact ⟨(congrArg (·.1) same :), (congrArg (·.2.1) same :)⟩
      · obtain ⟨v, hv, heard⟩ := leaves.heard j z hj h1 h96 ((away j hj).trans hz) some
        rw [hw] at hv
        cases hv
        exact heard
    · refine (tune a hu hc).stands (fun h => hd ?_) leaves.finals
      obtain ⟨v, hv, e⟩ := Option.map_eq_some_iff.1 h
      rw [hv, Content.tune.inj e]
    · have cue : x.kind.hasCue = true := by rcases hk with h | h <;> rw [h] <;> rfl
      refine (route cue hc).stands (fun h => hd ?_) leaves.finals
      obtain ⟨v, hv, e⟩ := Option.map_eq_some_iff.1 h
      rw [hv, Content.cueRoute.inj e]
    · cases machine
      constructor <;> assumption
  · have hx : s.station (keyOf o) = none := by
      unfold State.station Table.get
      rw [hm]
    rw [exec_retireStation ha h1 h96 hp (by rw [hm]; rfl) (by simp [hx, claimFree]) (by simp [hx]),
      State.retire_none (s := s.begun o) hx]
    rfl

end Sys2Proof
end

section
/-! The laws of the committed set and a quarantine that ends while a load is under way (R46, R177, R181). -/

namespace Sys2Proof.Machine

/-- A carrier at 20,000 in window 1. -/
def rival (state : CarrierState) : Carrier := { Carrier.blank with frequency := 20000, window := some 1, state := state }

/-- Operator 2 is under quarantine while RELOAD PLAN loads; carrier 3 is damaged, and carrier 2, under the engine, is at the
frequency of the Cleared carrier 1. -/
def midReload : State :=
  { State.reset with
    service := .faultHandling
    load := .reloading 0 []
    snapshot := some ⟨⟨.operator, 2⟩, 0⟩
    badCodes := [⟨.operator, 2⟩, ⟨.carrier, 3⟩]
    windows := ⟨[(1, .held { Window.blank with state := .opened, enabled := true })]⟩
    carriers := ⟨[(1, .held (rival .cleared)), (2, .held (rival .checking)), (3, .held Carrier.blank)]⟩
    engine := some ⟨2, none⟩
    pending := [.quarantine] }

theorem midReload_carrier {c : Nat} {y : Carrier} (h : midReload.carrier c = some y) :
    (c = 1 ∧ y = rival .cleared) ∨ (c = 2 ∧ y = rival .checking) ∨ (c = 3 ∧ y = Carrier.blank) := by
  have listed := (Table.mem_records (t := midReload.carriers) (by decide) c y).2 h
  simpa [midReload, Table.records] using listed

theorem midReload_unstationed (k : Nat) : midReload.station k = none := rfl

theorem midReload_inv : midReload.Inv := by
  unfold State.Inv State.queuesFit State.fixedRecords
  decide +kernel

theorem midReload_slotsMatch : midReload.slotsMatch := by
  refine ⟨fun k x role c h => absurd h nofun, fun c y h _ => ?_⟩
  rcases midReload_carrier h with ⟨-, rfl⟩ | ⟨-, rfl⟩ | ⟨-, rfl⟩ <;> exact ⟨nofun, nofun, nofun, nofun⟩

theorem midReload_checksMatch : midReload.checksMatch := by
  refine ⟨List.nodup_nil, fun c h => absurd h List.not_mem_nil, fun k h => ?_, fun c y h => ?_⟩
  · cases h
    exact ⟨rival .checking, rfl, rfl, rfl⟩
  · rcases midReload_carrier h with ⟨-, rfl⟩ | ⟨rfl, rfl⟩ | ⟨-, rfl⟩
    · exact ⟨nofun, nofun⟩
    · exact ⟨nofun, fun _ => .inr (.inl rfl)⟩
    · exact ⟨nofun, nofun⟩

theorem midReload_recordLaws : midReload.recordLaws := fun _ =>
  ⟨fun _ _ _ h => absurd h nofun, midReload_slotsMatch, midReload_checksMatch, fun _ _ _ _ h => absurd h nofun,
    fun _ _ h => absurd h nofun⟩

/-- Carrier 1 alone is committed. -/
theorem midReload_committed {c : Nat} {y : Carrier} (h : midReload.carrier c = some y) (hy : y.state.committed = true) :
    c = 1 ∧ y = rival .cleared := by
  rcases midReload_carrier h with e | ⟨-, rfl⟩ | ⟨-, rfl⟩
  · exact e
  · cases hy
  · cases hy

theorem midReload_committedLaws : midReload.committedLaws := fun _ => by
  refine ⟨⟨fun a b y z ne ha hb ca cb => ?_, fun a b c x y z ne _ _ ha hb _ ca cb => ?_⟩, fun c y h hc => ?_, nofun⟩
  · exact absurd ((midReload_committed ha ca).1.trans (midReload_committed hb cb).1.symm) ne
  · exact absurd ((midReload_committed ha ca).1.trans (midReload_committed hb cb).1.symm) ne
  · obtain ⟨rfl, rfl⟩ := midReload_committed h hc
    exact ⟨1, _, rfl, rfl, by decide⟩

/-- The quarantine ends: the engine begins the check of carrier 2 afresh, finds carrier 3 damaged among those that it would
read, and so has no result; the read of the check that would meet the damage is not made while the tables are down. -/
theorem midReload_quarantined : ∃ t, step midReload = .next t ∧ t.service = .inService ∧ t.engine = some ⟨2, none⟩ ∧
    t.carrier 1 = some (rival .cleared) ∧ t.carrier 2 = some (rival .checking) ∧ t.settings.spacingGuard = 4 := by
  have leaves : (match step midReload with
    | .next t => decide (t.service = .inService ∧ t.engine = some ⟨2, none⟩ ∧ t.carrier 1 = some (rival .cleared) ∧
      t.carrier 2 = some (rival .checking) ∧ t.settings.spacingGuard = 4)
    | _ => false) = true := by decide +kernel
  split at leaves
  · exact ⟨_, by assumption, of_decide_eq_true leaves⟩
  · cases leaves

end Sys2Proof.Machine

namespace Sys2Proof
open Machine

/-- Refutes O6, its clause of the committed set: a state is in Fault Handling while the load of RELOAD PLAN is under way, with
a second damaged record, a carrier that names nothing. At the end of the quarantine the engine takes its candidate again
(R46) without the read of its check, since the tables are down: it is left with no finding in In Service, though it stands at
the frequency of a committed carrier. -/
theorem not_stepKeepsListsFit : ¬ Obligations.StepKeepsListsFit := by
  intro ⟨_, _, h⟩
  obtain ⟨t, stepped, service, engine, first, second, guard⟩ := midReload_quarantined
  have laws := h midReload t midReload_inv midReload_recordLaws midReload_committedLaws stepped (by rw [service]; nofun)
  have apart := (laws.2.2 2 service engine).1 1 2 _ _ (by decide) first second (.inl rfl) (.inr rfl)
  unfold State.spaced at apart
  rw [guard] at apart
  revert apart
  decide

end Sys2Proof
end

section
/-! Damage that an order finds at its target (R180, R181). -/

namespace Sys2Proof.Machine

/-! ## What an order reads -/

theorem State.orderReads_target {s : State} {o : Order} {targets : List RecordId} {r : RecordId} (h : r ∈ targets) :
    s.orderReads o targets r = true := by
  simp [State.orderReads, State.around, State.near, h]

/-- A command is the taking of an order that reads the record at which it is aimed. -/
def aimedAs (c : Instr) (o : Order) (s : State) : Prop :=
  ∃ reads tests accept,
    exec c s = .next (s.gate o (Activity.order (orderVerb c).1 (orderVerb c).2)
      (countTakes (orderVerb c).1.selector (orderVerb c).2 o.params.length) s.serviceDetail reads tests accept) ∧
    reads ⟨(orderVerb c).1, keyOf o⟩ = true

section
variable {c : Instr} {o : Order} {s : State} {count : Bool} {reads : RecordId → Bool} {tests : List Check1}
  {effect : State → State × Reply}

theorem aimedAs_takeOrderWith {more : State → RecordId → Bool}
    (he : exec c s = .next (s.takeOrderWith o (Activity.order (orderVerb c).1 (orderVerb c).2) count reads tests more effect))
    (hc : count = countTakes (orderVerb c).1.selector (orderVerb c).2 o.params.length)
    (hr : reads ⟨(orderVerb c).1, keyOf o⟩ = true) : aimedAs c o s := by
  subst hc
  exact ⟨_, _, _, he, hr⟩

theorem aimedAs_takeOrder
    (he : exec c s = .next (s.takeOrder o (Activity.order (orderVerb c).1 (orderVerb c).2) count reads tests effect))
    (hc : count = countTakes (orderVerb c).1.selector (orderVerb c).2 o.params.length)
    (hr : reads ⟨(orderVerb c).1, keyOf o⟩ = true) : aimedAs c o s := aimedAs_takeOrderWith he hc hr

end

theorem aimedAs_read (t : TableId) (o : Order) (s : State) (h : t.plainRead = true) : aimedAs (.read t o) o s := by
  cases t with
  | conference => cases h
  | part => cases h
  | _ => exact aimedAs_takeOrder rfl rfl (decide_eq_true rfl)

theorem aimedAs_claim (t : TableId) (o : Order) (s : State) (h : t.claimable = true) : aimedAs (.claim t o) o s := by
  have hc : hasClaims t = true := by cases t <;> first | rfl | cases h
  refine aimedAs_takeOrder (by simp only [exec, execClaim, State.claimRecord, hc, if_true]; rfl) ?_ ?_
  · cases t <;> rfl
  · simp [orderVerb]

theorem aimedAs_release (t : TableId) (o : Order) (s : State) (h : t.claimable = true) : aimedAs (.release t o) o s := by
  have hc : hasClaims t = true := by cases t <;> first | rfl | cases h
  refine aimedAs_takeOrder (by simp only [exec, execRelease, State.releaseRecord, hc, if_true]; rfl) ?_ ?_
  · cases t <;> rfl
  · simp [orderVerb]

/-- An order on a record reads that record; NEXT MARKED and the orders on the Part record apart. -/
theorem aimedAs_order {c : Instr} {o : Order} (h : orderIn c = some o) (hn : ∀ t, c ≠ .nextMarked t o)
    (hp : (orderVerb c).1 ≠ .part) (s : State) : aimedAs c o s := by
  cases c with
  | read t p =>
    simp only [orderIn, Option.ite_none_right_eq_some, Option.some.injEq] at h
    obtain ⟨ht, rfl⟩ := h
    exact aimedAs_read t p s ht
  | claim t p =>
    simp only [orderIn, Option.ite_none_right_eq_some, Option.some.injEq] at h
    obtain ⟨ht, rfl⟩ := h
    exact aimedAs_claim t p s ht
  | release t p =>
    simp only [orderIn, Option.ite_none_right_eq_some, Option.some.injEq] at h
    obtain ⟨ht, rfl⟩ := h
    exact aimedAs_release t p s ht
  | nextMarked t p =>
    simp only [orderIn, Option.ite_none_right_eq_some, Option.some.injEq] at h
    exact absurd (h.2 ▸ rfl) (hn t)
  | readPart p | reloadPlan p | restart p | savePlan p ack | storeRead p ack | storeWrite p ack | setCue p | setCoordination p
  | setLink p | setClock p | setMatrixUnit p | freezePlan p | thawPlan p | readAttention p => exact absurd rfl hp
  | defineWindow p | defineStation p | defineConference p | defineOperator p =>
    cases h
    exact aimedAs_takeOrder rfl (evenCount_zero _ _) (State.orderReads_target List.mem_cons_self)
  | defineCarrier p | defineGallery p =>
    cases h
    exact aimedAs_takeOrder rfl (evenCount_zero _ _)
      (Bool.or_eq_true_iff.2 (.inl (State.orderReads_target List.mem_cons_self)))
  | editStation p | editConference p | editOperator p =>
    cases h
    exact aimedAs_takeOrder rfl rfl (State.orderReads_target List.mem_cons_self)
  | editWindow p | editGallery p =>
    cases h
    exact aimedAs_takeOrder rfl rfl (Bool.or_eq_true_iff.2 (.inl (State.orderReads_target List.mem_cons_self)))
  | editCarrier p =>
    cases h
    exact aimedAs_takeOrderWith rfl rfl (Bool.or_eq_true_iff.2 (.inl (State.orderReads_target List.mem_cons_self)))
  | checkCarrier p | cancelCheck p =>
    cases h
    exact aimedAs_takeOrderWith rfl rfl (State.orderReads_target List.mem_cons_self)
  | retireCarrier p | blockCarrier p | unblockCarrier p | retireStation p | goLive p | park p | swap p | callStation p
  | clearCall p | clearCues p | retireGallery p | retireConference p | retireOperator p | forgetUnit p =>
    cases h
    exact aimedAs_takeOrder rfl rfl (State.orderReads_target List.mem_cons_self)
  | retireWindow p =>
    cases h
    exact aimedAs_takeOrder rfl rfl (Bool.or_eq_true_iff.2 (.inl (State.orderReads_target List.mem_cons_self)))
  | lineReset p =>
    cases h
    exact aimedAs_takeOrder rfl rfl rfl
  | releaseAll p =>
    cases h
    exact aimedAs_takeOrder rfl rfl (by simp [orderVerb])
  | readConference p =>
    cases h
    exact aimedAs_takeOrder rfl rfl (by simp [orderVerb])
  | addMember p | setCueAccept p | bindStation p | unbindStation p | cue p =>
    cases h
    exact aimedAs_takeOrder rfl (between_self _ _).symm (State.orderReads_target List.mem_cons_self)
  | removeMember p =>
    cases h
    exact aimedAs_takeOrder rfl (between_self _ _).symm
      (Bool.or_eq_true_iff.2 (.inl (State.orderReads_target List.mem_cons_self)))
  | _ => cases h

/-! ## The order that finds the damage -/

theorem actionCounts_le {table verb lo hi : Nat} (h : actionCounts.lookup (table, verb) = some (lo, hi)) : hi ≤ 16 := by
  have all : ∀ p ∈ actionCounts, p.2.2 ≤ 16 := by decide
  obtain ⟨l, r, e, -⟩ := List.lookup_eq_some_iff.1 h
  exact all ((table, verb), lo, hi) (e ▸ List.mem_append_right _ List.mem_cons_self)

theorem countTakes_le {table verb n : Nat} (h : countTakes table verb n = true) : n ≤ 16 := by
  unfold countTakes at h
  split at h
  · simp only [Bool.and_eq_true, decide_eq_true_eq] at h
    split at h <;> omega
  · split at h
    · simp only [Bool.and_eq_true, decide_eq_true_eq] at h
      split at h <;> omega
    · split at h
      · split at h <;> simp only [decide_eq_true_eq] at h <;> omega
      · split at h
        · rename_i hi found
          simp only [Bool.and_eq_true, decide_eq_true_eq] at h
          exact h.2.trans (actionCounts_le found)
        · simp only [decide_eq_true_eq] at h
          omega

/-- A record that is damaged, held, not under quarantine and read is the one that a read finds, where no other is damaged. -/
theorem State.firstBad_alone {s : State} {r : RecordId} {reads : RecordId → Bool} (hs : s.service ≠ .halted)
    (hb : s.badCodes = [r]) (hh : s.holdsRecord r = true) (hq : s.quarantined ≠ some r) (hr : reads r = true) :
    s.firstBad reads = some r := by
  simp [State.firstBad, hs, hb, hh, hq, hr]

/-- The fault that an order begins, answered (R181). -/
theorem State.beginFault_process (s : State) (o : Order) (n : Nat) (r : RecordId) (a : Nat) :
    ∃ t, ((s.clockZeros n).process o).beginFault r a = t ∧ t = { s with
      miso := List.replicate n 0#8
      service := .faultHandling
      load := .none
      snapshot := some ⟨r, a⟩
      latched := { s.latched with fault := true }
      port := .pending ⟨.notInService, 2, o.key, []⟩
      savePlace := t.savePlace
      saveWritten := t.saveWritten
      draws := t.draws } ∧
      (s.saving = false → t.savePlace = s.savePlace ∧ t.saveWritten = s.saveWritten ∧ t.draws = s.draws) := by
  refine ⟨_, rfl, ?_, fun hs => ?_⟩
  · obtain ⟨p, ws, d, e⟩ := ((s.clockZeros n).process o).saveGoesOn_frame
    unfold State.beginFault
    rw [e]
    rfl
  · have still : ((s.clockZeros n).process o).saveGoesOn = (s.clockZeros n).process o := 
      if_neg (fun h => Bool.false_ne_true (hs.symm.trans h))
    unfold State.beginFault
    rw [still]
    exact ⟨rfl, rfl, rfl⟩

theorem State.gate_damaged {s : State} {o : Order} {r : RecordId} {reads : RecordId → Bool} (hl : o.params.length ≤ 16)
    (hs : s.service = .inService) (hp : s.port = .idle) (hd : s.load = .none ∨ ∃ k, s.load = .reloadWaiting k)
    (hr : r.table ≠ .part) (hb : s.badCodes = [r]) (hh : s.holdsRecord r = true) (reading : reads r = true) (a : Nat)
    (tests : List Check1) (accept : State → State) : s.gate o a true s.serviceDetail reads tests accept =
      ((s.clockZeros (9 + 2 * o.params.length)).process o).beginFault r a := by
  have begun : ((s.clockZeros (9 + 2 * o.params.length)).process o).service = .inService := hs
  have found : ((s.clockZeros (9 + 2 * o.params.length)).process o).firstBad reads = some r :=
    State.firstBad_alone (by rw [begun]; nofun) hb (by cases r; exact hh)
      (by rw [State.quarantined_service (by rw [begun]; nofun)]; nofun) reading
  have stands : ((s.clockZeros (9 + 2 * o.params.length)).process o).tablesDown = false := by
    change s.tablesDown = false
    unfold State.tablesDown
    rcases hd with h | ⟨k, h⟩ <;> rw [h]
  have serves : s.serviceDetail = none := by
    unfold State.serviceDetail
    rw [hs]
  rw [serves]
  simp only [State.gate, hp, Nat.not_lt.2 hl, if_false, Bool.not_true, Bool.false_eq_true, State.reading, found]
  exact State.checkFailure_inService hr begun stands a

/-! ## A damaged Part record -/

theorem State.quarantined_ne_part (s : State) (k : Nat) : s.quarantined ≠ some ⟨.part, k⟩ := by
  unfold State.quarantined
  split
  · rename_i x _ _
    by_cases hx : x.record.table = .part
    · simp [hx]
    · split
      · intro h
        exact hx (congrArg RecordId.table (Option.some.inj h))
      · exact nofun
  · exact nofun

theorem State.firstBad_part {s : State} (hs : s.service ≠ .halted) (hb : s.badCodes = [⟨.part, 0⟩]) {reads : RecordId → Bool}
    (hr : reads ⟨.part, 0⟩ = true) : s.firstBad reads = some ⟨.part, 0⟩ :=
  State.firstBad_alone hs hb rfl (s.quarantined_ne_part 0) hr

/-- The halt that an order which is not saving meets (R183). -/
theorem State.halt_unsaved {s : State} (h : s.saving = false) (r : RecordId) (a : Nat) : s.halt r a =
    State.latchFault (State.answerBroken
      { s with service := .halted, load := .none, line := none, snapshot := s.haltSnapshot ⟨r, a⟩ } 3) := by
  have still : (if s.saving then s.abandonSave.saveLost else s) = s := if_neg (fun e => Bool.false_ne_true (h.symm.trans e))
  unfold State.halt
  rw [still]

theorem State.halt_process {s : State} (h : s.saving = false) (o : Order) (n : Nat) (r : RecordId) (a : Nat) :
    ((s.clockZeros n).process o).halt r a = { s with
      miso := List.replicate n 0#8
      service := .halted
      load := .none
      line := none
      snapshot := s.haltSnapshot ⟨r, a⟩
      latched := { s.latched with fault := true }
      port := .pending ⟨.notInService, 3, o.key, []⟩ } := State.halt_unsaved (s := (s.clockZeros n).process o) h r a

theorem State.readAttention_damaged {s : State} {o : Order} (hs : s.service = .inService) (hp : s.port = .idle)
    (hl : o.params.length ≤ 1) (hb : s.badCodes = [⟨.part, 0⟩]) :
    s.readAttention o = ((s.clockZeros (9 + 2 * o.params.length)).process o).halt ⟨.part, 0⟩ (Activity.order .part 23) := by
  have found : ((s.clockZeros (9 + 2 * o.params.length)).process o).firstBad (fun r => r = ⟨.part, 0⟩) = some ⟨.part, 0⟩ :=
    State.firstBad_part (fun h => absurd (hs.symm.trans h) nofun) hb rfl
  have serves : s.serviceDetail = none := by
    unfold State.serviceDetail
    rw [hs]
  have short : ¬ 16 < o.params.length := by omega
  simp only [State.readAttention, State.takeOrder, State.takeOrderWith, State.gate, hp, short, if_false, hl, decide_true,
    Bool.not_true, Bool.false_eq_true, serves, State.reading, found]
  rfl

theorem wordsFrom_numbered (ws : List Word) (h : ws.length ≤ 40) : wordsFrom (numbered 1 ws) [] = ws := by
  have all : (numbered 1 ws).filter (fun f => (startField ([] : List Word)).getD 0 ≤ f.1) = numbered 1 ws :=
    List.filter_eq_self.2 (fun f _ => decide_eq_true (Nat.zero_le _))
  have words : (numbered 1 ws).map (·.2) = ws := by
    unfold numbered
    rw [List.map_map]
    exact List.zipIdx_map_fst 0 ws
  unfold wordsFrom
  rw [all, words, List.take_of_length_le h]

/-- READ PART finds the Part record damaged, and is answered all the same (R180, R183). -/
theorem State.readPart_damaged {s : State} {o : Order} (hp : s.port = .idle) (hps : o.params = [])
    (hb : ⟨.part, 0⟩ ∈ s.badCodes) : s.readPart o =
      (let u := State.halt { s with miso := List.replicate 9 0#8, port := .idle } ⟨.part, 0⟩ (Activity.order .part 4)
      u.answer (doneWith o (wordsFrom u.partFields []))) := by
  have bad : State.partBad ((s.clockZeros (9 + 2 * o.params.length)).process o) = true := List.contains_iff_mem.2 hb
  have unread : ((s.clockZeros (9 + 2 * o.params.length)).process o).firstBad (fun _ => false) = none :=
    State.firstBad_none nofun
  have start : badStart s.partFields ([] : List Word) = false := rfl
  rw [hps, List.length_nil] at bad unread
  simp only [State.readPart, State.gate, hp, hps, List.length_nil, Nat.not_lt_zero, if_false, Nat.zero_le, decide_true,
    Bool.not_true, Bool.false_eq_true, State.reading, unread, start, failIf, firstFailing, bad, if_true]
  rfl

/-- The fields of a halted part whose Part record is damaged. -/
theorem State.partFields_halted {s : State} (hb : ⟨.part, 0⟩ ∈ s.badCodes) (hs : s.service = .halted) :
    wordsFrom s.partFields [] = [3#16, wordOf s.startCode] ++ List.replicate 33 0xFFFF#16 ++
      [wordOfOption (s.snapshot.map (fun x => x.record.table.selector)),
        wordOfOption (s.snapshot.map (fun x => x.record.key)), wordOfOption (s.snapshot.map Snapshot.activity)] := by
  have bad : s.partBad = true := List.contains_iff_mem.2 hb
  unfold State.partFields
  rw [bad, if_pos rfl, hs]
  exact wordsFrom_numbered _ (by simp)

theorem State.haltSnapshot_new {s : State} (h : s.service = .starting ∨ s.service = .inService ∨
    (s.service = .halted ∧ s.startCode = 6)) (found : Snapshot) : s.haltSnapshot found = some found := by
  unfold State.haltSnapshot
  rcases h with h | h | ⟨h, code⟩ <;> rw [h]
  exact if_pos code

theorem State.haltSnapshot_kept {s : State} (h : s.service = .faultHandling) (found : Snapshot) :
    s.haltSnapshot found = s.snapshot := by
  unfold State.haltSnapshot
  rw [h]

/-- The part that a READ PART halts (R183). -/
theorem State.readPart_halts {s : State} {o : Order} (hp : s.port = .idle) (hps : o.params = [])
    (hb : ⟨.part, 0⟩ ∈ s.badCodes) (hsave : s.saving = false) :
    let found := s.haltSnapshot ⟨⟨.part, 0⟩, Activity.order .part 4⟩
    s.readPart o = { s with
      miso := List.replicate 9 0#8
      service := .halted
      load := .none
      line := none
      snapshot := found
      latched := { s.latched with fault := true }
      port := .pending ⟨.done, 0, o.key, [3#16, wordOf s.startCode] ++ List.replicate 33 0xFFFF#16 ++
        [wordOfOption (found.map (fun x => x.record.table.selector)), wordOfOption (found.map (fun x => x.record.key)),
          wordOfOption (found.map Snapshot.activity)]⟩ } := by
  intro found
  rw [State.readPart_damaged hp hps hb,
    State.halt_unsaved (s := { s with miso := List.replicate 9 0#8, port := .idle }) hsave]
  have fields := State.partFields_halted (s := { s with
    miso := List.replicate 9 0#8
    service := .halted
    load := .none
    line := none
    snapshot := found
    latched := { s.latched with fault := true }
    port := .idle }) hb rfl
  exact congrArg (fun ws => ({ s with
    miso := List.replicate 9 0#8
    service := .halted
    load := .none
    line := none
    snapshot := found
    latched := { s.latched with fault := true } }).answer (doneWith o ws)) fields

end Sys2Proof.Machine
end

section
/-! What the work of the blocks is made of: changes of single records, deliveries decided, entries removed and detached. A
property that these keep is kept by every notice, link change and window evaluation (chapters 1 to 8). -/

namespace Sys2Proof.Machine

/-- A property that changes of single records keep, the engine's work, the deciding of deliveries, the final deliveries,
removals from the Directive Queue and detached entries. -/
structure Working (P : State → Prop) : Prop extends Checks P where
  modWindow : ∀ {s : State} {k : Nat} {f : Window → Window}, P s → P (s.modWindow k f)
  modStation : ∀ {s : State} {k : Nat} {f : Station → Station}, P s → P (s.modStation k f)
  modGallery : ∀ {s : State} {k : Nat} {f : Gallery → Gallery}, P s → P (s.modGallery k f)
  modConference : ∀ {s : State} {k : Nat} {f : Conference → Conference}, P s → P (s.modConference k f)
  modUnit : ∀ {s : State} {k : Nat} {f : LineUnit → LineUnit}, P s → P (s.modUnit k f)
  decide : ∀ {s : State} (kd : DeliveryKind) (k : Nat), P s → P (s.decideDelivery kd k)
  withFinals : ∀ {s : State} {q : List Final}, P s → P { s with finals := q }
  filterQueue : ∀ {s : State} (p : Entry → Bool), P s → P { s with queue := s.queue.filter p }
  detach : ∀ {s : State} (p : Entry → Bool), P s →
    P { s with queue := s.queue.map (fun e => if p e then { e with detached := true } else e) }

section
variable {P : State → Prop}

/-! ## Marks and deliveries -/

theorem Working.markWindow (hc : Working P) {s : State} (h : P s) (k r : Nat) : P (s.markWindow k r) := hc.modWindow h
theorem Working.markCarrier (hc : Working P) {s : State} (h : P s) (k r : Nat) : P (s.markCarrier k r) := hc.modCarrier h
theorem Working.markStation (hc : Working P) {s : State} (h : P s) (k r : Nat) : P (s.markStation k r) := hc.modStation h
theorem Working.markGallery (hc : Working P) {s : State} (h : P s) (k r : Nat) : P (s.markGallery k r) := hc.modGallery h
theorem Working.markConference (hc : Working P) {s : State} (h : P s) (k r : Nat) : P (s.markConference k r) :=
  hc.modConference h
theorem Working.markUnit (hc : Working P) {s : State} (h : P s) (k r : Nat) : P (s.markUnit k r) := hc.modUnit h

theorem Working.setBase (hc : Working P) {s : State} (h : P s) (kd : DeliveryKind) (k : Nat) (b : DeliveryBase) :
    P (s.setBase kd k b) := by
  unfold State.setBase
  split
  · cases kd with
    | tune | lamp | cueRoute => exact hc.modStation h
    | routing => exact hc.modConference h
  · split
    · exact hc.withFinals h
    · exact hc.withFinals h

theorem Working.setDelivered (hc : Working P) {s : State} (h : P s) (kd : DeliveryKind) (k : Nat) (c : Content) :
    P (s.setDelivered kd k c) := by
  unfold State.setDelivered
  split
  · split
    · exact hc.modStation h
    · exact hc.modStation h
    · exact hc.modConference h
    · exact hc.modStation h
    · exact h
  · exact hc.withFinals h

theorem Working.hand (hc : Working P) {s : State} (h : P s) (kd : DeliveryKind) (k : Nat) : P (s.hand kd k) := by
  unfold State.hand
  split
  · exact h
  · split
    · exact hc.decide kd k h
    · exact h

theorem Working.cueing (hc : Working P) : Cueing P where
  hand h kd k := hc.hand h kd k
  mark _ _ h := hc.modStation h
  lamp _ _ h := hc.modStation h
  modConference h := hc.modConference h
  stack _ _ _ _ h := hc.modStation h

theorem Working.fillQueue (hc : Working P) {s : State} (h : P s) : P s.fillQueue := by
  refine State.forEach_keeps h _ (fun t p ht => ?_)
  unfold State.scanOne
  split
  · exact ht
  · split
    · exact hc.decide _ _ ht
    · exact ht

theorem Working.removeEntries (hc : Working P) {s : State} (h : P s) (p : Entry → Bool) : P (s.removeEntries p) := by
  unfold State.removeEntries
  split
  · exact hc.fillQueue (hc.filterQueue _ h)
  · exact h

theorem Working.withdraw (hc : Working P) {s : State} (h : P s) (p : Entry → Bool) : P (s.withdraw p) :=
  hc.removeEntries (hc.detach _ h) _

theorem Working.takeOver (hc : Working P) {s : State} (h : P s) (f : Final) (fresh : Bool) : P (s.takeOver f fresh) := by
  unfold State.takeOver
  have held := hc.withFinals (q := (s.dropFinal f.kind f.target).finals ++ [f]) (hc.withFinals h : P (s.dropFinal f.kind f.target))
  dsimp only
  split
  · exact hc.decide _ _ held
  · split
    · split
      · exact hc.withFinals held
      · exact held
    · exact held

theorem Working.takeOverAll (hc : Working P) {s : State} (h : P s) (fs : List Final) (fresh : Bool) :
    P (s.takeOverAll fs fresh) := State.forEach_keeps h _ (fun _ _ ht => hc.takeOver ht _ _)

/-! ## Lamps, calls and keys -/

theorem Working.derive (hc : Working P) {s : State} (h : P s) (ks : List Nat) : P (s.derive ks) := by
  unfold State.derive
  exact State.forEach_keeps (State.forEach_keeps h _ (fun _ _ ht => hc.modStation ht)) _
    (fun _ d ht => hc.cueing.derivedActs ht d)

theorem Working.lampOff (hc : Working P) {s : State} (h : P s) (k : Nat) : P (s.lampOff k) := hc.withdraw (hc.modStation h) _

theorem Working.lampOn (hc : Working P) {s : State} (h : P s) (k : Nat) : P (s.lampOn k) := hc.decide _ _ (hc.modStation h)

theorem Working.startCall (hc : Working P) {s : State} (h : P s) (k : Nat) : P (s.startCall k) :=
  hc.cueing.recomputeLamps (hc.modStation h) _

theorem Working.endCallMarked (hc : Working P) {s : State} (h : P s) (k r : Nat) : P (s.endCallMarked k r) := by
  unfold State.endCallMarked State.endCall
  split
  · exact hc.markStation (hc.modStation h) _ _
  · exact h

theorem Working.callPress (hc : Working P) {s : State} (h : P s) (k : Nat) : P (s.callPress k) := by
  unfold State.callPress
  split
  · split
    · exact hc.markStation (hc.startCall h k) _ _
    · exact h
  · exact h

theorem Working.answerPress (hc : Working P) {s : State} (h : P s) (k : Nat) : P (s.answerPress k) := by
  unfold State.answerPress
  split
  · split
    · refine hc.cueing.recomputeLamps ?_ _
      split
      · exact hc.endCallMarked (hc.endCallMarked h _ _) _ _
      · exact hc.endCallMarked h _ _
    · exact h
  · exact h

theorem Working.talkPress (hc : Working P) {s : State} (h : P s) (c : Nat) (id : Source) : P (s.talkPress c id) := by
  unfold State.talkPress
  split
  · exact h
  · split
    · exact h
    · split
      · exact h
      · split
        · exact hc.cueing.recomputeRouting (hc.modConference h) _
        · split
          · split
            · exact h
            · exact hc.cueing.recomputeRouting (hc.markConference (hc.modConference h) _ _) _
          · exact hc.markConference h _ _

theorem Working.talkRelease (hc : Working P) {s : State} (h : P s) (c : Nat) (id : Source) : P (s.talkRelease c id) := by
  unfold State.talkRelease
  split
  · exact h
  · split
    · exact hc.cueing.recomputeRouting (hc.modConference h) _
    · exact h

theorem Working.cuePush (hc : Working P) {s : State} (h : P s) (k : Nat) (x : Source) (l : CueLevel) : P (s.cuePush k x l) := by
  unfold State.cuePush
  split
  · exact h
  · exact hc.cueing.setStack h _ _ _

theorem Working.cueKey (hc : Working P) {s : State} (h : P s) (k : Nat) (x : Source) (l : CueLevel) (press : Bool) :
    P (s.cueKey k x l press) := by
  have pressed : P (s.cueKeyPress k x l) := by
    unfold State.cueKeyPress
    split
    · exact h
    · split
      · exact hc.cuePush h _ _ _
      · exact h
      · exact hc.markStation h _ _
      · exact hc.markStation h _ _
      · exact hc.markStation h _ _
  unfold State.cueKey
  exact iteInduction (motive := P) (fun _ => iteInduction (motive := P) (fun _ => pressed)
    (fun _ => hc.cueing.cueRelease h _ _)) (fun _ => h)

/-! ## Links (chapter 3) -/

theorem Working.linkNotices (hc : Working P) {s : State} (h : P s) (k : Nat) (old new : Link) : P (s.linkNotices k old new) := by
  have told : ∀ {t : State}, P t → P (if new.parkedOrLost then t.releaseAllCues k else t) := by
    intro t ht
    split
    · exact hc.cueing.releaseWhere ht _ _
    · exact ht
  unfold State.linkNotices
  refine told ?_
  split
  · exact h
  · split
    · exact hc.cueing.presenceNotice (hc.lampOn h k) _ _
    · exact hc.cueing.presenceNotice (hc.lampOff h k) _ _

theorem Working.setLink (hc : Working P) {s : State} (h : P s) (k : Nat) (l : Link) : P (s.setLink k l) := by
  unfold State.setLink
  split
  · exact h
  · exact hc.linkNotices (hc.modStation h) _ _ _

theorem Working.tuneTo (hc : Working P) {s : State} (h : P s) (k c a : Nat) (b : Bool) : P (s.tuneTo k c a b) := by
  unfold State.tuneTo
  split
  · exact hc.hand (hc.modStation h) _ _
  · exact h

theorem Working.blockAbandoned (hc : Working P) {s : State} (h : P s) (x : Station) : P (s.blockAbandoned x) := by
  unfold State.blockAbandoned
  split
  · exact hc.markCarrier h _ _
  · exact h

theorem Working.parkStation (hc : Working P) {s : State} (h : P s) (k : Nat) : P (s.parkStation k) := by
  unfold State.parkStation
  split
  · exact h
  · exact hc.setLink (hc.blockAbandoned (hc.hand (hc.modStation h) _ _) _) _ _

theorem Working.startTune (hc : Working P) {s : State} (h : P s) (k : Nat) : P (s.startTune k) := by
  unfold State.startTune
  split
  · exact h
  · exact hc.setLink (hc.modStation (hc.tuneTo h _ _ _ _)) _ _

theorem Working.tuneDone (hc : Working P) {s : State} (h : P s) (k : Nat) : P (s.tuneDone k) :=
  hc.markStation (hc.setLink (hc.modStation h) _ _) _ _

theorem Working.tuneFailed (hc : Working P) {s : State} (h : P s) (k : Nat) : P (s.tuneFailed k) :=
  hc.markStation (hc.parkStation h _) _ _

theorem Working.recover (hc : Working P) {s : State} (h : P s) (k : Nat) : P (s.recover k) := by
  unfold State.recover State.stopRecovery
  split
  · exact h
  · split
    · exact hc.modStation (hc.markCarrier (hc.modCarrier h) _ _)
    · exact h

theorem Working.startSwitch (hc : Working P) {s : State} (h : P s) (k : Nat) (x : SwitchKind) (b : Bool) :
    P (s.startSwitch k x b) := by
  unfold State.startSwitch
  split
  · exact h
  · exact hc.setLink (hc.tuneTo (hc.modStation h) _ _ _ _) _ _

theorem Working.switchDone (hc : Working P) {s : State} (h : P s) (k : Nat) : P (s.switchDone k) := by
  have recovering : ∀ {t : State} (q : Prop) [Decidable q] (p : Nat), P t → P (if q then t.beginRecovery k p else t) :=
    fun _ _ _ ht => iteInduction (motive := P) (fun _ => hc.modStation ht) (fun _ => ht)
  have fallen : ∀ {t : State} (q : Prop) [Decidable q], P t → P (if q then t.markStation k StationReason.fallback else t) :=
    fun _ _ ht => iteInduction (motive := P) (fun _ => hc.markStation ht _ _) (fun _ => ht)
  unfold State.switchDone
  split
  · exact h
  · split
    · exact fallen _ (hc.markStation (hc.setLink (recovering _ _ (hc.modStation (hc.markCarrier (hc.modCarrier
        (hc.markCarrier (hc.modCarrier h) _ _)) _ _))) _ _) _ _)
    · exact h

theorem Working.switchFail (hc : Working P) {s : State} (h : P s) (k : Nat) : P (s.switchFail k) := by
  unfold State.switchFail
  split
  · exact h
  · refine hc.markStation (hc.setLink (hc.blockAbandoned (hc.modStation ?_) _) _ _) _ _
    split
    · exact hc.tuneTo h _ _ _ _
    · exact h

theorem Working.tunedItem (hc : Working P) {s : State} (h : P s) (k a n : Nat) (done : Bool) : P (s.tunedItem k a n done) := by
  unfold State.tunedItem
  split
  · exact h
  · split
    · split
      · split
        · exact hc.tuneDone h k
        · exact hc.tuneFailed h k
      · split
        · exact hc.switchDone h k
        · exact hc.switchFail h k
      · exact h
      · exact h
      · exact h
      · exact h
    · exact h

theorem Working.tuneTimeout (hc : Working P) {s : State} (h : P s) (k : Nat) : P (s.tuneTimeout k) := by
  have again : ∀ (c : Option Nat) (n : Nat), P (match c with | some p => s.tuneTo k p n true | none => s) := by
    intro c n
    cases c with
    | none => exact h
    | some p => exact hc.tuneTo h _ _ _ _
  unfold State.tuneTimeout
  split
  · exact h
  · split
    · exact h
    · split
      · split
        · exact again _ _
        · exact hc.tuneFailed h k
      · split
        · exact again _ _
        · exact hc.switchFail h k
      · exact h
      · exact h
      · exact h
      · exact h

theorem Working.watchRunsOut (hc : Working P) {s : State} (h : P s) (k : Nat) : P (s.watchRunsOut k) := by
  unfold State.watchRunsOut
  split
  · exact h
  · split
    · exact h
    · exact h
    · split
      · exact hc.markStation (hc.setLink (hc.modStation h) _ _) _ _
      · exact hc.markStation (hc.setLink (hc.modStation h) _ _) _ _
      · exact hc.modStation h
      · exact h
      · exact h
      · exact h

theorem Working.hysteresis (hc : Working P) {s : State} (h : P s) (k : Nat) (l : Link) (n : Nat) : P (s.hysteresis k l n) := by
  have moves : ∀ (l : Link) (r : Nat), P ((s.setLink k l).markStation k r) := fun l r => hc.markStation (hc.setLink h _ _) _ _
  unfold State.hysteresis
  split
  · split
    · exact moves _ _
    · exact h
  · split
    · exact moves _ _
    · exact h
  · exact h
  · exact h
  · exact h
  · exact h

theorem Working.qualityItem (hc : Working P) {s : State} (h : P s) (k c n : Nat) : P (s.qualityItem k c n) := by
  unfold State.qualityItem
  split
  · exact h
  · split
    · exact h
    · have judged : ∀ {t : State}, P t → ∀ (l : Link), P (match t.station k with
          | none => t
          | some y => if t.fallsBack y n then t.startSwitch k .automatic false else t.hysteresis k l n) := by
        intro t ht l
        split
        · exact ht
        · split
          · exact hc.startSwitch ht _ _ _
          · exact hc.hysteresis ht _ _ _
      dsimp only
      split
      · exact hc.modStation h
      · exact hc.modStation h
      · exact hc.modStation h
      · exact judged (hc.modStation h) _
      · exact judged (hc.modStation h) _
      · split
        · exact hc.markStation (hc.setLink (hc.modStation h) _ _) _ _
        · exact hc.markStation (hc.setLink (hc.modStation h) _ _) _ _

theorem Working.cleanItem (hc : Working P) {s : State} (h : P s) (c n : Nat) : P (s.cleanItem c n) := by
  unfold State.cleanItem
  split
  · exact h
  · dsimp only
    split
    · exact hc.modCarrier h
    · exact hc.modStation (hc.modCarrier h)

theorem Working.cleanAgePasses (hc : Working P) {s : State} (h : P s) (c : Nat) : P (s.cleanAgePasses c) := by
  unfold State.cleanAgePasses State.stopRecovery
  split
  · exact h
  · split
    · exact h
    · dsimp only
      split
      · exact hc.modCarrier h
      · exact hc.modStation (hc.modCarrier h)

theorem Working.closingNotice (hc : Working P) {s : State} (h : P s) (w : Nat) : P (s.closingNotice w) := by
  refine State.forEach_keeps h _ (fun t k ht => ?_)
  split
  · exact ht
  · split
    · exact hc.startSwitch ht _ _ _
    · exact ht

theorem Working.parkExpired (hc : Working P) {s : State} (h : P s) (w : Nat) : P (s.parkExpired w) := by
  refine State.forEach_keeps h _ (fun t k ht => ?_)
  split
  · exact ht
  · split
    · dsimp only
      split
      · exact hc.markStation (hc.markStation (hc.parkStation ht _) _ _) _ _
      · exact hc.markStation (hc.parkStation ht _) _ _
    · exact ht

theorem Working.loseSlot (hc : Working P) {s : State} (h : P s) (k : Nat) (role : Role) (r : Nat) : P (s.loseSlot k role r) := by
  unfold State.loseSlot
  split
  · exact h
  · cases role with
    | primary =>
      refine hc.markStation (hc.modStation ?_) _ _
      split
      · exact h
      · exact hc.parkStation h k
    | standby =>
      refine hc.markStation (hc.modStation ?_) _ _
      split
      · exact hc.switchFail h k
      · exact h

theorem Working.bindCarrier (hc : Working P) {s : State} (h : P s) (k c : Nat) (role : Role) : P (s.bindCarrier k c role) :=
  hc.modStation (hc.markCarrier (hc.modCarrier h) _ _)

theorem Working.unbindCarrier (hc : Working P) {s : State} (h : P s) (k c : Nat) (role : Role) :
    P (s.unbindCarrier k c role) := hc.modStation (hc.markCarrier (hc.modCarrier h) _ _)

/-! ## Carriers and windows (chapters 1 and 2) -/

theorem Working.alternateGone (hc : Working P) {s : State} (h : P s) (c : Nat) : P (s.alternateGone c) :=
  State.forEach_keeps h _ (fun _ _ ht => hc.markCarrier (hc.modCarrier ht) _ _)

theorem Working.slotsLost (hc : Working P) {s : State} (h : P s) (c : Nat) : P (s.slotsLost c) :=
  State.forEach_keeps h _ (fun _ _ ht => hc.loseSlot ht _ _ _)

theorem Working.expireCarriers (hc : Working P) {s : State} (h : P s) (w : Nat) : P (s.expireCarriers w) := by
  refine State.forEach_keeps h _ (fun t c ht => ?_)
  unfold State.expireCarrier
  split
  · exact ht
  · refine hc.markCarrier (hc.modCarrier ?_) _ _
    split
    · exact hc.loseSlot ht _ _ _
    · exact ht

theorem Working.stationGone (hc : Working P) {s : State} (h : P s) (k : Nat) : P (s.stationGone k false) :=
  State.forEach_keeps h _ (fun _ _ ht => hc.markCarrier (hc.modCarrier ht) _ _)

theorem Working.expireWindow (hc : Working P) {s : State} (h : P s) (w : Nat) : P (s.expireWindow w) :=
  hc.markWindow (hc.modWindow (hc.expireCarriers (hc.parkExpired h w) w)) _ _

theorem Working.windowCloses (hc : Working P) {s : State} (h : P s) (w : Nat) : P (s.windowCloses w) := by
  have closing := hc.closingNotice h w
  unfold State.windowCloses
  dsimp only
  split
  · split
    · exact hc.expireWindow closing w
    · exact closing
  · exact closing

theorem Working.evaluateState (hc : Working P) {s : State} (h : P s) (byOrder : Bool) (w : Nat) :
    P (s.evaluateState byOrder w) := by
  have marked : ∀ {t : State} (r : Nat), P t → P (if byOrder then t else t.markWindow w r) := by
    intro t r ht
    split
    · exact ht
    · exact hc.markWindow ht _ _
  unfold State.evaluateState
  split
  · exact h
  · dsimp only
    split
    · exact marked _ (hc.modWindow h)
    · exact marked _ (hc.modWindow h)
    · exact marked _ (hc.modWindow h)
    · exact h

theorem Working.evaluate (hc : Working P) {s : State} (h : P s) (byOrder : Bool) (ws : List Nat) : P (s.evaluate byOrder ws) :=
  State.forEach_keeps (State.forEach_keeps h _ (fun _ w ht => hc.evaluateState ht byOrder w)) _
    (fun _ w ht => hc.windowCloses ht w)

theorem Working.windowsResume (hc : Working P) {s : State} (h : P s) : P s.windowsResume := by
  refine hc.evaluate (State.forEach_keeps h _ (fun t w ht => ?_)) _ _
  split
  · split
    · exact hc.expireWindow ht w
    · exact ht
  · exact ht

/-! ## The engine -/

theorem Checks.engine (hc : Checks P) {s : State} (h : P s) (e : Option Check) : P { s with engine := e } :=
  hc.withChecks (q := s.checkQueue) le_rfl h

theorem Checks.engineResumes (hc : Checks P) {s : State} (h : P s) : P s.engineResumes := by
  unfold State.engineResumes
  split
  · split
    · exact hc.engineLooks h
    · exact hc.engineLooks (hc.beginCheck (hc.engine h none) _)
  · exact h

theorem Working.enterCleared (hc : Working P) {s : State} (h : P s) (c : Nat) : P (s.enterCleared c) := by
  have cleared : P ((s.modCarrier c (fun y => { y with state := .cleared })).markCarrier c CarrierReason.cleared) :=
    hc.markCarrier (hc.modCarrier h) _ _
  unfold State.enterCleared
  dsimp only
  split
  · exact cleared
  · split
    · exact cleared
    · split
      · exact hc.markStation (hc.bindCarrier cleared _ _ _) _ _
      · exact hc.markCarrier cleared _ _

theorem Working.endOfCheck (hc : Working P) {s : State} (h : P s) : P s.endOfCheck := by
  have ended : ∀ {t : State}, P t → ∀ c y found, P (t.enterResult c y found) := by
    intro t ht c y found
    unfold State.enterResult
    split
    · exact hc.enterConflict ht _ _ _
    · split
      · exact hc.enterConflict ht _ _ _
      · exact hc.enterCleared ht _
  unfold State.endOfCheck
  split
  · split
    · exact h
    · split
      · exact h
      · exact hc.engineLooks (ended (hc.engine h none) _ _ _)
  · exact h

/-! ## Galleries and conferences that lose a record -/

theorem Working.emptySets (hc : Working P) {s : State} (h : P s) (p : Gallery → Bool) : P (s.emptySets p) :=
  hc.derive (State.forEach_keeps h _ (fun _ _ ht => hc.markGallery (hc.modGallery ht) _ _)) _

theorem Working.unmapStation (hc : Working P) {s : State} (h : P s) (k : Nat) : P (s.unmapStation k false) :=
  State.forEach_keeps h _ (fun _ _ ht => hc.markGallery (hc.modGallery ht) _ _)

theorem Working.unfollow (hc : Working P) {s : State} (h : P s) (c : Nat) : P (s.unfollow c false) :=
  State.forEach_keeps h _ (fun _ _ ht => hc.markGallery (hc.modGallery ht) _ _)

theorem Working.tallyItem (hc : Working P) {s : State} (h : P s) (g : Nat) (live : Bool) (p q : List Nat) :
    P (s.tallyItem g live p q) := by
  unfold State.tallyItem
  split
  · exact h
  · dsimp only
    split
    · exact h
    · exact hc.derive (hc.markGallery (hc.modGallery h) _ _) _

theorem Working.followersLeave (hc : Working P) {s : State} (h : P s) (g : Nat) : P (s.followersLeave g) := by
  unfold State.followersLeave
  refine State.forEach_keeps (State.forEach_keeps h _ (fun t k ht => ?_)) _
    (fun t c ht => State.forEach_keeps ht _ (fun u p hu => hc.cueing.recomputeFollow hu _ _ _))
  split
  · exact hc.cueing.recomputeEverywhere ht _ _ _
  · exact ht

theorem Working.partnersLeft (hc : Working P) {s : State} (h : P s) (k : Nat) : P (s.partnersLeft k) :=
  hc.cueing.recomputing.partnersLeft (fun j ht => hc.cueing.recomputeLamp ht j)
    (fun _ ht => hc.markStation (hc.modStation ht) _ _) h k

/-! ## Units -/

theorem Working.staleAll (hc : Working P) {s : State} (h : P s) (a : Nat) : P (s.staleAll a) := by
  refine State.forEach_keeps h _ (fun t p ht => ?_)
  split
  · split
    · exact hc.setBase ht _ _ _
    · exact ht
  · exact ht

theorem Working.unitLost (hc : Working P) {s : State} (h : P s) (a : Nat) : P (s.unitLost a) := by
  have silent : ∀ {t : State}, P t → P (if t.settings.matrixUnit = some a then t.matrixLost else t) := by
    intro t ht
    split
    · exact hc.cueing.matrixLost ht
    · exact ht
  unfold State.unitLost
  exact silent (hc.emptySets (hc.removeEntries (hc.staleAll (hc.withFinals (hc.markUnit (hc.modUnit h) _ _)) _) _) _)

theorem Working.forget (hc : Working P) {s : State} (h : P s) (a : Nat) : P (s.forget a) := by
  refine State.forEach_keeps (hc.withFinals (hc.modUnit h)) _ (fun t p ht => ?_)
  split
  · split
    · exact hc.setBase ht _ _ _
    · exact ht
  · exact ht

end

end Sys2Proof.Machine
end

section
/-! The quarantine of a damaged record (R181, R183). -/

namespace Sys2Proof.Machine

/-! ## The stages -/

/-- A station that leaves a conference otherwise than by an order changes no store state. -/
theorem Following.stationLeaves_unordered {P : State → Prop} (hc : Following P) {s : State} (h : P s) (k c : Nat) :
    P (s.stationLeaves k c false) := by
  unfold State.stationLeaves
  split
  · exact h
  · dsimp only
    split
    · exact h
    · rw [if_neg (by simp)]
      exact hc.recomputeRouting (State.forEach_keeps (hc.markConference (hc.modConference h) _ _) _
        (fun t _ ht => hc.serveWaitList ht _ _ _)) _

/-- A property that the stages of the quarantine of a record keep: the damaged record leaves its table. -/
structure Sweeping (r : RecordId) (P : State → Prop) : Prop extends Working P where
  station : ∀ {s : State}, r.table = .station → P s → P { s with stations := s.stations.damage r.key [] }
  gallery : ∀ {s : State}, r.table = .gallery → P s → P { s with galleries := s.galleries.erase r.key }
  conference : ∀ {s : State}, r.table = .conference → P s → P { s with conferences := s.conferences.erase r.key }
  operator : ∀ {s : State}, r.table = .operator → P s → P (s.operatorGone r.key)

section
variable {P : State → Prop} {r : RecordId}

theorem Sweeping.damagedFinals (hc : Sweeping r P) (ht : r.table = .station) {s : State} (h : P s) :
    P (s.damagedFinals r.key) := by
  unfold State.damagedFinals
  split
  · exact h
  · exact hc.withdraw (hc.takeOverAll (hc.station ht h) _ _) _

theorem Sweeping.galleryGone (hc : Sweeping r P) (ht : r.table = .gallery) {s : State} (h : P s) :
    P (s.galleryGone r.key) := hc.derive (hc.gallery ht h) _

theorem Sweeping.conferenceGone (hc : Sweeping r P) (ht : r.table = .conference) {s : State} (h : P s) :
    P (s.conferenceGone r.key) := hc.takeOver (hc.conference ht h) _ _

theorem Working.stationLeavesAll (hc : Working P) {s : State} (h : P s) (k : Nat) : P (s.stationLeavesAll k false) :=
  State.forEach_keeps h _ (fun _ c ht => hc.cueing.stationLeaves_unordered ht k c)

/-- Every stage keeps what the work of the blocks and the leaving of the record keep. -/
theorem Sweeping.stage (hc : Sweeping r P) {p : List TableId × (State → State)} (hp : p ∈ quarantineStages r) {s : State}
    (h : P s) : P (p.2 s) := by
  unfold quarantineStages at hp
  cases ht : r.table with
  | window =>
    simp only [ht, List.mem_cons, List.not_mem_nil, or_false] at hp
    rcases hp with rfl | rfl
    · dsimp only
      exact hc.parkExpired h r.key
    · dsimp only
      exact hc.expireCarriers h r.key
  | carrier =>
    simp only [ht, List.mem_cons, List.not_mem_nil, or_false] at hp
    rcases hp with rfl | rfl | rfl
    · dsimp only
      exact hc.leaveChecking h r.key
    · dsimp only
      exact hc.slotsLost h r.key
    · dsimp only
      exact hc.alternateGone h r.key
  | station =>
    simp only [ht, List.mem_cons, List.not_mem_nil, or_false] at hp
    rcases hp with rfl | rfl | rfl | rfl | rfl | rfl
    · dsimp only
      exact hc.damagedFinals ht h
    · dsimp only
      exact hc.stationGone h r.key
    · dsimp only
      exact hc.stationLeavesAll h r.key
    · dsimp only
      exact hc.unmapStation h r.key
    · dsimp only
      exact hc.partnersLeft h r.key
    · dsimp only
      exact hc.cueing.releaseSourced h r.key
  | gallery =>
    simp only [ht, List.mem_cons, List.not_mem_nil, or_false] at hp
    rcases hp with rfl | rfl
    · dsimp only
      exact hc.followersLeave h r.key
    · dsimp only
      exact hc.galleryGone ht h
  | conference =>
    simp only [ht, List.mem_cons, List.not_mem_nil, or_false] at hp
    rcases hp with rfl | rfl
    · dsimp only
      exact hc.unfollow h r.key
    · dsimp only
      exact hc.conferenceGone ht h
  | operator =>
    simp only [ht, List.mem_cons, List.not_mem_nil, or_false] at hp
    subst hp
    exact hc.operator ht h
  | unit =>
    simp only [ht, List.mem_cons, List.not_mem_nil, or_false] at hp
    rcases hp with rfl | rfl
    · dsimp only
      exact hc.unitLost h r.key
    · dsimp only
      exact hc.forget h r.key
  | part =>
    simp only [ht, List.not_mem_nil] at hp

end

/-! ## What the stages leave alone -/

/-- Nothing but the records, the check engine, the Directive Queue and the final deliveries differs. -/
def State.sweeps (s t : State) : Prop :=
  t = { s with
    windows := t.windows
    carriers := t.carriers
    checkQueue := t.checkQueue
    engine := t.engine
    stations := t.stations
    galleries := t.galleries
    conferences := t.conferences
    operators := t.operators
    units := t.units
    queue := t.queue
    finals := t.finals }

theorem State.sweeps.refl (s : State) : s.sweeps s := rfl

theorem State.sweeps.trans {s t u : State} (h : s.sweeps t) (g : t.sweeps u) : s.sweeps u := by
  unfold State.sweeps at *
  rw [h] at g
  exact g

theorem State.sweeps.only {s t u : State} (h : s.sweeps t) (g : Only t u) : s.sweeps u := by
  unfold State.sweeps Only at *
  rw [h] at g
  rw [g]

theorem State.sweeps.service {s t : State} (h : s.sweeps t) : t.service = s.service := by rw [h]
theorem State.sweeps.snapshot {s t : State} (h : s.sweeps t) : t.snapshot = s.snapshot := by rw [h]
theorem State.sweeps.badCodes {s t : State} (h : s.sweeps t) : t.badCodes = s.badCodes := by rw [h]
theorem State.sweeps.latched {s t : State} (h : s.sweeps t) : t.latched = s.latched := by rw [h]
theorem State.sweeps.saving {s t : State} (h : s.sweeps t) : t.saving = s.saving := by rw [h]

theorem State.sweeps.clock {s t : State} (h : s.sweeps t) : t.clock = s.clock := by rw [h]
theorem State.sweeps.settings {s t : State} (h : s.sweeps t) : t.settings = s.settings := by rw [h]
theorem State.sweeps.storeStates {s t : State} (h : s.sweeps t) : t.storeStates = s.storeStates := by rw [h]
theorem State.sweeps.port {s t : State} (h : s.sweeps t) : t.port = s.port := by rw [h]

theorem State.sweeps.quarantined {s t : State} (h : s.sweeps t) : t.quarantined = s.quarantined := by
  rw [h]
  rfl

theorem Working.sweeps (s : State) : Working s.sweeps where
  modCarrier h := h.trans rfl
  withChecks _ h := h.trans rfl
  modWindow h := h.trans rfl
  modStation h := h.trans rfl
  modGallery h := h.trans rfl
  modConference h := h.trans rfl
  modUnit h := h.trans rfl
  decide kd k h := h.only ((Only.broad _).soft.decideDelivery (Only.refl _) kd k)
  withFinals h := h.trans rfl
  filterQueue _ h := h.trans rfl
  detach _ h := h.trans rfl

theorem Sweeping.sweeps (r : RecordId) (s : State) : Sweeping r s.sweeps where
  toWorking := Working.sweeps s
  station _ h := h.trans rfl
  gallery _ h := h.trans rfl
  conference _ h := h.trans rfl
  operator _ h := h.trans rfl

/-! ## The records that stay -/

theorem Table.isSome_modify {α : Type} (t : Table α) (j : Nat) (f : α → α) (i : Nat) :
    ((t.modify j f).get i).isSome = (t.get i).isSome := by
  rw [Table.get_modify]
  split
  · rw [Option.isSome_map]
  · rfl

/-- Every table holds its records as before, but for one record. -/
structure State.holdsBut (r : RecordId) (s t : State) : Prop where
  windows : ∀ k, (t.window k).isSome = (s.window k).isSome
  carriers : ∀ k, (t.carrier k).isSome = (s.carrier k).isSome
  stations : ∀ k, ⟨.station, k⟩ ≠ r → (t.station k).isSome = (s.station k).isSome
  galleries : ∀ k, ⟨.gallery, k⟩ ≠ r → (t.gallery k).isSome = (s.gallery k).isSome
  conferences : ∀ k, ⟨.conference, k⟩ ≠ r → (t.conference k).isSome = (s.conference k).isSome

theorem State.holdsBut.refl (r : RecordId) (s : State) : State.holdsBut r s s :=
  ⟨fun _ => rfl, fun _ => rfl, fun _ _ => rfl, fun _ _ => rfl, fun _ _ => rfl⟩

theorem State.holdsBut.modStation {r : RecordId} {s t : State} (h : State.holdsBut r s t) (k : Nat) (f : Station → Station) :
    State.holdsBut r s (t.modStation k f) :=
  ⟨h.windows, h.carriers, fun j hj => (Table.isSome_modify t.stations k f j).trans (h.stations j hj), h.galleries,
    h.conferences⟩

theorem State.holdsBut.modConference {r : RecordId} {s t : State} (h : State.holdsBut r s t) (k : Nat)
    (f : Conference → Conference) : State.holdsBut r s (t.modConference k f) :=
  ⟨h.windows, h.carriers, h.stations, h.galleries,
    fun j hj => (Table.isSome_modify t.conferences k f j).trans (h.conferences j hj)⟩

theorem Decides.holdsBut (r : RecordId) (s : State) : Decides (State.holdsBut r s) where
  station k _ _ h := h.modStation k _
  conference k _ h := h.modConference k _
  withQueue := fun ⟨h1, h2, h3, h4, h5⟩ => ⟨h1, h2, h3, h4, h5⟩
  withFinals := fun ⟨h1, h2, h3, h4, h5⟩ => ⟨h1, h2, h3, h4, h5⟩

theorem Sweeping.holdsBut (r : RecordId) (s : State) : Sweeping r (State.holdsBut r s) where
  modWindow := fun {t k f} ⟨h1, h2, h3, h4, h5⟩ => ⟨fun j => (Table.isSome_modify t.windows k f j).trans (h1 j), h2, h3, h4, h5⟩
  modCarrier := fun {t k f} ⟨h1, h2, h3, h4, h5⟩ => ⟨h1, fun j => (Table.isSome_modify t.carriers k f j).trans (h2 j), h3, h4, h5⟩
  modStation h := h.modStation _ _
  modGallery := fun {t k f} ⟨h1, h2, h3, h4, h5⟩ =>
    ⟨h1, h2, h3, fun j hj => (Table.isSome_modify t.galleries k f j).trans (h4 j hj), h5⟩
  modConference h := h.modConference _ _
  modUnit := fun ⟨h1, h2, h3, h4, h5⟩ => ⟨h1, h2, h3, h4, h5⟩
  decide kd k h := (Decides.holdsBut r s).decideDelivery h kd k
  withFinals := fun ⟨h1, h2, h3, h4, h5⟩ => ⟨h1, h2, h3, h4, h5⟩
  filterQueue := fun _ ⟨h1, h2, h3, h4, h5⟩ => ⟨h1, h2, h3, h4, h5⟩
  detach := fun _ ⟨h1, h2, h3, h4, h5⟩ => ⟨h1, h2, h3, h4, h5⟩
  withChecks := fun _ ⟨h1, h2, h3, h4, h5⟩ => ⟨h1, h2, h3, h4, h5⟩
  station := fun {t} hr ⟨h1, h2, h3, h4, h5⟩ => by
    refine ⟨h1, h2, fun j hj => ?_, h4, h5⟩
    have other : j ≠ r.key := fun e => hj (by rw [e, ← hr])
    exact (congrArg Option.isSome ((Table.get_damage t.stations r.key [] j).trans (if_neg other))).trans (h3 j hj)
  gallery := fun {t} hr ⟨h1, h2, h3, h4, h5⟩ => by
    refine ⟨h1, h2, h3, fun j hj => ?_, h5⟩
    have other : j ≠ r.key := fun e => hj (by rw [e, ← hr])
    exact (congrArg Option.isSome ((Table.get_erase t.galleries r.key j).trans (if_neg other))).trans (h4 j hj)
  conference := fun {t} hr ⟨h1, h2, h3, h4, h5⟩ => by
    refine ⟨h1, h2, h3, h4, fun j hj => ?_⟩
    have other : j ≠ r.key := fun e => hj (by rw [e, ← hr])
    exact (congrArg Option.isSome ((Table.get_erase t.conferences r.key j).trans (if_neg other))).trans (h5 j hj)
  operator := fun _ ⟨h1, h2, h3, h4, h5⟩ => ⟨h1, h2, h3, h4, h5⟩

theorem State.holdsBut.holdsRecord {r q : RecordId} {s t : State} (h : State.holdsBut r s t) (hq : q ≠ r) :
    t.holdsRecord q = s.holdsRecord q := by
  obtain ⟨table, key⟩ := q
  cases table with
  | window => exact h.windows key
  | carrier => exact h.carriers key
  | station => exact h.stations key hq
  | gallery => exact h.galleries key hq
  | conference => exact h.conferences key hq
  | operator | unit | part => rfl

/-! ## A second damaged record -/

theorem State.stageReads_iff {s : State} {p : List TableId × (State → State)} {q : RecordId}
    (h : q = ⟨.part, 0⟩ ∨ q.table ∈ p.1) : s.stageReads p q = true := by
  unfold State.stageReads
  rcases h with h | h
  · simp [h]
  · simp [h]

theorem State.firstBad_finds {s : State} {q : RecordId} {reads : RecordId → Bool} (hs : s.service ≠ .halted)
    (hb : q ∈ s.badCodes) (hh : s.holdsRecord q = true) (hq : s.quarantined ≠ some q) (hr : reads q = true) :
    ∃ f, s.firstBad reads = some f := by
  unfold State.firstBad
  rw [if_neg hs]
  refine Option.isSome_iff_exists.1 (List.find?_isSome.2 ⟨q, hb, ?_⟩)
  simp [hh, hr, hq]

/-- A damaged record that some stage reads stops the quarantine at a check failure. -/
theorem quarantineRuns_meets {P : State → Prop} {q : RecordId} (last : State → State)
    (bad : ∀ t, P t → ∀ reads : RecordId → Bool, reads q = true → ∃ f, t.firstBad reads = some f) :
    ∀ (stages : List (List TableId × (State → State))) {s : State}, P s → (∀ p ∈ stages, ∀ t, P t → P (p.2 t)) →
      (∃ p ∈ stages, q = ⟨.part, 0⟩ ∨ q.table ∈ p.1) →
      ∃ t f, P t ∧ quarantineRuns stages last s = t.checkFailure f Activity.notice
  | [], _, _, _, met => by
    obtain ⟨p, hp, -⟩ := met
    cases hp
  | p :: rest, s, h, keeps, met => by
    unfold quarantineRuns State.reading
    cases found : s.firstBad (s.stageReads p) with
    | some f => exact ⟨s, f, h, rfl⟩
    | none =>
      refine quarantineRuns_meets last bad rest (keeps p List.mem_cons_self s h)
        (fun p' hp' => keeps p' (List.mem_cons_of_mem _ hp')) ?_
      obtain ⟨p', hp', reads⟩ := met
      rcases List.mem_cons.1 hp' with rfl | hp'
      · obtain ⟨f, hf⟩ := bad s h (s.stageReads p') (State.stageReads_iff reads)
        exact absurd (hf.symm.trans found) nofun
      · exact ⟨p', hp', reads⟩

/-- Every damaged record in a table that is searched is read by a stage. -/
theorem quarantineStages_search {r q : RecordId} (hr : r.table ≠ .part)
    (h : q = ⟨.part, 0⟩ ∨ q.table ∈ searchedFor r.table) :
    ∃ p ∈ quarantineStages r, q = ⟨.part, 0⟩ ∨ q.table ∈ p.1 := by
  have some_stage : quarantineStages r ≠ [] := by
    unfold quarantineStages
    cases ht : r.table with
    | part => exact absurd ht hr
    | _ => simp
  rcases h with part | searched
  · obtain ⟨p, hp⟩ := List.exists_mem_of_ne_nil _ some_stage
    exact ⟨p, hp, .inl part⟩
  · have all : ∀ x ∈ searchedFor r.table, ∃ p ∈ quarantineStages r, x ∈ p.1 := by
      unfold quarantineStages
      cases r.table <;> simp [searchedFor]
    obtain ⟨p, hp, hx⟩ := all q.table searched
    exact ⟨p, hp, .inr hx⟩

theorem State.endQuarantine_eq {s : State} {r : RecordId} {a : Nat} (hs : s.service = .faultHandling)
    (hsnap : s.snapshot = some ⟨r, a⟩) : s.endQuarantine =
      quarantineRuns (quarantineStages r) (fun t => (t.slotDamaged r).returnToService r) s.saveGoesOn := by
  unfold State.endQuarantine
  rw [hs, hsnap]

theorem State.checkFailure_fault {s : State} (hs : s.service = .faultHandling) (r : RecordId) (a : Nat) :
    s.checkFailure r a = s.halt r a := by
  unfold State.checkFailure
  rw [hs]
  simp

/-- A second damaged record in a table that the quarantine searches halts the part (R183). -/
theorem State.quarantine_halts {s : State} {r q : RecordId} {a : Nat} (hs : s.service = .faultHandling)
    (hsave : s.saving = false) (hsnap : s.snapshot = some ⟨r, a⟩) (hr : r.table ≠ .part) (hb : q ∈ s.badCodes) (hq : q ≠ r)
    (hh : s.holdsRecord q = true) (hq' : q = ⟨.part, 0⟩ ∨ q.table ∈ searchedFor r.table) :
    s.endQuarantine.service = .halted ∧ s.endQuarantine.snapshot = s.snapshot ∧ s.endQuarantine.line = none ∧
      s.endQuarantine.latched = { s.latched with fault := true } := by
  have bad : ∀ t, s.sweeps t ∧ State.holdsBut r s t → ∀ reads : RecordId → Bool, reads q = true →
      ∃ f, t.firstBad reads = some f := by
    rintro t ⟨sweeps, holds⟩ reads hreads
    have service : t.service = .faultHandling := sweeps.service.trans hs
    have free : t.quarantined ≠ some q := by
      rw [sweeps.quarantined]
      unfold State.quarantined
      rw [hs, hsnap]
      dsimp only
      split
      · exact fun e => hq (Option.some.inj e).symm
      · exact nofun
    exact State.firstBad_finds (by rw [service]; nofun) (sweeps.badCodes ▸ hb)
      ((holds.holdsRecord hq).trans hh) free hreads
  obtain ⟨t, f, ⟨sweeps, -⟩, met⟩ := quarantineRuns_meets (fun t => (t.slotDamaged r).returnToService r) bad
    (quarantineStages r) ⟨State.sweeps.refl s, State.holdsBut.refl r s⟩
    (fun p hp t ht => ⟨(Sweeping.sweeps r s).stage hp ht.1, (Sweeping.holdsBut r s).stage hp ht.2⟩)
    (quarantineStages_search hr hq')
  have service : t.service = .faultHandling := sweeps.service.trans hs
  obtain ⟨halted, -, line, latched, -, kept⟩ := State.halt_spec (s := t) f Activity.notice (by rw [service]; nofun)
  rw [State.endQuarantine_eq hs hsnap, State.saveGoesOn_idle hsave, met, State.checkFailure_fault service]
  refine ⟨halted, (kept service).trans sweeps.snapshot, line, latched.trans ?_⟩
  dsimp only
  rw [sweeps.latched, sweeps.saving, hsave, Bool.or_false]

end Sys2Proof.Machine
end

section
/-! The end of a quarantine: the slot left Damaged, and the part in service again (R181). -/

namespace Sys2Proof.Machine

/-! ## The stages of a lone damaged record -/

/-- The stages of a record's quarantine, done. -/
def State.swept (s : State) (r : RecordId) : State := (quarantineStages r).foldl (fun t p => p.2 t) s

theorem Sweeping.swept {P : State → Prop} {r : RecordId} (hc : Sweeping r P) {s : State} (h : P s) : P (s.swept r) :=
  List.foldlRecOn (motive := P) (quarantineStages r) (fun t p => p.2 t) h (fun _ ht _ hp => hc.stage hp ht)

/-- Stages that meet no damaged record are all done. -/
theorem quarantineRuns_done {P : State → Prop} (last : State → State)
    (sound : ∀ t, P t → ∀ reads : RecordId → Bool, t.firstBad reads = none) :
    ∀ (stages : List (List TableId × (State → State))) {s : State}, P s → (∀ p ∈ stages, ∀ t, P t → P (p.2 t)) →
      quarantineRuns stages last s = last (stages.foldl (fun t p => p.2 t) s)
  | [], _, _, _ => rfl
  | p :: rest, s, h, keeps => by
    unfold quarantineRuns State.reading
    rw [sound s h]
    exact quarantineRuns_done last sound rest (keeps p List.mem_cons_self s h)
      (fun p' hp' => keeps p' (List.mem_cons_of_mem _ hp'))

/-- The record under quarantine is read by nothing. -/
theorem State.firstBad_quarantined {s : State} {r : RecordId} {a : Nat} (hs : s.service = .faultHandling)
    (hsnap : s.snapshot = some ⟨r, a⟩) (hr : r.table ≠ .part) (hb : s.badCodes = [r]) (reads : RecordId → Bool) :
    s.firstBad reads = none := by
  refine State.firstBad_none fun q hq _ => ?_
  rw [hb, List.mem_singleton] at hq
  subst hq
  unfold State.quarantined
  rw [hs, hsnap]
  simp [hb, hr]

theorem State.endQuarantine_lone {s : State} {r : RecordId} {a : Nat} (hs : s.service = .faultHandling)
    (hsnap : s.snapshot = some ⟨r, a⟩) (hb : s.badCodes = [r]) :
    s.endQuarantine = ((s.saveGoesOn.swept r).slotDamaged r).returnToService r := by
  rw [State.endQuarantine_eq hs hsnap]
  by_cases hr : r.table = .part
  · have none_staged : quarantineStages r = [] := by
      unfold quarantineStages
      rw [hr]
    unfold State.swept
    rw [none_staged]
    rfl
  · obtain ⟨p, ws, d, e⟩ := s.saveGoesOn_frame
    have sound : ∀ t, s.saveGoesOn.sweeps t → ∀ reads : RecordId → Bool, t.firstBad reads = none := by
      intro t ht
      rw [e] at ht
      exact State.firstBad_quarantined (ht.service.trans hs) (ht.snapshot.trans hsnap) hr (ht.badCodes.trans hb)
    exact quarantineRuns_done _ sound _ (State.sweeps.refl _) (fun p hp t ht => (Sweeping.sweeps r _).stage hp ht)

/-! ## Back in service -/

theorem State.returnToService_eq {s : State} {r : RecordId} (hb : s.badCodes = [r]) : s.returnToService r =
    ({ s with service := .inService, badCodes := [] } : State).windowsResume.engineResumes := by
  have none_left : s.badCodes.filter (· != r) = [] := by simp [hb]
  unfold State.returnToService
  rw [none_left]
  dsimp only
  rw [State.acting_sound rfl]
  have back := (Working.sweeps { s with service := .inService, badCodes := [] }).windowsResume (State.sweeps.refl _)
  exact State.checkBegun_sound ((Working.sweeps _).engineResumes back).badCodes

/-! ## Damaged slots stay -/

theorem Table.damaged_modify {α : Type} {t : Table α} {k : Nat} {m : List Nat} (h : t.slot k = some (.damaged m)) (j : Nat)
    (f : α → α) : (t.modify j f).slot k = some (.damaged m) := by
  by_cases hj : k = j
  · subst hj
    have none_held : t.get k = none := by
      unfold Table.get
      rw [h]
    rw [Table.modify_of_none none_held]
    exact h
  · rw [Table.slot_modify_ne t j f hj]
    exact h

/-- Every Damaged slot is as it was. -/
structure State.damageStays (s t : State) : Prop where
  windows : ∀ k m, s.windows.slot k = some (.damaged m) → t.windows.slot k = some (.damaged m)
  carriers : ∀ k m, s.carriers.slot k = some (.damaged m) → t.carriers.slot k = some (.damaged m)
  stations : ∀ k m, s.stations.slot k = some (.damaged m) → t.stations.slot k = some (.damaged m)
  galleries : ∀ k m, s.galleries.slot k = some (.damaged m) → t.galleries.slot k = some (.damaged m)
  conferences : ∀ k m, s.conferences.slot k = some (.damaged m) → t.conferences.slot k = some (.damaged m)

theorem State.damageStays.refl (s : State) : s.damageStays s :=
  ⟨fun _ _ h => h, fun _ _ h => h, fun _ _ h => h, fun _ _ h => h, fun _ _ h => h⟩

theorem Decides.damageStays (s : State) : Decides s.damageStays where
  station k _ _ := fun ⟨h1, h2, h3, h4, h5⟩ => ⟨h1, h2, fun j m h => Table.damaged_modify (h3 j m h) k _, h4, h5⟩
  conference k _ := fun ⟨h1, h2, h3, h4, h5⟩ => ⟨h1, h2, h3, h4, fun j m h => Table.damaged_modify (h5 j m h) k _⟩
  withQueue := fun ⟨h1, h2, h3, h4, h5⟩ => ⟨h1, h2, h3, h4, h5⟩
  withFinals := fun ⟨h1, h2, h3, h4, h5⟩ => ⟨h1, h2, h3, h4, h5⟩

theorem Working.damageStays (s : State) : Working s.damageStays where
  modWindow := fun ⟨h1, h2, h3, h4, h5⟩ => ⟨fun j m h => Table.damaged_modify (h1 j m h) _ _, h2, h3, h4, h5⟩
  modCarrier := fun ⟨h1, h2, h3, h4, h5⟩ => ⟨h1, fun j m h => Table.damaged_modify (h2 j m h) _ _, h3, h4, h5⟩
  modStation := fun ⟨h1, h2, h3, h4, h5⟩ => ⟨h1, h2, fun j m h => Table.damaged_modify (h3 j m h) _ _, h4, h5⟩
  modGallery := fun ⟨h1, h2, h3, h4, h5⟩ => ⟨h1, h2, h3, fun j m h => Table.damaged_modify (h4 j m h) _ _, h5⟩
  modConference := fun ⟨h1, h2, h3, h4, h5⟩ => ⟨h1, h2, h3, h4, fun j m h => Table.damaged_modify (h5 j m h) _ _⟩
  modUnit := fun ⟨h1, h2, h3, h4, h5⟩ => ⟨h1, h2, h3, h4, h5⟩
  decide kd k h := (Decides.damageStays s).decideDelivery h kd k
  withFinals := fun ⟨h1, h2, h3, h4, h5⟩ => ⟨h1, h2, h3, h4, h5⟩
  filterQueue := fun _ ⟨h1, h2, h3, h4, h5⟩ => ⟨h1, h2, h3, h4, h5⟩
  detach := fun _ ⟨h1, h2, h3, h4, h5⟩ => ⟨h1, h2, h3, h4, h5⟩
  withChecks := fun _ ⟨h1, h2, h3, h4, h5⟩ => ⟨h1, h2, h3, h4, h5⟩

/-! ## Units and operators -/

theorem State.engineResumes_only (s : State) : OnlyChecks s s.engineResumes :=
  (OnlyChecks.checks s).engineResumes (OnlyChecks.refl s)

theorem OnlyChecks.units {s t : State} (h : OnlyChecks s t) : t.units = s.units := by rw [h]
theorem OnlyChecks.operators {s t : State} (h : OnlyChecks s t) : t.operators = s.operators := by rw [h]

/-- The return to service changes no Unit record and no Operator record. -/
theorem State.resumes_units (s : State) :
    s.windowsResume.engineResumes.units = s.units ∧ s.windowsResume.engineResumes.operators = s.operators := by
  have expired : ∀ {t : State} (w : Nat), Evaluates s t → Evaluates s (t.expireWindow w) := fun {t} w ht =>
    ht.trans (t.expireWindow_evaluates w)
  have resumed : Evaluates s s.windowsResume := by
    refine Evaluates.trans (State.forEach_keeps (Evaluates.refl s) _ (fun t w ht => ?_)) (State.evaluateAll_spec _).1
    split
    · split
      · exact expired w ht
      · exact ht
    · exact ht
  have checks := s.windowsResume.engineResumes_only
  exact ⟨checks.units.trans resumed.sameMachine.units, checks.operators.trans resumed.sameMachine.operators⟩

/-- The stages keep the number of Unit records. -/
theorem Sweeping.unitCount (r : RecordId) (n : Nat) : Sweeping r (fun t => t.units.length = n) where
  modWindow h := h
  modCarrier h := h
  modStation h := h
  modGallery h := h
  modConference h := h
  modUnit := fun {t k f} h => by
    unfold State.modUnit
    dsimp only
    split
    · exact h
    · rw [List.length_modify]
      exact h
  decide := fun {t} kd k h =>
    (congrArg List.length ((Only.broad t).soft.decideDelivery (Only.refl t) kd k).sameMachine.units).trans h
  withFinals h := h
  filterQueue _ h := h
  detach _ h := h
  withChecks _ h := h
  station _ h := h
  gallery _ h := h
  conference _ h := h
  operator _ h := h

/-- The stages of another record's quarantine keep the Operator records. -/
theorem Sweeping.operators {r : RecordId} (hr : r.table ≠ .operator) (ops : List Operator) :
    Sweeping r (fun t => t.operators = ops) where
  modWindow h := h
  modCarrier h := h
  modStation h := h
  modGallery h := h
  modConference h := h
  modUnit h := h
  decide := fun {t} kd k h =>
    ((Only.broad t).soft.decideDelivery (Only.refl t) kd k).sameMachine.operators.trans h
  withFinals h := h
  filterQueue _ h := h
  detach _ h := h
  withChecks _ h := h
  station _ h := h
  gallery _ h := h
  conference _ h := h
  operator ht _ := absurd ht hr

theorem State.swept_operator (s : State) {r : RecordId} (hr : r.table = .operator) : s.swept r = s.operatorGone r.key := by
  unfold State.swept quarantineStages
  rw [hr]
  rfl

theorem State.unitAt_isSome {s t : State} (h : t.units.length = s.units.length) {a : Nat} {u : LineUnit}
    (hu : s.unitAt a = some u) : ∃ v, t.unitAt a = some v := by
  unfold State.unitAt at hu ⊢
  split at hu
  · cases hu
  · rename_i ha
    have room := (List.getElem?_eq_some_iff.1 hu).1
    rw [if_neg ha]
    exact ⟨_, List.getElem?_eq_getElem (h ▸ room)⟩

/-! ## What the quarantine leaves -/

theorem State.slotDamaged_sweeps (s : State) (r : RecordId) : s.sweeps (s.slotDamaged r) := by
  unfold State.slotDamaged
  cases r.table <;> rfl

/-- The quarantine of a lone damaged record, as the change of the record memory that it is. -/
theorem State.quarantine_sweeps {s : State} {r : RecordId} {a : Nat} (hs : s.service = .faultHandling)
    (hsnap : s.snapshot = some ⟨r, a⟩) (hb : s.badCodes = [r]) : ∃ u v, s.saveGoesOn.sweeps u ∧ u = s.saveGoesOn.swept r ∧
      v = ({ u.slotDamaged r with service := .inService, badCodes := [] } : State) ∧ v.sweeps s.endQuarantine ∧
      v.damageStays s.endQuarantine ∧ s.endQuarantine.units = v.units ∧ s.endQuarantine.operators = v.operators := by
  have swept : s.saveGoesOn.sweeps (s.saveGoesOn.swept r) := (Sweeping.sweeps r _).swept (State.sweeps.refl _)
  have damaged := swept.trans ((s.saveGoesOn.swept r).slotDamaged_sweeps r)
  obtain ⟨p, ws, d, e⟩ := s.saveGoesOn_frame
  have codes : ((s.saveGoesOn.swept r).slotDamaged r).badCodes = [r] := damaged.badCodes.trans (by rw [e]; exact hb)
  rw [State.endQuarantine_lone hs hsnap hb, State.returnToService_eq codes]
  exact ⟨_, _, swept, rfl, rfl, (Working.sweeps _).engineResumes ((Working.sweeps _).windowsResume (State.sweeps.refl _)),
    (Working.damageStays _).engineResumes ((Working.damageStays _).windowsResume (State.damageStays.refl _)),
    State.resumes_units _⟩

/-- The slot takes state Damaged, with the one reason (R181; log 32). -/
theorem State.slotDamaged_slot (s : State) {r : RecordId} :
    (r.table = .window → (s.slotDamaged r).windows.slot r.key = some (.damaged [6])) ∧
      (r.table = .carrier → (s.slotDamaged r).carriers.slot r.key = some (.damaged [15])) ∧
      (r.table = .station → (s.slotDamaged r).stations.slot r.key = some (.damaged [25])) ∧
      (r.table = .gallery → (s.slotDamaged r).galleries.slot r.key = some (.damaged [6])) ∧
      (r.table = .conference → (s.slotDamaged r).conferences.slot r.key = some (.damaged [9])) := by
  have self : ∀ {α : Type} (t : Table α) (m : List Nat), (t.damage r.key m).slot r.key = some (.damaged m) := fun t m =>
    (Table.slot_damage t r.key m r.key).trans (if_pos rfl)
  unfold State.slotDamaged
  refine ⟨fun h => ?_, fun h => ?_, fun h => ?_, fun h => ?_, fun h => ?_⟩ <;> rw [h] <;> exact self _ _

theorem State.slotDamaged_unit {s : State} {r : RecordId} (h : r.table = .unit) {v : LineUnit} (hv : s.unitAt r.key = some v) :
    (s.slotDamaged r).unitAt r.key = some ⟨none, .absent, 0, [6]⟩ := by
  unfold State.slotDamaged
  rw [h]
  dsimp only
  rw [State.modUnit_set hv]
  exact State.unitAt_set hv _

theorem State.slotDamaged_operators (s : State) (r : RecordId) : (s.slotDamaged r).operators = s.operators := by
  unfold State.slotDamaged
  cases r.table <;> rfl

/-! ## An item of the record under quarantine -/

theorem slotAt_none {α : Type} {l : List (Nat × Slot α)} {j : Nat} (h : slotAt l j = none) : ∀ p ∈ l, p.1 ≠ j := by
  induction l with
  | nil => exact fun p hp => absurd hp List.not_mem_nil
  | cons q rest ih =>
    obtain ⟨k, x⟩ := q
    unfold slotAt at h
    split at h
    · cases h
    · rename_i hj
      intro p hp
      rcases List.mem_cons.1 hp with rfl | hp
      · exact fun e => hj e.symm
      · exact ih h p hp

/-- A slot put as it stands changes nothing. -/
theorem slotPut_slotAt {α : Type} {l : List (Nat × Slot α)} (rises : (l.map (·.1)).Pairwise (· < ·)) {j : Nat} {x : Slot α}
    (h : slotAt l j = some x) : slotPut l j x = l := by
  induction l with
  | nil => cases h
  | cons q rest ih =>
    obtain ⟨k, z⟩ := q
    simp only [List.map_cons, List.pairwise_cons] at rises
    unfold slotAt at h
    split at h
    · rename_i hj
      cases h
      rw [slotPut, if_neg (by omega), if_pos hj]
    · rename_i hj
      have above : k < j := rises.1 j (List.mem_map_of_mem (f := (·.1)) (mem_of_slotAt h))
      rw [slotPut, if_neg (by omega), if_neg hj, ih rises.2 h]

theorem filter_slotPut {α : Type} (l : List (Nat × Slot α)) (j : Nat) (y : Slot α) :
    (slotPut l j y).filter (fun p => p.1 != j) = l.filter (fun p => p.1 != j) := by
  induction l with
  | nil => simp [slotPut]
  | cons q rest ih =>
    obtain ⟨k, z⟩ := q
    unfold slotPut
    split
    · simp
    · split
      · rename_i hj
        simp [hj]
      · simp only [List.filter_cons, ih]

/-- A slot that is damaged and copied back is as it was. -/
theorem Table.copySlot_damage {α : Type} {t : Table α} (h : t.wf = true) (k : Nat) (m : List Nat) :
    (t.damage k m).copySlot t k = t := by
  unfold Table.copySlot Table.damage
  cases held : t.slot k with
  | some x =>
    dsimp only
    rw [slotPut_slotPut, slotPut_slotAt ((Table.wf_iff t).1 h) held]
  | none =>
    dsimp only
    rw [filter_slotPut, List.filter_eq_self.2 (fun p hp => by simpa using slotAt_none held p hp)]

theorem State.quarantined_lone {s : State} {r : RecordId} {a : Nat} (hs : s.service = .faultHandling)
    (hsnap : s.snapshot = some ⟨r, a⟩) (hr : r.table ≠ .part) (hb : s.badCodes = [r]) : s.quarantined = some r := by
  unfold State.quarantined
  rw [hs, hsnap]
  simp [hb, hr]

/-- A QUALITY item that names the station under quarantine is a Bad Item (R181). -/
theorem State.beside_takeQuality {s : State} {k : Nat} (hq : s.quarantined = some ⟨.station, k⟩) (hwf : s.stations.wf = true)
    (a c q : Nat) : s.beside (State.takeQuality · a k c q) = s.badItem a := by
  have veiled : (s.veil ⟨.station, k⟩).station k = none :=
    (Table.get_damage s.stations k [] k).trans (if_pos rfl)
  have bad : (s.veil ⟨.station, k⟩).takeQuality a k c q = (s.veil ⟨.station, k⟩).badItem a := by
    unfold State.takeQuality
    rw [veiled]
    simp
  unfold State.beside
  rw [hq]
  dsimp only
  rw [bad]
  exact congrArg (fun m => { s.badItem a with stations := m }) (Table.copySlot_damage hwf k [])

/-- The answer of a Present unit, one QUALITY item that names the station under quarantine (R181). -/
theorem State.pollIsAnswered_veiled {s : State} {a k c q : Nat} {u : LineUnit} (hs : s.service = .faultHandling)
    (hq : s.quarantined = some ⟨.station, k⟩) (hwf : s.stations.wf = true) (hu : s.unitAt a = some u) (hp : u.state = .present)
    (hk : u.kind = some .rx) (hk96 : k < 65536) (hc : c < 65536) (hn : q < 65536) :
    s.pollIsAnswered a ⟨some .rx, [1#16, wordOf k, wordOf c, wordOf q]⟩ =
      { s with units := s.units.set (a - 1) { u with missed := 0, mark := addReason 5 u.mark } } := by
  have state : s.unitState a = .present := by simp only [State.unitState, hu, hp]
  have kind : s.unitKind a = some .rx := by simp only [State.unitKind, hu, Option.bind_some, hk]
  have item : parseItem a [1#16, wordOf k, wordOf c, wordOf q] = some ((State.takeQuality · a k c q), []) := by
    simp only [parseItem, List.map_cons, List.map_nil, toNat_wordOf hk96, toNat_wordOf hc, toNat_wordOf hn]
    rfl
  have set := State.modUnit_set hu (fun v => { v with missed := 0 })
  have noted : State.unitAt { s with units := s.units.set (a - 1) { u with missed := 0 } } a = some { u with missed := 0 } :=
    State.unitAt_set hu _
  have taken := State.beside_takeQuality (s := { s with units := s.units.set (a - 1) { u with missed := 0 } }) hq hwf a c q
  have bad : State.badItem { s with units := s.units.set (a - 1) { u with missed := 0 } } a =
      { s with units := s.units.set (a - 1) { u with missed := 0, mark := addReason 5 u.mark } } := by
    refine (State.modUnit_set noted _).trans ?_
    dsimp only
    rw [List.set_set]
    rfl
  unfold State.pollIsAnswered
  rw [if_neg (by rw [hq]; exact fun e => nomatch congrArg RecordId.table (Option.some.inj e)), state]
  dsimp only
  rw [if_pos kind, set]
  unfold takeItems
  rw [item]
  dsimp only
  rw [taken, bad, if_neg (by rw [hs]; nofun)]
  rfl

theorem State.afterLine_unpaused {s : State} (h : s.load = .none) : s.afterLine = s := by
  unfold State.afterLine
  rw [h]

theorem State.pollAnswer_veiled {s : State} {a seq k c q n : Nat} {u : LineUnit} (hs : s.service = .faultHandling)
    (hl : s.load = .none) (hsnap : s.snapshot = some ⟨⟨.station, k⟩, n⟩) (hb : s.badCodes = [⟨.station, k⟩])
    (hwf : s.stations.wf = true) (ha : a ≤ 32) (hseq : seq < 256) (hk96 : k < 65536) (hc : c < 65536) (hn : q < 65536)
    (line : s.line = some ⟨.poll a, seq⟩) (hu : s.unitAt a = some u) (hp : u.state = .present) (hk : u.kind = some .rx) :
    s.pollAnswer (unitFrame (.poll a) seq .rx [1#16, wordOf k, wordOf c, wordOf q]) =
      s.unitNoted a { u with missed := 0, mark := addReason 5 u.mark } := by
  have unread : s.endTransaction.firstBad (unitReads a) = none :=
    State.firstBad_quarantined (s := s.endTransaction) hs hsnap nofun hb _
  have quarantined : s.endTransaction.quarantined = some ⟨.station, k⟩ :=
    State.quarantined_lone (s := s.endTransaction) hs hsnap nofun hb
  unfold State.pollAnswer
  rw [line]
  dsimp only
  rw [Transaction.matching_unitFrame (.poll a) seq .rx [1#16, wordOf k, wordOf c, wordOf q] ha hseq (by simp)]
  dsimp only
  unfold State.reading
  rw [unread]
  dsimp only
  rw [State.pollIsAnswered_veiled (s := s.endTransaction) hs quarantined hwf hu hp hk hk96 hc hn]
  exact State.afterLine_unpaused (s := s.unitNoted a { u with missed := 0, mark := addReason 5 u.mark }) hl

end Sys2Proof.Machine

namespace Sys2Proof
open Machine

/-- Settles O59. -/
theorem faultsAndQuarantine : Obligations.FaultsAndQuarantine := by
  refine ⟨?_, ?_, ?_, ?_, ?_, ?_⟩
  · intro c o s hc hn hp ht hs hport hd hb hh
    obtain ⟨reads, tests, accept, he, hr⟩ := aimedAs_order hc hn hp s
    rw [ht, State.gate_damaged (countTakes_le ht) hs hport hd hp hb hh hr] at he
    obtain ⟨t, begun, frame⟩ := s.beginFault_process o (9 + 2 * o.params.length) ⟨(orderVerb c).1, keyOf o⟩
      (Activity.order (orderVerb c).1 (orderVerb c).2)
    rw [begun] at he
    exact ⟨t, he, frame⟩
  · intro o s hs hp hsave hl hlen hb
    refine congrArg Host.Outcome.next ((State.readAttention_damaged hs hp hlen hb).trans
      ((State.halt_process hsave o _ _ _).trans ?_))
    rw [State.haltSnapshot_new (.inr (.inl hs))]
    rfl
  · intro r a s hs hl hsnap hb
    obtain ⟨u, v, swept, hu, hv, back, stays, units, operators⟩ := State.quarantine_sweeps hs hsnap hb
    obtain ⟨p, ws, d, e⟩ := s.saveGoesOn_frame
    have damaged := swept.trans (u.slotDamaged_sweeps r)
    obtain ⟨windows, carriers, stations, galleries, conferences⟩ := u.slotDamaged_slot (r := r)
    rw [hv] at back stays units operators
    rw [e] at damaged swept
    refine ⟨_, rfl, back.service, back.badCodes, back.snapshot.trans damaged.snapshot, decide_eq_true back.service,
      back.clock.trans damaged.clock, back.settings.trans damaged.settings, back.storeStates.trans damaged.storeStates,
      back.port.trans damaged.port, fun ht => stays.windows _ _ (windows ht), fun ht => stays.carriers _ _ (carriers ht),
      fun ht => stays.stations _ _ (stations ht), fun ht => stays.galleries _ _ (galleries ht),
      fun ht => stays.conferences _ _ (conferences ht), fun x ht hx => ?_, fun ht => ?_, fun ht => ?_⟩
    · have count : u.units.length = s.units.length := by
        rw [hu]
        exact (Sweeping.unitCount r s.units.length).swept (by rw [e])
      obtain ⟨y, hy⟩ := State.unitAt_isSome count hx
      have same : s.endQuarantine.unitAt r.key = (u.slotDamaged r).unitAt r.key := by
        unfold State.unitAt
        rw [units]
      exact same.trans (State.slotDamaged_unit ht hy)
    · rw [operators]
      refine (u.slotDamaged_operators r).trans ?_
      rw [hu, State.swept_operator _ ht, e]
      rfl
    · rw [operators]
      refine (u.slotDamaged_operators r).trans ?_
      rw [hu]
      exact (Sweeping.operators ht s.operators).swept (by rw [e])
  · rintro r a s hs hsave hsnap hr ⟨q, hb, hq, hh, searched⟩
    obtain ⟨service, snapshot, line, latched⟩ := State.quarantine_halts hs hsave hsnap hr hb hq hh searched
    exact ⟨_, rfl, service, snapshot, line, latched, decide_eq_false (by rw [service]; nofun)⟩
  · intro a seq k c q n s u hs hl hsnap hb hwf h1 h32 hseq hk hc hq line hu hp hkind
    exact congrArg Host.Outcome.next (State.pollAnswer_veiled hs hl hsnap hb hwf h32 hseq (by omega) (by omega) (by omega)
      line hu hp hkind)
  · intro o s hp hps hb hsave
    refine ⟨_, congrArg Host.Outcome.next (State.readPart_halts hp hps hb hsave), rfl, rfl, rfl,
      fun h => State.haltSnapshot_new h _, fun h => State.haltSnapshot_kept h _, rfl⟩

end Sys2Proof
end

section
/-! What every step keeps (State.Inv): the work of the blocks keeps it. -/

namespace Sys2Proof.Machine

/-! ## The Directive Queue -/

/-- The Directive Queue alone fits: 64 entries, no two of one key, each sent 0 to 3 times (R151). -/
def queueFits (q : List Entry) : Prop :=
  q.length ≤ Config.directiveQueueSize ∧ (q.map Entry.key).Nodup ∧ ∀ e ∈ q, e.attempts ≤ 3

theorem queueFits_filter {q : List Entry} (h : queueFits q) (p : Entry → Bool) : queueFits (q.filter p) := by
  obtain ⟨room, keys, sends⟩ := h
  exact ⟨(List.length_filter_le p q).trans room, keys.sublist (List.filter_sublist.map _),
    fun e he => sends e (List.mem_filter.1 he).1⟩

/-- A change of entries that keeps their keys, and their attempts within 3. -/
theorem queueFits_map {q : List Entry} (h : queueFits q) {f : Entry → Entry} (hk : ∀ e, (f e).key = e.key)
    (ha : ∀ e, e.attempts ≤ 3 → (f e).attempts ≤ 3) : queueFits (q.map f) := by
  obtain ⟨room, keys, sends⟩ := h
  refine ⟨by rwa [List.length_map], ?_, fun e he => ?_⟩
  · rw [List.map_map, show Entry.key ∘ f = Entry.key from funext hk]
    exact keys
  · obtain ⟨x, hx, rfl⟩ := List.mem_map.1 he
    exact ha x (sends x hx)

theorem Entry.key_of_has {e : Entry} {u : Nat} {kd : DeliveryKind} {k : Nat} : e.has u kd k = true ↔ e.key = (u, kd, k) := by
  simp [Entry.has, Entry.key, and_assoc]

theorem Queued.fits {kd : DeliveryKind} {k : Nat} {q r : List Entry} (hq : Queued kd k q r) (h : queueFits q) : queueFits r := by
  cases hq with
  | same => exact h
  | replaced u c =>
    refine queueFits_map h (fun e => ?_) (fun e he => ?_)
    · split <;> rfl
    · split
      · exact Nat.zero_le _
      · exact he
  | appended u c new room =>
    obtain ⟨-, keys, sends⟩ := h
    refine ⟨by rw [List.length_append]; exact room, ?_, fun e he => ?_⟩
    · rw [List.map_append, List.nodup_append]
      refine ⟨keys, List.nodup_singleton _, fun a ha b hb => ?_⟩
      obtain ⟨e, he, rfl⟩ := List.mem_map.1 ha
      rw [List.map_singleton, List.mem_singleton] at hb
      subst hb
      intro same
      have free := new e he
      rw [Entry.key_of_has.2 same] at free
      cases free
    · rcases List.mem_append.1 he with he | he
      · exact sends e he
      · rw [List.mem_singleton] at he
        rw [he]
        exact Nat.zero_le _

/-! ## Tables, and the rest -/

theorem Decides.tablesInOrder : Decides State.tablesInOrder where
  station := fun _ _ _ ⟨w, c, s, g, f⟩ => ⟨w, c, Table.wf_modify s _ _, g, f⟩
  conference := fun _ _ ⟨w, c, s, g, f⟩ => ⟨w, c, s, g, Table.wf_modify f _ _⟩
  withQueue h := h
  withFinals h := h

/-- The invariant, taken apart. -/
theorem State.inv_iff (s : State) : s.Inv ↔ s.store.wf ∧ s.tablesInOrder ∧ s.checkQueue.length ≤ Config.checkQueueSize ∧
    queueFits s.queue ∧ s.fixedRecords ∧ s.sequence < 256 := by
  unfold State.Inv State.queuesFit queueFits
  tauto

theorem State.Inv.withTables {s : State} (h : s.Inv) {w : Table Window} {c : Table Carrier} {x : Table Station} {g : Table Gallery}
    {f : Table Conference} (hw : w.wf) (hc : c.wf) (hx : x.wf) (hg : g.wf) (hf : f.wf) :
    State.Inv { s with windows := w, carriers := c, stations := x, galleries := g, conferences := f } :=
  ⟨h.1, ⟨hw, hc, hx, hg, hf⟩, h.2.2⟩

theorem State.Inv.withQueue {s : State} (h : s.Inv) {q : List Entry} (hq : queueFits q) : State.Inv { s with queue := q } := by
  obtain ⟨store, tables, checks, -, fixed, sequence⟩ := (State.inv_iff s).1 h
  exact (State.inv_iff _).2 ⟨store, tables, checks, hq, fixed, sequence⟩

theorem State.Inv.queue {s : State} (h : s.Inv) : queueFits s.queue := ((State.inv_iff s).1 h).2.2.2.1

theorem State.Inv.tables {s : State} (h : s.Inv) : s.tablesInOrder := h.2.1

theorem State.Inv.decideDelivery {s : State} (h : s.Inv) (kd : DeliveryKind) (k : Nat) : (s.decideDelivery kd k).Inv := by
  obtain ⟨store, tables, checks, queue, ⟨ops, full, units⟩, sequence⟩ := (State.inv_iff s).1 h
  have only := (Only.broad s).soft.decideDelivery (Only.refl s) kd k
  have machine := only.sameMachine
  refine (State.inv_iff _).2 ⟨?_, Decides.tablesInOrder.decideDelivery tables kd k, ?_, (s.decideDelivery_queued kd k).fits queue,
    ⟨?_, ?_, ?_⟩, ?_⟩
  · rw [machine.store]
    exact store
  · rw [only.checkQueue]
    exact checks
  · rw [machine.operators]
    exact ops
  · unfold State.operatorAt
    rw [machine.operators]
    exact full
  · rw [machine.units]
    exact units
  · rw [machine.sequence]
    exact sequence

theorem State.modUnit_count (s : State) (a : Nat) (f : LineUnit → LineUnit) : (s.modUnit a f).units.length = s.units.length := by
  unfold State.modUnit
  dsimp only
  split
  · rfl
  · exact List.length_modify _ _ _

/-- The work of the blocks keeps the invariant. -/
theorem Working.inv : Working State.Inv where
  modWindow h := ⟨h.1, ⟨Table.wf_modify h.tables.1 _ _, h.tables.2⟩, h.2.2⟩
  modCarrier := fun ⟨store, ⟨w, c, rest⟩, others⟩ => ⟨store, ⟨w, Table.wf_modify c _ _, rest⟩, others⟩
  modStation := fun ⟨store, ⟨w, c, x, rest⟩, others⟩ => ⟨store, ⟨w, c, Table.wf_modify x _ _, rest⟩, others⟩
  modGallery := fun ⟨store, ⟨w, c, x, g, f⟩, others⟩ => ⟨store, ⟨w, c, x, Table.wf_modify g _ _, f⟩, others⟩
  modConference := fun ⟨store, ⟨w, c, x, g, f⟩, others⟩ => ⟨store, ⟨w, c, x, g, Table.wf_modify f _ _⟩, others⟩
  modUnit := fun {s k f} ⟨store, tables, queues, ⟨ops, full, units⟩, sequence⟩ =>
    ⟨store, tables, queues, ⟨ops, full, (s.modUnit_count k f).trans units⟩, sequence⟩
  decide kd k h := h.decideDelivery kd k
  withFinals h := h
  filterQueue p h := h.withQueue (queueFits_filter h.queue p)
  detach p h := h.withQueue (queueFits_map h.queue (fun e => by split <;> rfl) (fun e he => by split <;> exact he))
  withChecks := fun shorter ⟨store, tables, ⟨checks, queue⟩, rest⟩ => ⟨store, tables, ⟨shorter.trans checks, queue⟩, rest⟩

/-! ## Faults -/

theorem State.Inv.saveGoesOn {s : State} (h : s.Inv) : s.saveGoesOn.Inv := by
  obtain ⟨p, ws, d, e⟩ := s.saveGoesOn_frame
  rw [e]
  exact h

theorem State.Inv.withStore {s : State} (h : s.Inv) {m : Memory} (hm : m.wf) : State.Inv { s with store := m } := ⟨hm, h.2⟩

theorem State.Inv.abandonSave {s : State} (h : s.Inv) : s.abandonSave.Inv := by
  unfold State.abandonSave
  split
  · exact h.withStore (Memory.wf_writeAll (Memory.wf_write h.1 _ _) _)
  · exact h

theorem State.Inv.answerBroken {s : State} (h : s.Inv) (n : Nat) : (s.answerBroken n).Inv := by
  unfold State.answerBroken
  cases s.port <;> exact h

theorem State.Inv.halt {s : State} (h : s.Inv) (r : RecordId) (a : Nat) : (s.halt r a).Inv := by
  have saved : State.Inv (if s.saving then s.abandonSave.saveLost else s) := by
    split
    · exact h.abandonSave
    · exact h
  unfold State.halt
  exact State.Inv.answerBroken (s := { (if s.saving then s.abandonSave.saveLost else s) with
    service := .halted, load := .none, line := none, snapshot := s.haltSnapshot ⟨r, a⟩ }) saved 3

theorem State.Inv.checkFailure {s : State} (h : s.Inv) (r : RecordId) (a : Nat) : (s.checkFailure r a).Inv := by
  unfold State.checkFailure State.beginFault
  split
  · exact State.Inv.answerBroken (s := { s.saveGoesOn with
      service := .faultHandling, load := .none, snapshot := some ⟨r, a⟩ }) h.saveGoesOn 2
  · exact h.halt r a

theorem State.Inv.reading {s : State} (h : s.Inv) {f : State → State} (hf : (f s).Inv) (a : Nat) (reads : RecordId → Bool) :
    (s.reading a reads f).Inv := by
  rcases s.reading_cases a reads f with e | ⟨r, -, e⟩
  · rw [e]
    exact hf
  · rw [e]
    exact h.checkFailure r a

theorem State.Inv.touchingWith {s : State} (h : s.Inv) {f : State → State} (hf : (f s).Inv) (a : Nat)
    (more : State → RecordId → Bool) : (s.touchingWith a more f).Inv := by
  rcases s.touchingWith_cases a more f with e | ⟨r, e⟩ | ⟨r, e⟩
  · rw [e]
    exact hf
  · rw [e]
    exact hf.checkFailure r _
  · rw [e]
    exact h.checkFailure r a

theorem State.Inv.touching {s : State} (h : s.Inv) {f : State → State} (hf : (f s).Inv) (a : Nat) : (s.touching a f).Inv :=
  h.touchingWith hf a _

theorem State.Inv.acting {s : State} (h : s.Inv) {f : State → State} (hf : (f s).Inv) (a : Nat) (reads : RecordId → Bool) :
    (s.acting a reads f).Inv := h.reading (f := (·.touching a f)) (h.touching hf a) a reads

theorem State.Inv.checkBegun {s : State} (h : s.Inv) : s.checkBegun.Inv := by
  rcases s.checkBegun_cases with e | ⟨r, e⟩
  · rw [e]
    exact h
  · rw [e]
    exact h.checkFailure r _

/-! ## The record under quarantine -/

theorem Table.wf_copySlot {α : Type} {t : Table α} (h : t.wf) (u : Table α) (k : Nat) : (t.copySlot u k).wf := by
  unfold Table.copySlot
  split
  · exact (Table.wf_iff _).2 (slotPut_rises _ _ _ ((Table.wf_iff t).1 h))
  · exact Table.wf_erase h k

theorem State.Inv.veil {s : State} (h : s.Inv) (r : RecordId) : (s.veil r).Inv := by
  obtain ⟨w, c, x, g, f⟩ := h.tables
  unfold State.veil
  cases r.table with
  | window => exact h.withTables (Table.wf_damage w _ _) c x g f
  | carrier => exact h.withTables w (Table.wf_damage c _ _) x g f
  | station => exact h.withTables w c (Table.wf_damage x _ _) g f
  | gallery => exact h.withTables w c x (Table.wf_damage g _ _) f
  | conference => exact h.withTables w c x g (Table.wf_damage f _ _)
  | unit => exact Working.inv.modUnit h
  | operator | part => exact h

theorem State.Inv.unveil {t : State} (h : t.Inv) (s : State) (r : RecordId) : (t.unveil s r).Inv := by
  obtain ⟨w, c, x, g, f⟩ := h.tables
  unfold State.unveil
  cases r.table with
  | window => exact h.withTables (Table.wf_copySlot w _ _) c x g f
  | carrier => exact h.withTables w (Table.wf_copySlot c _ _) x g f
  | station => exact h.withTables w c (Table.wf_copySlot x _ _) g f
  | gallery => exact h.withTables w c x (Table.wf_copySlot g _ _) f
  | conference => exact h.withTables w c x g (Table.wf_copySlot f _ _)
  | unit =>
    dsimp only
    split
    · exact Working.inv.modUnit h
    · exact h
  | operator | part => exact h

theorem State.Inv.beside {s : State} (h : s.Inv) {f : State → State} (hf : ∀ t : State, t.Inv → (f t).Inv) : (s.beside f).Inv := by
  unfold State.beside
  split
  · exact (hf _ (h.veil _)).unveil s _
  · exact hf s h

end Sys2Proof.Machine
end

section
/-! What every step keeps (State.Inv): timers, the line and the quarantine. -/

namespace Sys2Proof.Machine

/-! ## Timers -/

theorem State.Inv.timer {s : State} (h : s.Inv) {f : State → State} (hf : ∀ t : State, t.Inv → (f t).Inv) (roots : List RecordId) :
    (s.timer roots f).Inv := by
  unfold State.timer
  split
  · exact h.beside (fun t ht => ht.acting (hf t ht) _ _)
  · exact h

theorem State.Inv.evaluateAll {s : State} (h : s.Inv) : s.evaluateAll.Inv := Working.inv.evaluate h false (upTo 16)

theorem State.Inv.clockAdvances {s : State} (h : s.Inv) : s.clockAdvances.Inv := by
  have advanced : State.Inv { s with clock := s.clock.advance } := h
  unfold State.clockAdvances State.readingPart
  generalize ({ s with clock := s.clock.advance } : State) = t at advanced ⊢
  split
  · exact h
  · refine advanced.reading ?_ _ _
    split
    · exact advanced.acting advanced.evaluateAll _ _
    · exact advanced

theorem State.Inv.graceRunsOut {s : State} (h : s.Inv) (w : Nat) : (s.graceRunsOut w).Inv := by
  unfold State.graceRunsOut
  split
  · exact h
  · split
    · split
      · exact Working.inv.expireWindow h w
      · exact Working.inv.modWindow h
      · exact h
      · exact h
    · exact h

theorem State.Inv.graceEnds {s : State} (h : s.Inv) (w : Nat) : (s.graceEnds w).Inv := by
  unfold State.graceEnds
  split
  · split
    · exact h
    · exact h.graceRunsOut w
  · exact h.timer (fun t ht => ht.graceRunsOut w) _

theorem State.Inv.checkEnds {s : State} (h : s.Inv) : s.checkEnds.Inv := by
  unfold State.checkEnds
  split
  · exact h
  · split
    · exact h.acting (Working.inv.endOfCheck h) _ _
    · exact h

theorem State.Inv.callRunsOut {s : State} (h : s.Inv) (k : Nat) : (s.callRunsOut k).Inv := by
  unfold State.callRunsOut State.endCall
  split
  · exact h
  · split
    · exact Working.inv.markStation (Working.inv.cueing.recomputeLamps (Working.inv.modStation h) _) _ _
    · exact h

theorem State.Inv.cueRunsOut {s : State} (h : s.Inv) (k : Nat) (src : Source) : (s.cueRunsOut k src).Inv := by
  unfold State.cueRunsOut
  split
  · exact h
  · split
    · exact Working.inv.markStation (Working.inv.cueing.cueRelease h _ _) _ _
    · exact h

/-! ## The tick -/

theorem State.Inv.tick {s : State} (h : s.Inv) : s.tick.Inv := by
  have clocked : s.tickClock.Inv := by
    unfold State.tickClock
    split
    · exact h
    · dsimp only
      split
      · exact h
      · exact h
  have timed : s.tickClock.tickTimers.Inv := by
    unfold State.tickTimers
    split
    · obtain ⟨w, c, x, g, f⟩ := clocked.tables
      exact clocked.withTables (Table.wf_map w _) (Table.wf_map c _) (Table.wf_map x _) g f
    · exact clocked
  have upset : ∀ r, (s.tickClock.tickTimers.upsetRecord r).Inv := by
    intro r
    unfold State.upsetRecord
    split
    · exact timed.saveGoesOn
    · exact timed
  unfold State.tick State.tickUpset
  dsimp only
  split
  · exact upset _
  · exact timed

/-! ## Transactions -/

theorem State.Inv.transact {s : State} (h : s.Inv) (ask : Ask) : (s.transact ask).Inv := by
  obtain ⟨store, tables, queues, fixed, -⟩ := h
  exact ⟨store, tables, queues, fixed, Nat.mod_lt _ (by omega)⟩

theorem State.Inv.sendPoll {s : State} (h : s.Inv) : s.sendPoll.Inv := by
  unfold State.sendPoll
  split
  · split
    · rename_i a rest _
      exact State.Inv.transact (s := { s with round := rest, turn := .directive }) h _
    · exact h
  · exact h

theorem State.Inv.sendDiscover {s : State} (h : s.Inv) : s.sendDiscover.Inv := by
  unfold State.sendDiscover
  split
  · split
    · rename_i a rest _
      exact State.Inv.transact (s := { s with round := rest, turn := .directive, lastDiscover := a }) h _
    · exact h
  · exact h

theorem State.Inv.sendDirective {s : State} (h : s.Inv) : s.sendDirective.Inv := by
  unfold State.sendDirective
  split
  · split
    · exact h
    · rename_i e _
      have sent := queueFits_map h.queue (f := fun x => if x.has e.unit e.kind e.target then x.resent else x)
        (fun x => by split <;> rfl) (fun x hx => by
          split
          · exact Nat.min_le_left _ _
          · exact hx)
      exact h.reading (State.Inv.transact (s := { s with turn := .poll, queue := _ }) (h.withQueue sent) _) _ _
  · exact h

/-! ## RELOAD PLAN -/

theorem State.Inv.emptyPlan {s : State} (h : s.Inv) : s.emptyPlan.Inv := by
  obtain ⟨store, -, ⟨-, queue⟩, ⟨-, -, units⟩, sequence⟩ := h
  exact ⟨store, ⟨rfl, rfl, rfl, rfl, rfl⟩, ⟨Nat.zero_le _, queue⟩, ⟨rfl, rfl, units⟩, sequence⟩

theorem State.Inv.startReload {s : State} (h : s.Inv) (key : Word) : (s.startReload key).Inv := h.emptyPlan

theorem State.Inv.afterLine {s : State} (h : s.Inv) : s.afterLine.Inv := by
  unfold State.afterLine
  split
  · rename_i key _
    split
    · exact h.reading (f := (·.startReload key)) (h.startReload key) _ _
    · exact h
  · exact h
  · exact h
  · exact h
  · exact h

/-! ## Units -/

theorem State.Inv.redeliver {s : State} (h : s.Inv) (a : Nat) : (s.redeliver a).Inv := by
  have reset : (s.resetUndelivered a).Inv := by
    obtain ⟨w, c, x, g, f⟩ := h.tables
    unfold State.resetUndelivered
    refine h.withTables w c (Table.wf_map x _) g ?_
    split
    · exact Table.wf_map f _
    · exact f
  refine Working.inv.fillQueue (State.forEach_keeps reset _ (fun t p ht => ?_))
  split
  · split
    · exact ht.decideDelivery _ _
    · exact ht
  · exact ht

theorem State.Inv.unitFound {s : State} (h : s.Inv) (a : Nat) (k : Option UnitKind) : (s.unitFound a k).Inv := by
  unfold State.unitFound
  split
  · exact State.Inv.redeliver (Working.inv.markUnit (Working.inv.modUnit h) _ _) a
  · exact h

theorem State.Inv.unitReturned {s : State} (h : s.Inv) (a : Nat) (k : Option UnitKind) : (s.unitReturned a k).Inv := by
  have noted := Working.inv.markUnit (Working.inv.modUnit (k := a)
    (f := fun u => { u with state := .present, kind := k, missed := 0 }) h) a UnitReason.returned
  unfold State.unitReturned
  refine State.Inv.redeliver ?_ a
  split
  · exact Working.inv.markUnit noted _ _
  · exact noted

theorem State.Inv.missPoll {s : State} (h : s.Inv) (a : Nat) : (s.missPoll a).Inv := by
  unfold State.missPoll
  split
  · exact h
  · split
    · exact h
    · exact h
    · split
      · exact Working.inv.unitLost h a
      · exact Working.inv.modUnit h

theorem State.Inv.directiveDone {s : State} (h : s.Inv) (a : Nat) (kd : DeliveryKind) (k : Nat) (c : Content) :
    (s.directiveDone a kd k c).Inv := by
  have delivered := Working.inv.setDelivered h kd k c
  unfold State.directiveDone
  split
  · exact h
  · split
    · exact Working.inv.removeEntries h _
    · split
      · exact Working.inv.removeEntries (Working.inv.setBase delivered _ _ _) _
      · exact delivered

theorem State.Inv.directiveMissed {s : State} (h : s.Inv) (a : Nat) (kd : DeliveryKind) (k : Nat) :
    (s.directiveMissed a kd k).Inv := by
  unfold State.directiveMissed
  split
  · exact h
  · split
    · exact Working.inv.unitLost h a
    · exact h

/-! ## Report items -/

theorem State.Inv.badItem {s : State} (h : s.Inv) (a : Nat) : (s.badItem a).Inv := Working.inv.markUnit h _ _

theorem State.Inv.item {s : State} (h : s.Inv) {f : State → State} (hf : (f s).Inv) (a : Nat) (names : List RecordId) :
    (s.item a names f).Inv := h.acting hf _ _

theorem State.Inv.takeQuality {s : State} (h : s.Inv) (a k c q : Nat) : (s.takeQuality a k c q).Inv := by
  unfold State.takeQuality
  split
  · exact h.item (Working.inv.qualityItem h _ _ _) _ _
  · exact h.badItem a

theorem State.Inv.takeClean {s : State} (h : s.Inv) (a c n : Nat) : (s.takeClean a c n).Inv := by
  unfold State.takeClean
  split
  · exact h.item (Working.inv.cleanItem h _ _) _ _
  · exact h.badItem a

theorem State.Inv.takeTuned {s : State} (h : s.Inv) (a k token outcome : Nat) : (s.takeTuned a k token outcome).Inv := by
  unfold State.takeTuned
  split
  · exact h.item (Working.inv.tunedItem h _ _ _ _) _ _
  · exact h.badItem a

theorem State.Inv.takeTally {s : State} (h : s.Inv) (a g live p q : Nat) (sources : List Nat) :
    (s.takeTally a g live p q sources).Inv := by
  unfold State.takeTally
  split
  · refine h.reading ?_ _ _
    split
    · exact h.item (Working.inv.tallyItem h _ _ _ _) _ _
    · exact h.badItem a
  · exact h.badItem a

theorem State.Inv.takeTalk {s : State} (h : s.Inv) (a : Nat) (src : Source) (target action : Nat) :
    (s.takeTalk a src target action).Inv := by
  have keyed : (if action = 1 then s.talkPress target src else s.talkRelease target src).Inv := by
    split
    · exact Working.inv.talkPress h target src
    · exact Working.inv.talkRelease h target src
  unfold State.takeTalk
  split
  · exact h.item (f := fun s => if action = 1 then s.talkPress target src else s.talkRelease target src) keyed a _
  · exact h.badItem a

theorem State.Inv.takeCue {s : State} (h : s.Inv) (a : Nat) (src : Source) (target level action : Nat) :
    (s.takeCue a src target level action).Inv := by
  unfold State.takeCue
  split
  · exact h.item (f := (State.cueKey · target src (cueLevelOf level) (action = 1))) (Working.inv.cueKey h target src _ _) a _
  · exact h.badItem a

theorem State.Inv.takeCall {s : State} (h : s.Inv) (a : Nat) (src : Source) (target action : Nat) :
    (s.takeCall a src target action).Inv := by
  have keyed : (if action = 1 then s.callPress target else s).Inv := by
    split
    · exact Working.inv.callPress h target
    · exact h
  unfold State.takeCall
  split
  · exact h.item (f := fun s => if action = 1 then s.callPress target else s) keyed a _
  · exact h.badItem a

theorem State.Inv.takeAnswer {s : State} (h : s.Inv) (a : Nat) (src : Source) (action : Nat) : (s.takeAnswer a src action).Inv := by
  unfold State.takeAnswer
  cases src with
  | station k =>
    have keyed : (if action = 1 then s.answerPress k else s).Inv := by
      split
      · exact Working.inv.answerPress h k
      · exact h
    exact h.item (f := fun s => if action = 1 then s.answerPress k else s) keyed a _
  | port _ | operator _ => exact h.badItem a

theorem State.Inv.takeKey {s : State} (h : s.Inv) (a source kind target level action : Nat) :
    (s.takeKey a source kind target level action).Inv := by
  unfold State.takeKey
  split
  · exact h.badItem a
  · split
    · split
      · exact h.takeTalk _ _ _ _
      · exact h.takeCue _ _ _ _ _
      · exact h.takeCall _ _ _ _
      · exact h.takeAnswer _ _ _
      · exact h.badItem a
    · exact h.badItem a

theorem parseItem_inv {a : Nat} {body rest : List Word} {act : State → State} (hp : parseItem a body = some (act, rest))
    {s : State} (h : s.Inv) : (act s).Inv := by
  unfold parseItem at hp
  split at hp
  · cases hp
    exact h.takeQuality _ _ _ _
  · cases hp
    exact h.takeClean _ _ _
  · cases hp
    exact h.takeTuned _ _ _ _
  · split at hp
    · cases hp
      exact h.takeTally _ _ _ _ _ _
    · cases hp
  · cases hp
    exact h.takeKey _ _ _ _ _ _
  · cases hp

theorem takeItems_inv (a : Nat) : ∀ (n : Nat) (body : List Word) {s : State}, s.Inv → (takeItems a n body s).Inv
  | n, [], s, h => by
    unfold takeItems
    exact h
  | 0, _ :: _, s, h => h.badItem a
  | n + 1, w :: ws, s, h => by
    unfold takeItems
    split
    · exact h.badItem a
    · rename_i act rest hp
      have taken : (s.beside act).Inv := h.beside (fun t ht => parseItem_inv hp ht)
      dsimp only
      split
      · exact taken
      · exact takeItems_inv a n rest taken

theorem State.Inv.pollIsAnswered {s : State} (h : s.Inv) (a : Nat) (f : UnitFrame) : (s.pollIsAnswered a f).Inv := by
  unfold State.pollIsAnswered
  split
  · exact h
  · split
    · exact h
    · split
      · exact takeItems_inv a 8 f.body (Working.inv.modUnit h)
      · exact h.beside (fun t ht => ht.touching (f := fun s => (s.badItem a).missPoll a) ((ht.badItem a).missPoll a) _)
    · have returned := h.beside (f := fun t => t.touching Activity.item (State.unitReturned · a f.kind))
        (fun t ht => ht.touching (f := (State.unitReturned · a f.kind)) (ht.unitReturned a f.kind) _)
      dsimp only
      split
      · exact takeItems_inv a 8 f.body returned
      · exact returned

/-! ## The ends of transactions -/

theorem State.Inv.unitEvent {s : State} (h : s.Inv) {f : State → State} (hf : ∀ t : State, t.Inv → (f t).Inv) (a n : Nat) :
    (s.endTransaction.unitEvent a n f).Inv :=
  State.Inv.afterLine (State.Inv.beside (s := s.endTransaction) h (fun t ht => ht.acting (hf t ht) _ _))

theorem State.Inv.pollAnswer {s : State} (h : s.Inv) (bs : List Byte) : (s.pollAnswer bs).Inv := by
  unfold State.pollAnswer
  split
  · exact h
  · split
    · rename_i a f _ _
      exact State.Inv.afterLine (State.Inv.reading (s := s.endTransaction) h (State.Inv.pollIsAnswered (s := s.endTransaction) h a f) _ _)
    · exact h

theorem State.Inv.pollMiss {s : State} (h : s.Inv) : s.pollMiss.Inv := by
  unfold State.pollMiss
  split
  · exact h
  · split
    · exact h.unitEvent (fun t ht => ht.missPoll _) _ _
    · exact h
    · exact h

theorem State.Inv.discoverAnswer {s : State} (h : s.Inv) (bs : List Byte) : (s.discoverAnswer bs).Inv := by
  unfold State.discoverAnswer
  split
  · exact h
  · split
    · exact h.unitEvent (fun t ht => ht.unitFound _ _) _ _
    · exact h

theorem State.Inv.discoverMiss {s : State} (h : s.Inv) : s.discoverMiss.Inv := by
  unfold State.discoverMiss
  split
  · exact h
  · split
    · exact State.Inv.afterLine (s := s.endTransaction) h
    · exact h
    · exact h

theorem State.Inv.directiveAnswer {s : State} (h : s.Inv) (bs : List Byte) : (s.directiveAnswer bs).Inv := by
  unfold State.directiveAnswer
  split
  · exact h
  · split
    · exact h.unitEvent (fun t ht => ht.directiveDone _ _ _ _) _ _
    · exact h

theorem State.Inv.directiveMiss {s : State} (h : s.Inv) : s.directiveMiss.Inv := by
  unfold State.directiveMiss
  split
  · exact h
  · split
    · exact h.unitEvent (fun t ht => ht.directiveMissed _ _ _) _ _
    · exact h
    · exact h

/-! ## Quarantine -/

theorem State.Inv.withOperator {s : State} (h : s.Inv) (n : Nat) (x : Operator) (hn : n = 0 → x = Operator.full) :
    State.Inv { s with operators := s.operators.set n x } := by
  obtain ⟨store, tables, queues, ⟨ops, full, units⟩, sequence⟩ := h
  refine ⟨store, tables, queues, ⟨(List.length_set).trans ops, ?_, units⟩, sequence⟩
  unfold State.operatorAt at full ⊢
  by_cases zero : n = 0
  · rw [hn zero, zero]
    simp [ops]
  · simpa [zero] using full

theorem State.Inv.operatorGone {s : State} (h : s.Inv) (n : Nat) : (s.operatorGone n).Inv :=
  h.withOperator n _ (fun zero => if_pos zero)

theorem Sweeping.inv (r : RecordId) : Sweeping r State.Inv where
  toWorking := Working.inv
  station _ h := h.withTables h.tables.1 h.tables.2.1 (Table.wf_damage h.tables.2.2.1 _ _) h.tables.2.2.2.1 h.tables.2.2.2.2
  gallery _ h := h.withTables h.tables.1 h.tables.2.1 h.tables.2.2.1 (Table.wf_erase h.tables.2.2.2.1 _) h.tables.2.2.2.2
  conference _ h := h.withTables h.tables.1 h.tables.2.1 h.tables.2.2.1 h.tables.2.2.2.1 (Table.wf_erase h.tables.2.2.2.2 _)
  operator _ h := h.operatorGone _

theorem quarantineRuns_inv {last : State → State} (hl : ∀ t : State, t.Inv → (last t).Inv) :
    ∀ (stages : List (List TableId × (State → State))) {s : State}, s.Inv →
      (∀ p ∈ stages, ∀ t : State, t.Inv → (p.2 t).Inv) → (quarantineRuns stages last s).Inv
  | [], _, h, _ => hl _ h
  | p :: rest, s, h, keeps => by
    unfold quarantineRuns
    have later : (quarantineRuns rest last (p.2 s)).Inv := quarantineRuns_inv hl rest (keeps p List.mem_cons_self s h)
      (fun p' hp' => keeps p' (List.mem_cons_of_mem _ hp'))
    exact h.reading (f := fun s => quarantineRuns rest last (p.2 s)) later _ _

theorem State.Inv.slotDamaged {s : State} (h : s.Inv) (r : RecordId) : (s.slotDamaged r).Inv := by
  obtain ⟨w, c, x, g, f⟩ := h.tables
  unfold State.slotDamaged
  cases r.table with
  | window => exact h.withTables (Table.wf_damage w _ _) c x g f
  | carrier => exact h.withTables w (Table.wf_damage c _ _) x g f
  | station => exact h.withTables w c (Table.wf_damage x _ _) g f
  | gallery => exact h.withTables w c x (Table.wf_damage g _ _) f
  | conference => exact h.withTables w c x g (Table.wf_damage f _ _)
  | unit => exact Working.inv.modUnit h
  | operator | part => exact h

theorem State.Inv.returnToService {s : State} (h : s.Inv) (r : RecordId) : (s.returnToService r).Inv := by
  have back : State.Inv { s with service := .inService, badCodes := s.badCodes.filter (· != r) } := h
  unfold State.returnToService
  exact State.Inv.checkBegun (Working.inv.engineResumes (back.acting (Working.inv.windowsResume back) _ _))

theorem State.Inv.endQuarantine {s : State} (h : s.Inv) : s.endQuarantine.Inv := by
  unfold State.endQuarantine
  split
  · rename_i snap _ _
    exact quarantineRuns_inv (fun t ht => (ht.slotDamaged _).returnToService _) _ h.saveGoesOn
      (fun p hp t ht => (Sweeping.inv snap.record).stage hp ht)
  · exact h

end Sys2Proof.Machine
end

section
/-! What every step keeps (State.Inv): the orders. -/

namespace Sys2Proof.Machine

/-! ## The taking of an order -/

/-- A refused, discarded or interrupted order keeps the invariant; so does an accepted one whose effect keeps it. -/
theorem State.Inv.gate {s : State} (h : s.Inv) {o : Order} {a : Nat} {count : Bool} {service : Option Nat}
    {reads : RecordId → Bool} {tests : List Check1} {accept : State → State}
    (ha : firstFailing tests = none → (accept ((s.clockZeros (9 + 2 * o.params.length)).process o)).Inv) :
    (s.gate o a count service reads tests accept).Inv := by
  have begun : ((s.clockZeros (9 + 2 * o.params.length)).process o).Inv := h
  unfold State.gate
  dsimp only
  generalize ((s.clockZeros (9 + 2 * o.params.length)).process o) = t at begun ha ⊢
  have tested : (match firstFailing tests with | some r => t.refuse o r | none => accept t).Inv := by
    split
    · exact begun
    · rename_i passed
      exact ha passed
  split
  · exact h
  · exact h
  · split
    · exact h
    · split
      · exact h
      · split
        · exact h
        · exact begun.reading (f := fun t => match firstFailing tests with | some r => t.refuse o r | none => accept t) tested a
            reads

theorem State.Inv.takeOrderWith {s : State} (h : s.Inv) {o : Order} {a : Nat} {count : Bool} {reads : RecordId → Bool}
    {tests : List Check1} {more : State → RecordId → Bool} {effect : State → State × Reply}
    (he : firstFailing tests = none → ∀ t : State, t.Inv → t.checkQueue = s.checkQueue → (effect t).1.Inv) :
    (s.takeOrderWith o a count reads tests more effect).Inv := by
  have begun : ((s.clockZeros (9 + 2 * o.params.length)).process o).Inv := h
  have queue : ((s.clockZeros (9 + 2 * o.params.length)).process o).checkQueue = s.checkQueue := rfl
  refine h.gate (fun passed => ?_)
  generalize ((s.clockZeros (9 + 2 * o.params.length)).process o) = t at begun queue ⊢
  have taken : ((effect t).1.answer (effect t).2).Inv := he passed t begun queue
  exact begun.touchingWith (f := fun t => (effect t).1.answer (effect t).2) taken a more

theorem State.Inv.takeOrder {s : State} (h : s.Inv) {o : Order} {a : Nat} {count : Bool} {reads : RecordId → Bool}
    {tests : List Check1} {effect : State → State × Reply} (he : ∀ t : State, t.Inv → (effect t).1.Inv) :
    (s.takeOrder o a count reads tests effect).Inv := h.takeOrderWith (fun _ t ht _ => he t ht)

theorem State.Inv.noVerb {s : State} (h : s.Inv) (o : Order) : (s.noVerb o).Inv := h.gate (accept := id) (fun _ => h)

/-! ## Tables with one record changed -/

theorem Table.wf_clearMark {α : Type} {t : Table α} (ht : t.wf) (k : Nat) (f : α → α) : (t.clearMark k f).wf := by
  unfold Table.clearMark
  split
  · exact Table.wf_put ht k _
  · exact Table.wf_damage ht k _
  · exact ht

section
variable {s : State} (h : s.Inv)
include h

theorem State.Inv.putWindows {w : Table Window} (hw : w.wf) : State.Inv { s with windows := w } :=
  h.withTables hw h.tables.2.1 h.tables.2.2.1 h.tables.2.2.2.1 h.tables.2.2.2.2
theorem State.Inv.putCarriers {c : Table Carrier} (hc : c.wf) : State.Inv { s with carriers := c } :=
  h.withTables h.tables.1 hc h.tables.2.2.1 h.tables.2.2.2.1 h.tables.2.2.2.2
theorem State.Inv.putStations {x : Table Station} (hx : x.wf) : State.Inv { s with stations := x } :=
  h.withTables h.tables.1 h.tables.2.1 hx h.tables.2.2.2.1 h.tables.2.2.2.2
theorem State.Inv.putGalleries {g : Table Gallery} (hg : g.wf) : State.Inv { s with galleries := g } :=
  h.withTables h.tables.1 h.tables.2.1 h.tables.2.2.1 hg h.tables.2.2.2.2
theorem State.Inv.putConferences {f : Table Conference} (hf : f.wf) : State.Inv { s with conferences := f } :=
  h.withTables h.tables.1 h.tables.2.1 h.tables.2.2.1 h.tables.2.2.2.1 hf

/-! ## Reads, marks and claims -/

theorem State.Inv.readFields (table : TableId) (o : Order) (fields : Option (List FieldWord)) :
    (s.readFields table o fields).Inv := h.takeOrder (fun _ ht => ht)

theorem State.Inv.readConference (o : Order) : (s.readConference o).Inv := h.takeOrder (fun _ ht => ht)

theorem State.Inv.readPart (o : Order) : (s.readPart o).Inv := by
  have begun : ((s.clockZeros (9 + 2 * o.params.length)).process o).Inv := h
  refine h.gate (fun _ => ?_)
  generalize ((s.clockZeros (9 + 2 * o.params.length)).process o) = t at begun ⊢
  have read : (if t.partBad then State.halt { t with port := .idle } ⟨.part, 0⟩ (Activity.order .part 4) else t).Inv := by
    split
    · exact State.Inv.halt (s := { t with port := .idle }) begun _ _
    · exact begun
  exact read

theorem State.Inv.readTable (table : TableId) (o : Order) : (s.readTable table o).Inv := by
  unfold State.readTable
  cases table with
  | window | carrier | station | gallery | operator | unit => exact h.readFields _ o _
  | conference => exact h.readConference o
  | part => exact h.readPart o

theorem State.Inv.readAttention (o : Order) : (s.readAttention o).Inv := h.takeOrder (fun _ ht => ht)

theorem State.Inv.clearMark (table : TableId) (k : Nat) : (s.clearMark table k).Inv := by
  obtain ⟨w, c, x, g, f⟩ := h.tables
  unfold State.clearMark
  cases table with
  | window => exact h.putWindows (Table.wf_clearMark w _ _)
  | carrier => exact h.putCarriers (Table.wf_clearMark c _ _)
  | station => exact h.putStations (Table.wf_clearMark x _ _)
  | gallery => exact h.putGalleries (Table.wf_clearMark g _ _)
  | conference => exact h.putConferences (Table.wf_clearMark f _ _)
  | unit => exact Working.inv.modUnit h
  | operator | part => exact h

theorem State.Inv.nextMarked (table : TableId) (o : Order) : (s.nextMarked table o).Inv := by
  unfold State.nextMarked
  split
  · refine h.takeOrder (fun t ht => ?_)
    split
    · exact ht
    · exact ht.clearMark _ _
  · exact h.noVerb o

theorem State.Inv.setClaim (table : TableId) (k : Nat) (c : Option Nat) : (s.setClaim table k c).Inv := by
  unfold State.setClaim
  cases table with
  | window => exact Working.inv.modWindow h
  | carrier => exact Working.inv.modCarrier h
  | station => exact Working.inv.modStation h
  | gallery => exact Working.inv.modGallery h
  | conference => exact Working.inv.modConference h
  | operator | unit | part => exact h

theorem State.Inv.markClaimLost (table : TableId) (k : Nat) : (s.markClaimLost table k).Inv := by
  unfold State.markClaimLost
  cases table with
  | window => exact Working.inv.modWindow h
  | carrier => exact Working.inv.modCarrier h
  | station => exact Working.inv.modStation h
  | gallery => exact Working.inv.modGallery h
  | conference => exact Working.inv.modConference h
  | operator | unit | part => exact h

theorem State.Inv.claimRecord (table : TableId) (o : Order) : (s.claimRecord table o).Inv := by
  unfold State.claimRecord
  dsimp only
  split
  · refine h.takeOrder (fun t ht => ?_)
    split
    · exact (ht.setClaim _ _ _).markClaimLost _ _
    · exact ht.setClaim _ _ _
  · exact h.noVerb o

theorem State.Inv.releaseRecord (table : TableId) (o : Order) : (s.releaseRecord table o).Inv := by
  unfold State.releaseRecord
  dsimp only
  split
  · refine h.takeOrder (fun t ht => ?_)
    split
    · exact (ht.setClaim _ _ _).markClaimLost _ _
    · exact ht.setClaim _ _ _
  · exact h.noVerb o

theorem State.Inv.dropClaims (op : Nat) (lost : Bool) : (s.dropClaims op lost).Inv := by
  unfold State.dropClaims
  refine State.forEach_keeps h _ (fun u table hu => State.forEach_keeps hu _ (fun v k hv => ?_))
  dsimp only
  split
  · exact (hv.setClaim _ _ _).markClaimLost _ _
  · exact hv.setClaim _ _ _

theorem State.Inv.releaseAll (o : Order) : (s.releaseAll o).Inv := by
  refine h.takeOrder (fun t ht => ?_)
  dsimp only
  exact ht.dropClaims _ _

theorem State.Inv.freezePlan (o : Order) : (s.freezePlan o).Inv := h.takeOrder (fun _ ht => ht)

theorem State.Inv.thawPlan (o : Order) : (s.thawPlan o).Inv := h.takeOrder (fun _ ht => ht)

theorem State.Inv.defineOperator (o : Order) : (s.defineOperator o).Inv := h.takeOrder (fun _ ht => ht)

theorem State.Inv.retireOperator (o : Order) : (s.retireOperator o).Inv := h.takeOrder (fun _ ht => ht)

/-! ## Windows -/

theorem State.Inv.placedWindow (k : Nat) (x : Window) :
    (State.evaluate (State.windowChanged { s with windows := s.windows.put k x }) true [k]).Inv := by
  have placed : (State.windowChanged { s with windows := s.windows.put k x }).Inv := h.putWindows (Table.wf_put h.tables.1 _ _)
  exact Working.inv.evaluate placed _ _

theorem State.Inv.defineWindow (o : Order) : (s.defineWindow o).Inv := by
  refine h.takeOrder (fun t ht => ?_)
  exact ht.placedWindow (keyOf o) _

theorem State.Inv.editWindow (o : Order) : (s.editWindow o).Inv := by
  refine h.takeOrder (fun t ht => ?_)
  exact ht.placedWindow (keyOf o) _

theorem State.Inv.retireWindow (o : Order) : (s.retireWindow o).Inv := by
  refine h.takeOrder (fun t ht => ?_)
  exact ht.putWindows (Table.wf_erase ht.tables.1 (keyOf o))

theorem State.Inv.setClock (o : Order) : (s.setClock o).Inv := by
  refine h.takeOrder (fun t ht => ?_)
  have set : State.Inv { t with clock := clockOfWords o.params } := ht
  exact set.evaluateAll

/-! ## Settings -/

theorem State.Inv.putSettings (x : Settings) : (s.putSettings x).Inv := by
  unfold State.putSettings
  split
  · exact h
  · exact h

theorem State.Inv.setCoordination (o : Order) : (s.setCoordination o).Inv := h.takeOrder (fun _ ht => ht.putSettings _)

theorem State.Inv.setCueSettings (o : Order) : (s.setCueSettings o).Inv := h.takeOrder (fun _ ht => ht.putSettings _)

theorem State.Inv.applyLink : s.applyLink.Inv := by
  refine State.forEach_keeps h _ (fun t k ht => ?_)
  have recovered : ∀ (x : Station) {u : State}, u.Inv → (match x.recoveryRun with
      | some ms => if t.settings.recoveryTime * 1000 ≤ ms then u.recover k else u
      | none => u).Inv := by
    intro x u hu
    split
    · split
      · exact Working.inv.recover hu k
      · exact hu
    · exact hu
  split
  · exact ht
  · rename_i x _
    refine recovered x ?_
    split
    · split
      · exact Working.inv.watchRunsOut ht k
      · exact ht
    · exact ht
    · exact ht

theorem State.Inv.setLinkSettings (o : Order) : (s.setLinkSettings o).Inv :=
  h.takeOrder (fun _ ht => (ht.putSettings _).applyLink)

end

end Sys2Proof.Machine
end

section
/-! What every step keeps (State.Inv): the orders on carriers, stations, galleries, conferences and units, and the steps. -/

namespace Sys2Proof.Machine

section
variable {s : State} (h : s.Inv)
include h

/-! ## Carriers -/

theorem State.Inv.placedCarrier (k : Nat) (y : Carrier) : State.Inv { s with carriers := s.carriers.put k y } :=
  h.putCarriers (Table.wf_put h.tables.2.1 _ _)

theorem State.Inv.defineCarrier (o : Order) : (s.defineCarrier o).Inv := by
  refine h.takeOrder (fun t ht => ?_)
  dsimp only
  exact ht.placedCarrier _ _

theorem State.Inv.editCarrier (o : Order) : (s.editCarrier o).Inv := by
  have placed : ∀ {t : State}, t.Inv → ∀ y : Carrier,
      (State.carrierChanged { t with carriers := t.carriers.put (keyOf o) y }).Inv := fun ht y => ht.placedCarrier _ _
  refine h.takeOrderWith (fun _ t ht _ => ?_)
  dsimp only
  split
  · exact Working.inv.engineLooks (Working.inv.placementChange (placed ht _) _ _)
  · exact placed ht _

theorem State.Inv.retireCarrier (o : Order) : (s.retireCarrier o).Inv := by
  refine h.takeOrder (fun t ht => ?_)
  have erased : State.Inv { t with carriers := t.carriers.erase (keyOf o) } := ht.putCarriers (Table.wf_erase ht.tables.2.1 _)
  dsimp only
  exact Working.inv.alternateGone erased _

theorem State.Inv.carrierAction {o : Order} {verb : Nat} {own : List Check1} {effect : State → State}
    (he : ∀ t : State, t.Inv → (effect t).Inv) : (s.carrierAction o verb own effect).Inv := by
  refine h.takeOrder (fun t ht => ?_)
  dsimp only
  exact he t ht

theorem State.Inv.joinQueue (hq : s.checkQueue.length < Config.checkQueueSize) (c : Nat) : (s.joinQueue c).Inv := by
  obtain ⟨store, tables, ⟨-, queue⟩, rest⟩ := Working.inv.modCarrier (k := c)
    (f := fun y => { y with state := .checking, conflict := none }) h
  refine ⟨store, tables, ⟨?_, queue⟩, rest⟩
  change (s.checkQueue ++ [c]).length ≤ Config.checkQueueSize
  rw [List.length_append]
  exact hq

/-- The tests of CHECK CARRIER keep the Check Queue within its room (R24). -/
theorem State.Inv.checkCarrier (o : Order) : (s.checkCarrier o).Inv := by
  refine h.takeOrderWith (fun passed t ht hq => ?_)
  have room : t.checkQueue.length < Config.checkQueueSize := by
    rw [hq]
    have free := (firstFailing_eq_none _).1 passed (failIf (Config.checkQueueSize ≤ s.checkQueue.length) .full 1)
      (by simp [State.carrierActionTests])
    simpa [failIf] using free
  dsimp only
  exact Working.inv.engineLooks (ht.joinQueue room _)

theorem State.Inv.cancelCheck (o : Order) : (s.cancelCheck o).Inv := by
  refine h.takeOrderWith (fun _ t ht _ => ?_)
  dsimp only
  exact Working.inv.engineLooks (Working.inv.cancel ht _)

theorem State.Inv.block (c : Nat) : (s.block c).Inv := by
  unfold State.block State.beginRecovery
  split
  · exact Working.inv.startSwitch h _ _ _
  · exact Working.inv.modStation (Working.inv.modCarrier h)
  · exact Working.inv.modCarrier h

theorem State.Inv.unblock (c : Nat) : (s.unblock c).Inv := by
  unfold State.unblock State.stopRecovery
  dsimp only
  split
  · exact Working.inv.modStation (Working.inv.modCarrier h)
  · exact Working.inv.modCarrier h

theorem State.Inv.blockCarrier (o : Order) : (s.blockCarrier o).Inv := h.carrierAction (fun _ ht => ht.block _)

theorem State.Inv.unblockCarrier (o : Order) : (s.unblockCarrier o).Inv := h.carrierAction (fun _ ht => ht.unblock _)

/-! ## Stations -/

theorem State.Inv.repair (k : Nat) (p : Option Nat) : (s.repair k p).Inv := Working.inv.markStation (Working.inv.modStation h) _ _

theorem State.Inv.repairs (k p : Option Nat) : (match k with | some q => s.repair q p | none => s).Inv := by
  cases k with
  | none => exact h
  | some q => exact h.repair q p

theorem State.Inv.setPair (k : Nat) (old new : Option Nat) : (s.setPair k old new).Inv := by
  unfold State.setPair
  split
  · exact h
  · exact Working.inv.cueing.pairsChanged (State.Inv.repairs (Working.inv.modStation ((h.repairs _ _).repairs _ _)) new (some k)) _

theorem State.Inv.newStationDeliveries (k : Nat) (x : Station) : (s.newStationDeliveries k x).Inv := by
  have decided : ((State.withdraw (s.dropFinal .tune k) (fun e =>
      e.kind = .tune && e.target = k && !e.detached && some e.unit != x.controlUnit)).decideDelivery .tune k).Inv :=
    (Working.inv.withdraw (Working.inv.withFinals h) _).decideDelivery _ _
  unfold State.newStationDeliveries
  dsimp only
  split
  · exact State.Inv.decideDelivery (Working.inv.withFinals decided) _ _
  · exact decided

theorem State.Inv.defineStation (o : Order) : (s.defineStation o).Inv := by
  refine h.takeOrder (fun t ht => ?_)
  have placed : ∀ x : Station, (State.stationChanged { t with stations := t.stations.put (keyOf o) x }).Inv := fun x =>
    ht.putStations (Table.wf_put ht.tables.2.2.1 _ _)
  dsimp only
  exact ((placed _).newStationDeliveries _ _).setPair _ _ _

theorem State.Inv.changeControlUnit (k : Nat) (u : Option Nat) : (s.changeControlUnit k u).Inv :=
  (Working.inv.withdraw (Working.inv.modStation h) _).decideDelivery _ _

theorem State.Inv.changePower (k : Nat) (x : Station) (p : Nat) : (s.changePower k x p).Inv := by
  unfold State.changePower
  cases x.link with
  | parked => exact Working.inv.hand (Working.inv.modStation h) _ _
  | tuning | up | weak | lost | switching => exact Working.inv.startTune (Working.inv.modStation h) _

theorem State.Inv.editStation (o : Order) : (s.editStation o).Inv := by
  have unit : ∀ {t : State}, t.Inv → ∀ (b : Bool) u, (if b then t.changeControlUnit (keyOf o) u else t).Inv := by
    intro t ht b u
    split
    · exact ht.changeControlUnit _ _
    · exact ht
  have power : ∀ {t : State}, t.Inv → ∀ (b : Bool) x p, (if b then t.changePower (keyOf o) x p else t).Inv := by
    intro t ht b x p
    split
    · exact ht.changePower _ _ _
    · exact ht
  refine h.takeOrder (fun t ht => ?_)
  have edited := fun b u b' x p old new label mode => (power (unit (Working.inv.modStation (s := t) (k := keyOf o)
    (f := fun x => { x with label := label, callMode := mode }) ht) b u) b' x p).setPair (keyOf o) old new
  dsimp only
  split
  · exact edited _ _ _ _ _ _ _ _ _
  · exact edited _ _ _ _ _ _ _ _ _

theorem State.Inv.retire (k : Nat) : (s.retire k).Inv := by
  have erased : State.Inv { s with stations := s.stations.erase k } := h.putStations (Table.wf_erase h.tables.2.2.1 _)
  have gone : ∀ {t : State}, t.Inv → (t.stationRelations k true).Inv := by
    intro t ht
    have carriers : (t.stationGone k true).Inv := by
      have freed := Working.inv.stationGone ht k
      obtain ⟨x, unordered⟩ := t.stationGone_eq k false
      obtain ⟨y, ordered⟩ := t.stationGone_eq k true
      rw [unordered] at freed
      rw [ordered]
      exact freed
    have left : ((t.stationGone k true).stationLeavesAll k true).Inv :=
      State.forEach_keeps carriers _ (fun _ c hu => Working.inv.cueing.stationLeaves (fun hv => hv) hu k c true)
    have unmapped : (((t.stationGone k true).stationLeavesAll k true).unmapStation k true).Inv := by
      have freed := Working.inv.unmapStation left k
      obtain ⟨x, unordered⟩ := ((t.stationGone k true).stationLeavesAll k true).unmapStation_eq k false
      obtain ⟨y, ordered⟩ := ((t.stationGone k true).stationLeavesAll k true).unmapStation_eq k true
      rw [unordered] at freed
      rw [ordered]
      exact freed
    exact Working.inv.cueing.releaseSourced (Working.inv.partnersLeft unmapped k) k
  unfold State.retire
  split
  · exact erased
  · exact gone (Working.inv.takeOverAll erased _ _)

theorem State.Inv.retireStation (o : Order) : (s.retireStation o).Inv := by
  refine h.takeOrder (fun t ht => ?_)
  dsimp only
  exact ht.retire _

theorem State.Inv.bindStation (o : Order) : (s.bindStation o).Inv := by
  refine h.takeOrder (fun t ht => ?_)
  dsimp only
  split
  · exact Working.inv.bindCarrier ht _ _ _
  · exact Working.inv.bindCarrier ht _ _ _

theorem State.Inv.unbindStation (o : Order) : (s.unbindStation o).Inv := by
  refine h.takeOrder (fun t ht => ?_)
  split
  · exact ht
  · dsimp only
    split
    · exact Working.inv.unbindCarrier ht _ _ _
    · exact Working.inv.unbindCarrier ht _ _ _

theorem State.Inv.stationAction {o : Order} {verb : Nat} {own : List Check1} {effect : State → State}
    (he : ∀ t : State, t.Inv → (effect t).Inv) : (s.stationAction o verb own effect).Inv := by
  refine h.takeOrder (fun t ht => ?_)
  dsimp only
  exact he t ht

theorem State.Inv.callOrder {o : Order} {verb : Nat} {own : List Check1} {effect : State → State}
    (he : ∀ t : State, t.Inv → (effect t).Inv) : (s.callOrder o verb own effect).Inv := by
  refine h.takeOrder (fun t ht => ?_)
  dsimp only
  exact he t ht

theorem State.Inv.goLive (o : Order) : (s.goLive o).Inv := h.stationAction (fun _ ht => Working.inv.startTune ht _)

theorem State.Inv.park (o : Order) : (s.park o).Inv := h.stationAction (fun _ ht => Working.inv.parkStation ht _)

theorem State.Inv.swap (o : Order) : (s.swap o).Inv :=
  h.stationAction (fun _ ht => Working.inv.startSwitch (Working.inv.modStation ht) _ _ _)

theorem State.Inv.callStation (o : Order) : (s.callStation o).Inv := h.callOrder (fun _ ht => Working.inv.startCall ht _)

theorem State.Inv.clearCalls (k : Nat) : (s.clearCalls k).Inv := by
  have ended : (s.endCall k).Inv := Working.inv.modStation h
  unfold State.clearCalls
  refine Working.inv.cueing.recomputeLamps ?_ _
  split
  · exact Working.inv.endCallMarked ended _ _
  · exact ended

theorem State.Inv.clearCall (o : Order) : (s.clearCall o).Inv := h.callOrder (fun _ ht => ht.clearCalls _)

end

end Sys2Proof.Machine
end

section
/-! What every step keeps (State.Inv): galleries, conferences, cues, units, the Plan Store, and the step itself. -/

namespace Sys2Proof.Machine

section
variable {s : State} (h : s.Inv)
include h

/-! ## Galleries -/

theorem State.Inv.galleryChanged : s.galleryChanged.Inv := h

theorem State.Inv.placedGallery (k : Nat) (g : Gallery) : State.Inv { s with galleries := s.galleries.put k g } :=
  h.putGalleries (Table.wf_put h.tables.2.2.2.1 _ _)

theorem State.Inv.defineGallery (o : Order) : (s.defineGallery o).Inv := by
  refine h.takeOrder (fun t ht => ?_)
  have placed := fun g => (ht.placedGallery (keyOf o) g).galleryChanged
  dsimp only
  exact Working.inv.cueing.followNotice (placed _) _ _ _

theorem State.Inv.applyGallery (k : Nat) (old new : Gallery) : (s.applyGallery k old new).Inv :=
  Working.inv.derive (Working.inv.cueing.followNotice (h.placedGallery k _) _ _ _) _

theorem State.Inv.editGallery (o : Order) : (s.editGallery o).Inv := by
  refine h.takeOrder (fun t ht => ?_)
  dsimp only
  split
  · exact ht
  · exact (ht.applyGallery _ _ _).galleryChanged

theorem State.Inv.erasedGallery (k : Nat) : State.Inv { s with galleries := s.galleries.erase k } :=
  h.putGalleries (Table.wf_erase h.tables.2.2.2.1 _)

theorem State.Inv.removeGallery (k : Nat) : (s.removeGallery k).Inv := by
  unfold State.removeGallery
  split
  · exact h.erasedGallery k
  · exact Working.inv.derive ((Working.inv.cueing.followNotice h _ _ _).erasedGallery k) _

theorem State.Inv.retireGallery (o : Order) : (s.retireGallery o).Inv := by
  refine h.takeOrder (fun t ht => ?_)
  dsimp only
  exact (ht.removeGallery _).galleryChanged

/-! ## Conferences -/

theorem State.Inv.conferenceChanged : s.conferenceChanged.Inv := h

theorem State.Inv.defineConference (o : Order) : (s.defineConference o).Inv := by
  refine h.takeOrder (fun t ht => ?_)
  have placed : ∀ x : Conference, State.Inv { t with conferences := t.conferences.put (keyOf o) x } := fun x =>
    ht.putConferences (Table.wf_put ht.tables.2.2.2.2 _ _)
  dsimp only
  exact State.Inv.decideDelivery (Working.inv.withFinals (placed _).conferenceChanged) _ _

theorem State.Inv.editConference (o : Order) : (s.editConference o).Inv := by
  refine h.takeOrder (fun t ht => ?_)
  dsimp only
  split
  · exact ht
  · exact State.Inv.conferenceChanged (Working.inv.modConference ht)

theorem State.Inv.unfollow (c : Nat) (byOrder : Bool) : (s.unfollow c byOrder).Inv := by
  have freed : ∀ hit : List Nat, (s.forEach hit (fun s g =>
      (s.modGallery g (fun x => { x with follow := none })).markGallery g GalleryReason.followGone)).Inv := fun hit =>
    State.forEach_keeps h hit (fun _ _ ht => Working.inv.markGallery (Working.inv.modGallery ht) _ _)
  unfold State.unfollow
  dsimp only
  split
  · exact (freed _).galleryChanged
  · exact freed _

theorem State.Inv.erasedConference (k : Nat) : State.Inv { s with conferences := s.conferences.erase k } :=
  h.putConferences (Table.wf_erase h.tables.2.2.2.2 _)

theorem State.Inv.removeConference (k : Nat) : (s.removeConference k).Inv := by
  have emptied := Working.inv.cueing.recomputeRouting (Working.inv.modConference (k := k)
    (f := fun x => { x with members := [], talkers := [], waiting := [] }) (h.unfollow k true)) k
  unfold State.removeConference
  dsimp only
  split
  · exact emptied.erasedConference k
  · exact Working.inv.takeOver (emptied.erasedConference k) _ _

theorem State.Inv.retireConference (o : Order) : (s.retireConference o).Inv := by
  refine h.takeOrder (fun t ht => ?_)
  dsimp only
  exact (ht.removeConference _).conferenceChanged

theorem State.Inv.addMember (o : Order) : (s.addMember o).Inv := by
  refine h.takeOrder (fun t ht => ?_)
  dsimp only
  exact State.Inv.conferenceChanged (Working.inv.cueing.recomputeRouting (Working.inv.modConference ht) _)

theorem State.Inv.endFixed (c : Nat) (id : Source) : (s.endFixed c id).Inv := by
  unfold State.endFixed
  refine Working.inv.cueing.recomputeRouting ?_ _
  split
  · exact Working.inv.cueing.serveWaitList (Working.inv.modConference h) _ _ _
  · exact Working.inv.modConference h

theorem State.Inv.removeMember (o : Order) : (s.removeMember o).Inv := by
  refine h.takeOrder (fun t ht => ?_)
  dsimp only
  exact (ht.endFixed _ _).conferenceChanged

/-! ## Cue orders -/

theorem State.Inv.cueOrder {o : Order} {verb count : Nat} {bad : Bool} {own : List Check1} {effect : State → State × Reply}
    (he : ∀ t : State, t.Inv → (effect t).1.Inv) : (s.cueOrder o verb count bad own effect).Inv := h.takeOrder he

theorem State.Inv.setCueAccept (o : Order) : (s.setCueAccept o).Inv := by
  refine h.cueOrder (fun t ht => ?_)
  dsimp only
  exact Working.inv.modStation ht

theorem State.Inv.cue (o : Order) : (s.cue o).Inv := by
  refine h.cueOrder (fun t ht => ?_)
  split
  · dsimp only
    exact Working.inv.cuePush ht _ _ _
  · dsimp only
    exact Working.inv.cueing.cueRelease ht _ _

theorem State.Inv.clearCues (o : Order) : (s.clearCues o).Inv := by
  refine h.cueOrder (fun t ht => ?_)
  dsimp only
  exact Working.inv.cueing.releaseWhere ht _ _

/-! ## Operators and units -/

/-- The tests of EDIT OPERATOR keep operator 0 as it is (R130). -/
theorem State.Inv.editOperator (o : Order) : (s.editOperator o).Inv := by
  refine h.takeOrderWith (fun passed t ht _ => ?_)
  have other : keyOf o ≠ 0 := by
    have free := (firstFailing_eq_none _).1 passed (failIf (keyOf o = 0) .state 1) (by simp)
    simpa [failIf] using free
  dsimp only
  split
  · exact ht
  · exact ht.withOperator _ _ (fun zero => absurd zero other)

theorem State.Inv.partChanged : s.partChanged.Inv := h

theorem State.Inv.decideKeys (ks : List (DeliveryKind × Nat)) :
    (s.forEach ks (fun t p => t.decideDelivery p.1 p.2)).Inv :=
  State.forEach_keeps (P := State.Inv) h ks (fun _ _ ht => ht.decideDelivery _ _)

theorem State.Inv.changeMatrix (u : Option Nat) : (s.changeMatrix u).Inv := by
  have unrouted : State.Inv { s with
      settings := { s.settings with matrixUnit := u }
      stations := s.stations.map (fun _ x => { x with deliveredRoute := none, cueBase := .waiting })
      conferences := s.conferences.map (fun _ c => { c with deliveredRouting := none, routingBase := .waiting })
      finals := s.finals.map (fun (f : Final) => if f.forMatrix then { f with delivered := none, base := .waiting } else f) } :=
    h.withTables h.tables.1 h.tables.2.1 (Table.wf_map h.tables.2.2.1 _) h.tables.2.2.2.1 (Table.wf_map h.tables.2.2.2.2 _)
  unfold State.changeMatrix
  exact Working.inv.cueing.matrixLost ((State.Inv.decideKeys (Working.inv.withdraw unrouted _) matrixKeys).partChanged)

theorem State.Inv.setMatrixUnit (o : Order) : (s.setMatrixUnit o).Inv := by
  refine h.takeOrder (fun t ht => ?_)
  dsimp only
  split
  · exact ht
  · exact ht.changeMatrix _

theorem State.Inv.forgetUnit (o : Order) : (s.forgetUnit o).Inv := by
  refine h.takeOrder (fun t ht => ?_)
  dsimp only
  exact Working.inv.forget ht _

theorem State.Inv.lineRestarted : s.lineRestarted.Inv := by
  obtain ⟨store, ⟨w, c, x, g, f⟩, ⟨checks, -⟩, ⟨ops, full, -⟩, sequence⟩ := h
  exact ⟨store, ⟨w, c, Table.wf_map x _, g, Table.wf_map f _⟩, ⟨checks, Nat.zero_le _, List.nodup_nil, nofun⟩,
    ⟨ops, full, List.length_replicate⟩, sequence⟩

theorem State.Inv.lineReset (o : Order) : (s.lineReset o).Inv := by
  refine h.takeOrder (fun t ht => ?_)
  dsimp only
  rw [State.resetLine_eq]
  exact Working.inv.cueing.matrixLost (Working.inv.emptySets ht.lineRestarted _)

/-! ## Start-up and loads -/

theorem State.Inv.startUp : s.startUp.Inv :=
  ⟨h.abandonSave.1, ⟨rfl, rfl, rfl, rfl, rfl⟩, ⟨Nat.zero_le _, Nat.zero_le _, List.nodup_nil, nofun⟩, ⟨rfl, rfl, rfl⟩,
    Nat.zero_lt_succ _⟩

theorem State.Inv.endMemoryTest (passed : Bool) : (s.endMemoryTest passed).Inv := by
  unfold State.endMemoryTest
  split
  · split
    · exact h
    · exact h
  · exact h
  · exact h
  · exact h
  · exact h

theorem State.Inv.placeRecord (kind key : Nat) (ws : List Word) : (s.placeRecord kind key ws).Inv := by
  unfold State.placeRecord
  split
  · exact h.putWindows (Table.wf_put h.tables.1 _ _)
  · exact h.placedCarrier _ _
  · exact h.putStations (Table.wf_put h.tables.2.2.1 _ _)
  · exact h.placedGallery _ _
  · exact h.putConferences (Table.wf_put h.tables.2.2.2.2 _ _)
  · split
    · exact h
    · rename_i other
      exact h.withOperator _ _ (fun zero => absurd zero other)
  · exact h
  · exact h

end

theorem readRecords_inv (m : Memory) (limit : Option Nat) : ∀ (n a : Nat) (sum : Word) {s : State}, s.Inv →
    (readRecords m limit n a sum s).state.Inv
  | 0, _, _, _, h => h
  | n + 1, a, sum, s, h => by
    unfold readRecords
    split
    · exact h
    · dsimp only
      split
      · split
        · exact h
        · split
          · exact h
          · exact h
      · split
        · exact h
        · split
          · exact h
          · split
            · exact readRecords_inv m limit n _ _ (h.placeRecord _ _ _)
            · exact h

theorem State.Inv.readImage {s : State} (h : s.Inv) (limit : Option Nat) : (s.readImage limit).state.Inv := by
  unfold State.readImage
  split
  · exact h
  · split
    · exact h
    · split
      · exact readRecords_inv _ _ _ _ _ h
      · exact h

theorem State.Inv.loadPlan {s : State} (h : s.Inv) (limit : Option Nat) : (s.loadPlan limit).Inv := by
  have placed : State.Inv (if (s.emptyPlan.readImage limit).code = 0 then (s.emptyPlan.readImage limit).state else s.emptyPlan) := by
    split
    · exact h.emptyPlan.readImage limit
    · exact h.emptyPlan
  unfold State.loadPlan
  dsimp only
  generalize (if (s.emptyPlan.readImage limit).code = 0 then (s.emptyPlan.readImage limit).state else s.emptyPlan) = t at placed ⊢
  exact placed

theorem State.Inv.ownersWork {s : State} (h : s.Inv) : s.ownersWork.Inv := by
  have cleared : s.clearReferences.Inv := h.withTables h.tables.1 (Table.wf_map h.tables.2.1 _) (Table.wf_map h.tables.2.2.1 _)
    (Table.wf_map h.tables.2.2.2.1 _) (Table.wf_map h.tables.2.2.2.2 _)
  have evaluated := Working.inv.evaluate cleared true (upTo 16)
  unfold State.ownersWork
  generalize s.clearReferences.evaluate true (upTo 16) = t at evaluated ⊢
  obtain ⟨w, c, x, g, f⟩ := evaluated.tables
  exact evaluated.withTables w (Table.wf_map c _) x g (Table.wf_map f _)

theorem State.Inv.decideOwned {s : State} (h : s.Inv) : s.decideOwned.Inv := by
  refine State.forEach_keeps h _ (fun t p ht => ?_)
  split
  · exact ht.decideDelivery _ _
  · exact ht

theorem State.Inv.answer {s : State} (h : s.Inv) (r : Reply) : (s.answer r).Inv := h

theorem State.Inv.enterService {s : State} (h : s.Inv) : s.enterService.Inv := by
  have worked := h.ownersWork
  unfold State.enterService
  generalize s.ownersWork = t at worked ⊢
  have entered : State.Inv { t with service := .inService, load := .none } := worked
  exact Working.inv.engineLooks entered.decideOwned

theorem State.Inv.reconcile {s : State} (h : s.Inv) (old : List Final) : (s.reconcile old).Inv := by
  have kept : ∀ (fs : List Final) (p : Entry → Bool), State.Inv { s with finals := fs, queue := s.queue.filter p } := fun fs p =>
    Working.inv.filterQueue p (Working.inv.withFinals (q := fs) h)
  unfold State.reconcile
  exact Working.inv.fillQueue (State.Inv.decideOwned (Working.inv.withdraw (Working.inv.takeOverAll (kept _ _) _ _) _))

theorem State.Inv.endReload {s : State} (h : s.Inv) (key : Word) (old : List Final) : (s.endReload key old).Inv := by
  have worked := h.ownersWork
  unfold State.endReload
  generalize s.ownersWork = t at worked ⊢
  have loaded : State.Inv { t with load := .none } := worked
  exact State.Inv.answer (Working.inv.engineLooks (loaded.reconcile old)) _

theorem State.Inv.loadThen {s : State} (h : s.Inv) (limit : Option Nat) {work : State → State}
    (hw : ∀ t : State, t.Inv → (work t).Inv) : (s.loadThen limit work).Inv := by
  have loaded := h.loadPlan limit
  exact h.reading (f := fun s => (s.loadPlan limit).reading Activity.notice (fun _ => true) work)
    (loaded.reading (hw _ loaded) _ _) _ _

theorem State.Inv.endLoad {s : State} (h : s.Inv) (limit : Option Nat) : (s.endLoad limit).Inv := by
  unfold State.endLoad
  split
  · exact h.loadThen limit (fun t ht => ht.enterService)
  · exact h.loadThen limit (fun t ht => ht.endReload _ _)
  · exact h
  · exact h
  · exact h

end Sys2Proof.Machine
end

section
/-! What every step keeps (State.Inv): the Plan Store's orders, the transactions, and the step. -/

namespace Sys2Proof.Machine

section
variable {s : State} (h : s.Inv)
include h

/-! ## The Plan Store -/

theorem State.Inv.savePlan (o : Order) (ack : Bool) : (s.savePlan o ack).Inv := by
  refine h.takeOrder (fun t ht => ?_)
  split
  · exact ht.withStore (Memory.wf_write ht.1 _ _)
  · exact ht

theorem State.Inv.storeRead (o : Order) (ack : Bool) : (s.storeRead o ack).Inv := h.takeOrder (fun _ ht => ht)

theorem State.Inv.storeWrite (o : Order) (ack : Bool) : (s.storeWrite o ack).Inv := by
  refine h.takeOrder (fun t ht => ?_)
  have changed : (State.latchStore { t with storeStates := StoreStates.changed, storeOutcome := 5 }).Inv := ht
  dsimp only
  split
  · exact changed.withStore (Memory.wf_write changed.1 _ _)
  · exact changed

theorem State.Inv.reloadPlan (o : Order) : (s.reloadPlan o).Inv := by
  have begun : ((s.clockZeros (9 + 2 * o.params.length)).process o).Inv := h
  refine h.gate (fun _ => ?_)
  generalize ((s.clockZeros (9 + 2 * o.params.length)).process o) = t at begun ⊢
  split
  · exact begun.startReload _
  · exact begun

theorem State.Inv.restarted : s.restarted.Inv := h.startUp

theorem State.Inv.restartOrder (o : Order) : (s.restartOrder o).Inv := by
  have begun : ((s.clockZeros (9 + 2 * o.params.length)).process o).Inv := h
  refine h.gate (fun _ => ?_)
  exact begun.restarted.answer _

theorem State.Inv.endSave : s.endSave.Inv := by
  unfold State.endSave
  split
  · split
    · exact State.Inv.checkFailure (s := s.saveReaches s.saveLeft.length) h _ _
    · exact h.reading (f := State.finishSave) (h.withStore (Memory.wf_writeAll h.1 _)) _ _
  · exact h

theorem State.Inv.failSave (n : Nat) : (s.failSave n).Inv := by
  unfold State.failSave
  split
  · exact h.reading (f := fun s => State.saveLost { s with store := s.store.writeAll (s.writesMade n) })
      (h.withStore (Memory.wf_writeAll h.1 _)) _ _
  · exact h

/-! ## Orders -/

theorem State.Inv.takesOrder {c : Instr} {o : Order} (ho : orderIn c = some o) {t : State} (he : exec c s = .next t) : t.Inv := by
  cases c with
  | read table p => cases he; exact h.readTable table p
  | readConference p => cases he; exact h.readConference p
  | readPart p => cases he; exact h.readPart p
  | claim table p => cases he; exact h.claimRecord table p
  | release table p => cases he; exact h.releaseRecord table p
  | nextMarked table p => cases he; exact h.nextMarked table p
  | defineWindow p => cases he; exact h.defineWindow p
  | editWindow p => cases he; exact h.editWindow p
  | retireWindow p => cases he; exact h.retireWindow p
  | defineCarrier p => cases he; exact h.defineCarrier p
  | editCarrier p => cases he; exact h.editCarrier p
  | retireCarrier p => cases he; exact h.retireCarrier p
  | checkCarrier p => cases he; exact h.checkCarrier p
  | cancelCheck p => cases he; exact h.cancelCheck p
  | blockCarrier p => cases he; exact h.blockCarrier p
  | unblockCarrier p => cases he; exact h.unblockCarrier p
  | setCoordination p => cases he; exact h.setCoordination p
  | defineStation p => cases he; exact h.defineStation p
  | editStation p => cases he; exact h.editStation p
  | retireStation p => cases he; exact h.retireStation p
  | bindStation p => cases he; exact h.bindStation p
  | unbindStation p => cases he; exact h.unbindStation p
  | goLive p => cases he; exact h.goLive p
  | park p => cases he; exact h.park p
  | swap p => cases he; exact h.swap p
  | setLink p => cases he; exact h.setLinkSettings p
  | callStation p => cases he; exact h.callStation p
  | clearCall p => cases he; exact h.clearCall p
  | defineGallery p => cases he; exact h.defineGallery p
  | editGallery p => cases he; exact h.editGallery p
  | retireGallery p => cases he; exact h.retireGallery p
  | defineConference p => cases he; exact h.defineConference p
  | editConference p => cases he; exact h.editConference p
  | retireConference p => cases he; exact h.retireConference p
  | addMember p => cases he; exact h.addMember p
  | removeMember p => cases he; exact h.removeMember p
  | setCueAccept p => cases he; exact h.setCueAccept p
  | cue p => cases he; exact h.cue p
  | clearCues p => cases he; exact h.clearCues p
  | setCue p => cases he; exact h.setCueSettings p
  | editOperator p => cases he; exact h.editOperator p
  | defineOperator p => cases he; exact h.defineOperator p
  | retireOperator p => cases he; exact h.retireOperator p
  | releaseAll p => cases he; exact h.releaseAll p
  | freezePlan p => cases he; exact h.freezePlan p
  | thawPlan p => cases he; exact h.thawPlan p
  | setClock p => cases he; exact h.setClock p
  | setMatrixUnit p => cases he; exact h.setMatrixUnit p
  | forgetUnit p => cases he; exact h.forgetUnit p
  | lineReset p => cases he; exact h.lineReset p
  | readAttention p => cases he; exact h.readAttention p
  | savePlan p ack => cases he; exact h.savePlan p ack
  | reloadPlan p => cases he; exact h.reloadPlan p
  | restart p => cases he; exact h.restartOrder p
  | storeRead p ack => cases he; exact h.storeRead p ack
  | storeWrite p ack => cases he; exact h.storeWrite p ack
  | _ => cases ho

theorem State.Inv.readAnswer (n : Nat) : (s.readAnswer n).Inv := by
  unfold State.readAnswer
  split
  · exact h
  · dsimp only
    split
    · split
      · exact h
      · exact h
    · exact h
    · exact h

/-- A frame runs the order that its table and verb name, or is answered MALFORMED (R162). -/
theorem State.Inv.offer (bs : List Byte) (ack : Bool) : (s.offer bs ack).Inv := by
  unfold State.offer
  split
  · exact h
  · split
    · exact h
    · rename_i effect found
      obtain ⟨c, -, order, -, -, runs⟩ := commandAt_of_orderEffect found (orderOfFrame bs)
      exact h.takesOrder order (runs s)

theorem State.Inv.transaction (bs : List Byte) (ack : Bool) : (s.transaction bs ack).Inv := by
  unfold State.transaction
  split
  · exact h
  · split
    · exact h.readAnswer _
    · split
      · exact h.offer _ _
      · exact h

/-! ## Commands -/

theorem State.Inv.exec {c : Instr} {t : State} (he : Machine.exec c s = .next t) : t.Inv := by
  cases c with
  | powerOn => cases he; exact h.startUp
  | reset => cases he; exact h.startUp
  | memoryTest passed => cases he; exact h.endMemoryTest passed
  | load limit => cases he; exact h.endLoad limit
  | showClockAdvance => cases he; exact h.clockAdvances
  | graceExpiry w => cases he; exact h.graceEnds w
  | endOfCheck => cases he; exact h.checkEnds
  | tuneTimeout k => cases he; exact h.timer (fun _ ht => Working.inv.tuneTimeout ht k) _
  | watchRunsOut k => cases he; exact h.timer (fun _ ht => Working.inv.watchRunsOut ht k) _
  | recovery k => cases he; exact h.timer (fun _ ht => Working.inv.recover ht k) _
  | cleanAgePassingLinkWatch c => cases he; exact h.timer (fun _ ht => Working.inv.cleanAgePasses ht c) _
  | callTimeout k => cases he; exact h.timer (fun _ ht => ht.callRunsOut k) _
  | cueTimeout k source =>
    simp only [Machine.exec, execCueTimeout] at he
    split at he
    · cases he
      exact h
    · rename_i src _
      cases he
      exact h.timer (f := (State.cueRunsOut · k src)) (fun _ ht => ht.cueRunsOut k src) _
  | poll => cases he; exact h.sendPoll
  | discover => cases he; exact h.sendDiscover
  | directiveTurn => cases he; exact h.sendDirective
  | pollAnswered bs => cases he; exact h.pollAnswer bs
  | pollMissed => cases he; exact h.pollMiss
  | discoverAnswered bs => cases he; exact h.discoverAnswer bs
  | discoverMissed => cases he; exact h.discoverMiss
  | acknowledgement bs => cases he; exact h.directiveAnswer bs
  | acknowledgementMissed => cases he; exact h.directiveMiss
  | orderFrame bs ack => cases he; exact h.transaction bs ack
  | overrun bs =>
    simp only [Machine.exec, execOverrun, Host.Outcome.next.injEq] at he
    subst he
    split
    · exact h
    · exact h
  | answerRead n => cases he; exact h.readAnswer n
  | saveEnd => cases he; exact h.endSave
  | saveFailed n => cases he; exact h.failSave n
  | quarantine => cases he; exact h.endQuarantine
  | read table p => cases he; exact h.readTable table p
  | claim table p => cases he; exact h.claimRecord table p
  | release table p => cases he; exact h.releaseRecord table p
  | nextMarked table p => cases he; exact h.nextMarked table p
  | _ => exact h.takesOrder rfl he

end

end Sys2Proof.Machine

namespace Sys2Proof
open Machine

/-- Settles O5, by the invariant's proof for the work of the blocks (Working.inv), and then for each command. -/
theorem stepKeepsInv : Obligations.StepKeepsInv := by
  intro s t h hs
  unfold step at hs
  split at hs
  · cases hs
    exact h.tick
  · rename_i c rest _
    have queued : State.Inv { s with pending := rest } := h
    exact queued.exec hs

end Sys2Proof
end

section
/-! The reading of a plan image (R171, R172): its start codes, what its records leave, and an image read whole. -/

namespace Sys2Proof.Machine

/-! ## Runs of words -/

/-- A store that acknowledges every word gives the words that it holds. -/
theorem Memory.readRun_words (m : Memory) : ∀ (ws : List Word) (a : Nat), a + ws.length ≤ Config.storeSize →
    (∀ i w, ws[i]? = some w → m.read (a + i) = w) → m.readRun none a ws.length = .ok ws
  | [], _, _, _ => rfl
  | w :: ws, a, fits, held => by
    rw [List.length_cons] at fits
    have later := m.readRun_words ws (a + 1) (by omega) (fun i v hv => by
      rw [show a + 1 + i = a + (i + 1) by omega]
      exact held (i + 1) v hv)
    have here : ¬ Config.storeSize ≤ a := by omega
    have first : m.read a = w := held 0 w rfl
    simp only [List.length_cons, Memory.readRun, if_neg here, acknowledges, Bool.not_true, Bool.false_eq_true, if_false, later, first]

/-! ## Start codes -/

/-- A store that acknowledges nothing gives start code 1 (R172). -/
theorem State.readImage_silent (s : State) : (s.readImage (some 0)).code = 1 := rfl

/-- An image without the signature gives start code 2 (R172). -/
theorem State.readImage_unsigned {s : State} (h : s.store.read 0 ≠ 0x7A31#16 ∨ s.store.read 1 ≠ 0x0C96#16) :
    (s.readImage none).code = 2 := by
  have run : s.store.readRun none 0 2 = .ok [s.store.read 0, s.store.read 1] :=
    s.store.readRun_words [s.store.read 0, s.store.read 1] 0 (by simp [Config.storeSize]) (fun i w hw => by
      match i, hw with
      | 0, hw => simpa using hw
      | 1, hw => simpa using hw)
  have other : [s.store.read 0, s.store.read 1] ≠ [Config.signature0, Config.signature1] := by
    intro e
    simp only [List.cons.injEq, and_true] at e
    rcases h with h | h
    · exact h e.1
    · exact h e.2
  unfold State.readImage
  rw [if_neg nofun, run]
  exact congrArg Loaded.code (if_neg other)

/-! ## What the records of an image leave -/

/-- A property that the placing of a record keeps is kept by the reading of an image, whatever its end. -/
theorem readRecords_keeps {P : State → Prop} (place : ∀ {u : State} (kind key : Nat) (ws : List Word), P u →
    P (u.placeRecord kind key ws)) (m : Memory) (limit : Option Nat) : ∀ (n a : Nat) (sum : Word) {s : State}, P s →
    P (readRecords m limit n a sum s).state
  | 0, _, _, _, h => h
  | n + 1, a, sum, s, h => by
    unfold readRecords
    split
    · exact h
    · dsimp only
      split
      · split
        · exact h
        · split
          · exact h
          · exact h
      · split
        · exact h
        · split
          · exact h
          · split
            · exact readRecords_keeps place m limit n _ _ (place _ _ _ h)
            · exact h

theorem State.readImage_keeps {P : State → Prop} (place : ∀ {u : State} (kind key : Nat) (ws : List Word), P u →
    P (u.placeRecord kind key ws)) {s : State} (h : P s) (limit : Option Nat) : P (s.readImage limit).state := by
  unfold State.readImage
  split
  · exact h
  · split
    · exact h
    · split
      · exact readRecords_keeps place _ _ _ _ _ h
      · exact h

/-! ## An image of fitting records -/

theorem countFits_bounds {kind count : Nat} (h : countFits kind count = true) :
    kind ≤ 8 ∧ 1 ≤ count ∧ count ≤ 41 := by
  unfold countFits at h
  split at h <;> simp at h <;> omega

theorem keyFits_bounds {kind key : Nat} (h : keyFits kind key = true) : key ≤ 128 := by
  unfold keyFits at h
  split at h <;> simp at h <;> omega

theorem recordFits_iff (r : Nat × Nat × List Word) : recordFits r = true ↔
    countFits r.1 (r.2.2.length + 1) = true ∧ keyFits r.1 r.2.1 = true ∧ fieldsFit r.1 r.2.2 = true := by
  unfold recordFits
  rw [Bool.and_eq_true, Bool.and_eq_true, and_assoc]

/-- The header of a fitting record. -/
def headerOf (r : Nat × Nat × List Word) : Word := wordOf (r.1 * 256 + (r.2.2.length + 1))

theorem headerOf_toNat {r : Nat × Nat × List Word} (h : recordFits r = true) :
    (headerOf r).toNat = r.1 * 256 + (r.2.2.length + 1) := by
  obtain ⟨count, -, -⟩ := (recordFits_iff r).1 h
  have bounds := countFits_bounds count
  unfold headerOf wordOf
  rw [BitVec.toNat_ofNat]
  omega

/-- The words of the records of an image. -/
def recordWords (rs : List (Nat × Nat × List Word)) : List Word :=
  rs.flatMap (fun r => headerOf r :: wordOf r.2.1 :: r.2.2)

theorem imageOf_eq (rs : List (Nat × Nat × List Word)) : imageOf rs = [0x7A31#16, 0x0C96#16] ++ recordWords rs ++ [0xFFFF#16] := rfl

/-- Records that fit are placed one after the other, and a checksum that holds ends the load with start code 0 (R171, R172). -/
theorem readRecords_image (m : Memory) (check : Word) : ∀ (rs : List (Nat × Nat × List Word)) (n a : Nat) (sum : Word) (s : State),
    (∀ r ∈ rs, recordFits r = true) → rs.length < n →
    a + (recordWords rs).length + 2 ≤ Config.storeSize →
    (∀ i w, (recordWords rs ++ [0xFFFF#16, check])[i]? = some w → m.read (a + i) = w) →
    sum + wordSum (recordWords rs ++ [0xFFFF#16, check]) = 0#16 →
    readRecords m none n a sum s = ⟨rs.foldl (fun u r => u.placeRecord r.1 r.2.1 r.2.2) s, 0⟩
  | _, 0, _, _, _, _, fuel, _, _, _ => absurd fuel (Nat.not_lt_zero _)
  | [], n + 1, a, sum, s, _, _, room, held, total => by
    have run : m.readRun none a 1 = .ok [0xFFFF#16] := m.readRun_words [0xFFFF#16] a (by simp [recordWords] at room ⊢; omega)
      (fun i w hw => held i w (by
        match i, hw with
        | 0, hw => exact hw))
    have last : m.read (a + 1) = check := held 1 check rfl
    have place : ¬ Config.storeSize ≤ a + 1 := by simp [recordWords] at room; omega
    have closes : sum + 0xFFFF#16 + check = 0#16 := by
      rw [← total]
      simp [recordWords, BitVec.add_assoc]
    unfold readRecords
    rw [run]
    simp [last, place, acknowledges, closes]
  | r :: rs, n + 1, a, sum, s, fits, fuel, room, held, total => by
    have fit := fits r List.mem_cons_self
    obtain ⟨count, key, fields⟩ := (recordFits_iff r).1 fit
    have header := headerOf_toNat fit
    have bounds := countFits_bounds count
    have words : recordWords (r :: rs) = headerOf r :: (wordOf r.2.1 :: r.2.2) ++ recordWords rs := rfl
    rw [words] at room held total
    simp only [List.cons_append, List.length_cons, List.length_append] at room
    have run : m.readRun none a 1 = .ok [headerOf r] := m.readRun_words [headerOf r] a (by simp; omega)
      (fun i w hw => held i w (by
        match i, hw with
        | 0, hw => exact hw))
    have body : m.readRun none (a + 1) (r.2.2.length + 1) = .ok (wordOf r.2.1 :: r.2.2) :=
      m.readRun_words (wordOf r.2.1 :: r.2.2) (a + 1) (by simp; omega) (fun i w hw => by
        have inside : i < (wordOf r.2.1 :: r.2.2).length := (List.getElem?_eq_some_iff.1 hw).1
        rw [show a + 1 + i = a + (i + 1) by omega]
        refine held (i + 1) w ?_
        simp only [List.cons_append, List.getElem?_cons_succ]
        rw [← List.cons_append, ← List.cons_append, List.append_assoc, List.getElem?_append_left inside]
        exact hw)
    have going : headerOf r ≠ 0xFFFF#16 := by
      intro e
      rw [e] at header
      simp at header
      omega
    have kind : (headerOf r).toNat / 256 = r.1 := by omega
    have size : (headerOf r).toNat % 256 = r.2.2.length + 1 := by omega
    have named : fieldNat (wordOf r.2.1 :: r.2.2) 0 = r.2.1 := by
      have := keyFits_bounds key
      simp [fieldNat, wordOf]
      omega
    have rest := readRecords_image m check rs n (a + 1 + (r.2.2.length + 1)) (sum + headerOf r + wordSum (wordOf r.2.1 :: r.2.2))
      (s.placeRecord r.1 r.2.1 r.2.2) (fun q hq => fits q (List.mem_cons_of_mem _ hq))
      (by simp only [List.length_cons] at fuel; omega) (by omega) (fun i w hw => by
        rw [show a + 1 + (r.2.2.length + 1) + i = a + ((headerOf r :: wordOf r.2.1 :: r.2.2).length + i) by
          simp only [List.length_cons]; omega]
        refine held _ w ?_
        rw [List.append_assoc, List.getElem?_append_right (Nat.le_add_right _ _), Nat.add_sub_cancel_left]
        exact hw)
      (by rw [← total]; simp [BitVec.add_assoc])
    unfold readRecords
    rw [run]
    simp only [List.headD_cons, if_neg going, kind, size, count, Bool.not_true, Bool.false_eq_true, if_false, body, named, key,
      List.drop_one, List.tail_cons, fields, Bool.and_self, if_true]
    exact rest

/-- The records are fewer than the words. -/
theorem length_recordWords (rs : List (Nat × Nat × List Word)) : rs.length ≤ (recordWords rs).length := by
  induction rs with
  | nil => exact Nat.le_refl _
  | cons r rs ih =>
    have words : recordWords (r :: rs) = headerOf r :: (wordOf r.2.1 :: r.2.2) ++ recordWords rs := rfl
    rw [words]
    simp only [List.cons_append, List.length_cons, List.length_append]
    omega

/-- An image of fitting records that closes with its checksum places them in order (R171, R172). -/
theorem State.readImage_image {rs : List (Nat × Nat × List Word)} {check : Word} {s : State}
    (fits : ∀ r ∈ rs, recordFits r = true) (size : (imageOf rs).length ≤ 4095)
    (closes : wordSum (imageOf rs ++ [check]) = 0#16)
    (held : ∀ i w, (imageOf rs ++ [check])[i]? = some w → s.store.read i = w) :
    s.readImage none = ⟨rs.foldl (fun u r => u.placeRecord r.1 r.2.1 r.2.2) s, 0⟩ := by
  have image : imageOf rs ++ [check] = [0x7A31#16, 0x0C96#16] ++ (recordWords rs ++ [0xFFFF#16, check]) := by
    simp [imageOf_eq]
  rw [imageOf_eq] at size
  simp only [List.length_append, List.length_cons, List.length_nil] at size
  rw [image] at closes held
  have count := length_recordWords rs
  have signature : s.store.readRun none 0 2 = .ok [0x7A31#16, 0x0C96#16] :=
    s.store.readRun_words [0x7A31#16, 0x0C96#16] 0 (by decide) (fun i w hw => by
      rw [Nat.zero_add]
      exact held i w (by
        match i, hw with
        | 0, hw => exact hw
        | 1, hw => exact hw))
  unfold State.readImage
  rw [if_neg nofun, signature]
  refine (if_pos rfl).trans ?_
  refine readRecords_image s.store check rs Config.storeSize 2 _ s fits (by simp [Config.storeSize]; omega)
    (by simp [Config.storeSize]; omega) (fun i w hw => ?_) ?_
  · refine held (2 + i) w ?_
    rw [List.getElem?_append_right (show [0x7A31#16, 0x0C96#16].length ≤ 2 + i from Nat.le_add_right _ _)]
    simpa using hw
  · exact (wordSum_append _ _).symm.trans closes

end Sys2Proof.Machine
end

section
/-! The owners' work on what an image left (R172): references cleared, members legalised, windows evaluated, and every carrier
Checking. -/

namespace Sys2Proof.Machine

/-! ## What the records of an image leave -/

/-- The plan tables as an image leaves them: every record as its words give it. -/
structure State.asRead (u : State) : Prop where
  carriersTable : u.carriers.wf = true
  windows : ∀ k w, u.window k = some w → ∃ ws, w = Window.blank.withWords ws
  carriers : ∀ c y, u.carrier c = some y → ∃ ws, y = Carrier.blank.withWords ws
  stations : ∀ k x, u.station k = some x → ∃ ws, x = Station.ofWords ws
  conferences : ∀ c x, u.conference c = some x → ∃ ws, x = conferenceOfWords ws
  holder : u.freezeHolder = none
  idle : u.engine = none ∧ u.checkQueue = []

theorem Table.get_empty {α : Type} (k : Nat) : (⟨[]⟩ : Table α).get k = none := rfl

theorem State.emptyPlan_asRead (s : State) : s.emptyPlan.asRead where
  carriersTable := Table.wf_empty
  windows k _ h := absurd ((Table.get_empty k).symm.trans h) nofun
  carriers k _ h := absurd ((Table.get_empty k).symm.trans h) nofun
  stations k _ h := absurd ((Table.get_empty k).symm.trans h) nofun
  conferences k _ h := absurd ((Table.get_empty k).symm.trans h) nofun
  holder := rfl
  idle := ⟨rfl, rfl⟩

/-- A record that is put stands as its words give it, beside records that do. -/
theorem Table.get_put_all {α : Type} {F : α → Prop} {t : Table α} (h : ∀ k x, t.get k = some x → F x) (j : Nat) {r : α} (hr : F r)
    (k : Nat) (x : α) (hx : (t.put j r).get k = some x) : F x := by
  rw [Table.get_put] at hx
  split at hx
  · cases hx
    exact hr
  · exact h k x hx

theorem State.asRead.placeRecord {u : State} (h : u.asRead) (kind key : Nat) (ws : List Word) : (u.placeRecord kind key ws).asRead := by
  obtain ⟨table, windows, carriers, stations, conferences, holder, idle⟩ := h
  unfold State.placeRecord
  split
  · exact ⟨table, Table.get_put_all windows key ⟨ws, rfl⟩, carriers, stations, conferences, holder, idle⟩
  · exact ⟨Table.wf_put table _ _, windows, Table.get_put_all carriers key ⟨ws, rfl⟩, stations, conferences, holder, idle⟩
  · exact ⟨table, windows, carriers, Table.get_put_all stations key ⟨ws, rfl⟩, conferences, holder, idle⟩
  · exact ⟨table, windows, carriers, stations, conferences, holder, idle⟩
  · exact ⟨table, windows, carriers, stations, Table.get_put_all conferences key ⟨ws, rfl⟩, holder, idle⟩
  · split
    · exact ⟨table, windows, carriers, stations, conferences, holder, idle⟩
    · exact ⟨table, windows, carriers, stations, conferences, holder, idle⟩
  · exact ⟨table, windows, carriers, stations, conferences, holder, idle⟩
  · exact ⟨table, windows, carriers, stations, conferences, holder, idle⟩

theorem State.readImage_asRead (s : State) (limit : Option Nat) : (s.emptyPlan.readImage limit).state.asRead :=
  State.readImage_keeps (P := State.asRead) (fun kind key ws h => h.placeRecord kind key ws) s.emptyPlan_asRead limit

/-- Nothing but the plan tables and the settings differs. -/
def State.besidePlan (s u : State) : Prop :=
  u = { s with
    windows := u.windows
    carriers := u.carriers
    stations := u.stations
    galleries := u.galleries
    conferences := u.conferences
    operators := u.operators
    settings := u.settings }

theorem State.besidePlan.placeRecord {s u : State} (h : s.besidePlan u) (kind key : Nat) (ws : List Word) :
    s.besidePlan (u.placeRecord kind key ws) := by
  unfold State.besidePlan at *
  unfold State.placeRecord
  split
  case h_6 =>
    split
    · exact h
    · rw [h]
  all_goals rw [h]

theorem State.readImage_besidePlan (s : State) (limit : Option Nat) : s.besidePlan (s.readImage limit).state :=
  State.readImage_keeps (P := s.besidePlan) (fun kind key ws h => h.placeRecord kind key ws)
    (show s = { s with windows := s.windows } from rfl) limit

/-! ## Windows -/

/-- A loaded window is opened when it should be open (R17). -/
@[reducible] def Window.loaded (w : Window) (c : Clock) : Window :=
  { w with state := if w.shouldBeOpen c then .opened else .closed }

theorem Window.stepped_closed {w : Window} (h : w.state = .closed) (c : Clock) : w.stepped true c = w.loaded c := by
  unfold Window.stepped Window.loaded
  rw [h]
  cases w.shouldBeOpen c with
  | true => rfl
  | false =>
    dsimp only
    rw [if_neg nofun, ← h]

theorem State.forEach_nil {α : Type} (s : State) (f : State → α → State) : s.forEach [] f = s := rfl

theorem State.entering_none {s : State} (h : ∀ k w, s.window k = some w → w.enters s.clock = false) (ws : List Nat) :
    s.entering ws = [] := by
  unfold State.entering
  rw [List.filter_eq_nil_iff]
  intro k _
  cases hw : s.window k with
  | none => exact Bool.false_ne_true
  | some w =>
    rw [Option.any_some, h k w hw]
    exact Bool.false_ne_true

/-- An evaluation of closed windows gives no notice. -/
theorem State.evaluate_closed {s : State} (h : ∀ k w, s.window k = some w → w.state = .closed) {ws : List Nat}
    (hn : ws.Nodup) : s.besideWindows (s.evaluate true ws) ∧ ∀ k, (s.evaluate true ws).window k =
      if k ∈ ws then (s.window k).map (·.loaded s.clock) else s.window k := by
  have none_enters := State.entering_none (s := s) (fun k w hw => by simp [Window.enters, h k w hw]) ws
  obtain ⟨beside, windows⟩ := s.stepped_spec true hn
  have quiet : s.evaluate true ws = s.stepped true ws := by rw [State.evaluate_eq, none_enters, State.forEach_nil]
  rw [quiet]
  refine ⟨beside, fun k => ?_⟩
  rw [windows k]
  cases hw : s.window k with
  | none => rfl
  | some w => rw [Option.map_some, Option.map_some, Window.stepped_closed (h k w hw)]

/-- An evaluation finds no window to change in an empty table. -/
theorem State.evaluate_windowless {s : State} (h : ∀ k, s.window k = none) (ws : List Nat) : s.evaluate true ws = s := by
  have none_enters := State.entering_none (s := s) (fun k w hw => absurd ((h k).symm.trans hw) nofun) ws
  rw [State.evaluate_eq, none_enters, State.forEach_nil, State.stepped]
  refine State.forEach_keeps (P := (· = s)) rfl ws (fun t k ht => ?_)
  subst ht
  unfold State.evaluateState
  rw [h k]

/-! ## Members -/

/-- The first entries of the identities carry no identity twice, and none of those seen before. -/
theorem firstEntries_nodup : ∀ (ms : List Member) (seen : List Source), ((firstEntries seen ms).map Member.id).Nodup ∧
    ∀ m ∈ firstEntries seen ms, m.id ∉ seen
  | [], _ => ⟨List.nodup_nil, nofun⟩
  | m :: ms, seen => by
    unfold firstEntries
    by_cases hm : m.id ∈ seen
    · rw [if_pos (List.contains_iff_mem.2 hm)]
      exact firstEntries_nodup ms seen
    · rw [if_neg (fun h => hm (List.contains_iff_mem.1 h))]
      obtain ⟨distinct, fresh⟩ := firstEntries_nodup ms (m.id :: seen)
      refine ⟨?_, fun n hn => ?_⟩
      · rw [List.map_cons, List.nodup_cons]
        refine ⟨fun h => ?_, distinct⟩
        obtain ⟨n, hn, e⟩ := List.mem_map.1 h
        exact fresh n hn (e ▸ List.mem_cons_self)
      · rcases List.mem_cons.1 hn with rfl | hn
        · exact hm
        · exact fun h => fresh n hn (List.mem_cons_of_mem _ h)

theorem firstEntries_sublist : ∀ (ms : List Member) (seen : List Source), (firstEntries seen ms).Sublist ms
  | [], _ => List.Sublist.refl _
  | m :: ms, seen => by
    unfold firstEntries
    split
    · exact (firstEntries_sublist ms seen).cons m
    · exact (firstEntries_sublist ms _).cons_cons m

/-- Every identity that is not seen before has its first entry. -/
theorem firstEntries_complete : ∀ (ms : List Member) (seen : List Source), ∀ n ∈ ms, n.id ∉ seen →
    ∃ m ∈ firstEntries seen ms, m.id = n.id
  | [], _, _, h, _ => absurd h List.not_mem_nil
  | m :: ms, seen, n, hn, fresh => by
    unfold firstEntries
    by_cases hm : m.id ∈ seen
    · rw [if_pos (List.contains_iff_mem.2 hm)]
      rcases List.mem_cons.1 hn with rfl | hn
      · exact absurd hm fresh
      · exact firstEntries_complete ms seen n hn fresh
    · rw [if_neg (fun h => hm (List.contains_iff_mem.1 h))]
      by_cases same : n.id = m.id
      · exact ⟨m, List.mem_cons_self, same.symm⟩
      · have later : n ∈ ms := by
          rcases List.mem_cons.1 hn with rfl | hn
          · exact absurd rfl same
          · exact hn
        obtain ⟨k, hk, e⟩ := firstEntries_complete ms (m.id :: seen) n later (by simp [same, fresh])
        exact ⟨k, List.mem_cons_of_mem _ hk, e⟩

/-- The entry of an identity that may be a member. -/
def State.fitMember (s : State) (m : Member) : Bool := !s.identityGone m.id && !unsuitedMember (s.kindOf m.id)

theorem State.fitMember_iff (s : State) (m : Member) : s.fitMember m = true ↔
    ∀ k, m.id = .station k → ∃ z, s.station k = some z ∧ z.kind ≠ .camera ∧ z.kind ≠ .mic := by
  unfold State.fitMember State.identityGone State.kindOf unsuitedMember
  cases m.id with
  | station k => cases hz : s.station k <;> simp [hz]
  | port p => simp
  | operator n => simp

/-- A member as a load leaves it. -/
@[reducible] def State.legalised (s : State) (m : Member) : Member :=
  { m with
    listen := decide (s.kindOf m.id = some .inEar) || m.listen
    talk := !decide (s.kindOf m.id = some .inEar) && m.talk
    absent := s.absentNow m.id }

theorem State.loadedMembers_eq (s : State) (ms : List Member) :
    s.loadedMembers ms = ((firstEntries [] (ms.filter s.fitMember)).take 16).map s.legalised := rfl

theorem State.loadedMembers_length (s : State) (ms : List Member) : (s.loadedMembers ms).length ≤ 16 := by
  rw [State.loadedMembers_eq, List.length_map]
  exact List.length_take_le _ _

theorem State.loadedMembers_nodup (s : State) (ms : List Member) : ((s.loadedMembers ms).map Member.id).Nodup := by
  rw [State.loadedMembers_eq, List.map_map]
  exact (firstEntries_nodup _ _).1.sublist ((List.take_sublist _ _).map _)

/-- A loaded member is the entry of a fitting identity, legalised. -/
theorem State.mem_loadedMembers {s : State} {ms : List Member} {m : Member} (h : m ∈ s.loadedMembers ms) :
    ∃ n ∈ ms, s.fitMember n = true ∧ m = s.legalised n := by
  rw [State.loadedMembers_eq] at h
  obtain ⟨n, hn, e⟩ := List.mem_map.1 h
  have entry := (firstEntries_sublist _ _).subset (List.mem_of_mem_take hn)
  exact ⟨n, (List.mem_filter.1 entry).1, (List.mem_filter.1 entry).2, e.symm⟩

/-- Of no more than 16 entries every fitting identity is kept. -/
theorem State.loadedMembers_complete {s : State} {ms : List Member} (h : ms.length ≤ 16) {n : Member} (hn : n ∈ ms)
    (fit : s.fitMember n = true) : ∃ m ∈ s.loadedMembers ms, m.id = n.id := by
  obtain ⟨m, hm, e⟩ := firstEntries_complete (ms.filter s.fitMember) [] n (List.mem_filter.2 ⟨hn, fit⟩) List.not_mem_nil
  have room : (firstEntries [] (ms.filter s.fitMember)).length ≤ 16 :=
    (firstEntries_sublist _ _).length_le.trans ((List.length_filter_le _ _).trans h)
  rw [State.loadedMembers_eq, List.take_of_length_le room]
  exact ⟨s.legalised m, List.mem_map_of_mem hm, e⟩

/-! ## The owners' work -/

/-- A loaded carrier, which the engine checks (R41). -/
@[reducible] def State.loadedCarrier (s : State) (y : Carrier) : Carrier :=
  { (if s.intentStands y then y else { y with intent := none } : Carrier) with state := .checking, restorePending := true }

/-- A loaded station, without a pair that does not stand (R76). -/
def State.loadedStation (s : State) (k : Nat) (x : Station) : Station := if s.pairStands k x then x else { x with pair := none }

/-- A loaded gallery, without the references that the load did not produce (R95). -/
@[reducible] def State.loadedGallery (s : State) (g : Gallery) : Gallery :=
  { g with
    sources := g.sources.map (fun e => e.bind (fun k => (s.station k).map (fun _ => k)))
    follow := g.follow.bind (fun c => (s.conference c).map (fun _ => c)) }

/-- A loaded conference, its members legalised and its routing computed (R112, R114). -/
def State.loadedConference (s : State) (x : Conference) : Conference :=
  { x with
    members := s.loadedMembers x.members
    routing := Conference.routed { x with members := s.loadedMembers x.members } }

theorem Table.map_map {α : Type} (t : Table α) (f g : Nat → α → α) : (t.map f).map g = t.map (fun k x => g k (f k x)) := by
  obtain ⟨l⟩ := t
  induction l with
  | nil => rfl
  | cons p rest ih =>
    simp only [Table.map, List.map_cons, Table.mk.injEq, List.map_map] at ih ⊢
    refine congr (congrArg List.cons ?_) ih
    obtain ⟨k, x⟩ := p
    cases x <;> rfl

/-- The owners' work on loaded tables, once the windows are evaluated. -/
@[reducible] def State.worked (u : State) (windows : Table Window) : State :=
  { u with
    windows := windows
    carriers := u.carriers.map (fun _ y => u.loadedCarrier y)
    stations := u.stations.map u.loadedStation
    galleries := u.galleries.map (fun _ g => u.loadedGallery g)
    conferences := u.conferences.map (fun _ x => u.loadedConference x) }

theorem State.ownersWork_eq {u t : State} (h : u.clearReferences.evaluate true (upTo 16) = t)
    (beside : u.clearReferences.besideWindows t) : u.ownersWork = u.worked t.windows := by
  unfold State.ownersWork
  rw [h, beside]
  simp only [State.clearReferences, Table.map_map]
  rfl

/-- The windows of loaded tables are evaluated, and no notice is given (R17, R172). -/
theorem State.asRead.ownersWork {u : State} (h : u.asRead) : ∃ windows, u.ownersWork = u.worked windows ∧
    ∀ k, 1 ≤ k → k ≤ 16 → windows.get k = (u.window k).map (·.loaded u.clock) := by
  have closed : ∀ k w, u.clearReferences.window k = some w → w.state = .closed := fun k w hw => by
    obtain ⟨ws, rfl⟩ := h.windows k w hw
    rfl
  obtain ⟨beside, windows⟩ := State.evaluate_closed closed (upTo_nodup 16)
  exact ⟨_, State.ownersWork_eq rfl beside, fun k h1 h16 => (windows k).trans (if_pos (mem_upTo.2 ⟨h1, h16⟩))⟩

/-- A plan without records is left so. -/
theorem State.emptyPlan_ownersWork {u : State} (h : u.emptyPlan = u) : u.ownersWork = u := by
  rw [← h]
  have windowless : ∀ k, u.emptyPlan.clearReferences.window k = none := fun _ => rfl
  unfold State.ownersWork
  rw [State.evaluate_windowless windowless]
  rfl

end Sys2Proof.Machine
end

section
/-! What the decided deliveries and the engine's first candidates leave of a loaded plan (R150, R172). -/

namespace Sys2Proof.Machine

/-! ## Decided deliveries -/

/-- A conference but for its delivery. -/
@[reducible] def Conference.unbased (x : Conference) : Conference := { x with routingBase := .current }

/-- Deliveries are decided: the carriers are as they were, the core of every station, and every conference but for its
delivery. -/
def State.decided (s t : State) : Prop :=
  Quiet s t ∧ ∀ c, (t.conference c).map Conference.unbased = (s.conference c).map Conference.unbased

theorem State.decided.refl (s : State) : s.decided s := ⟨Quiet.refl s, fun _ => rfl⟩

theorem Decides.decided (r : State) : Decides (State.decided r) where
  station k kd b h := by
    refine ⟨(Quiet.soft r).modStation (fun x => ?_) h.1, h.2⟩
    cases kd <;> rfl
  conference k b h := by
    refine ⟨(Quiet.soft r).modConference h.1, fun c => ?_⟩
    rw [← h.2 c, State.conference_modConference]
    split
    · rw [Option.map_map]
      rfl
    · rfl
  withQueue := fun ⟨⟨h1, h2, h3⟩, h4⟩ => ⟨⟨by unfold Only at *; rw [h1], h2, h3⟩, h4⟩
  withFinals := fun ⟨⟨h1, h2, h3⟩, h4⟩ => ⟨⟨(Only.broad r).withFinals h1, h2, h3⟩, h4⟩

section
variable {P : State → Prop}

theorem Decides.dropFinal (hc : Decides P) {s : State} (h : P s) (kd : DeliveryKind) (k : Nat) : P (s.dropFinal kd k) :=
  hc.withFinals h

theorem Decides.takeOver (hc : Decides P) {s : State} (h : P s) (f : Final) (fresh : Bool) : P (s.takeOver f fresh) := by
  have taken : ∀ fs, P { s with finals := fs } := fun fs => hc.withFinals h
  unfold State.takeOver
  dsimp only
  split
  · exact hc.decideDelivery (taken _) _ _
  · split
    · split
      · exact hc.dropFinal (taken _) _ _
      · exact taken _
    · exact taken _

theorem Decides.takeOverAll (hc : Decides P) {s : State} (h : P s) (fs : List Final) (fresh : Bool) :
    P (s.takeOverAll fs fresh) := State.forEach_keeps h fs (fun _ f ht => hc.takeOver ht f fresh)

theorem Decides.decideOwned (hc : Decides P) {s : State} (h : P s) : P s.decideOwned := by
  refine State.forEach_keeps h _ (fun t p ht => ?_)
  split
  · exact hc.decideDelivery ht _ _
  · exact ht

theorem Decides.reconcile (hc : Decides P) {s : State} (h : P s) (old : List Final) : P (s.reconcile old) := by
  have kept : ∀ fs q, P { s with finals := fs, queue := q } := fun fs q =>
    hc.withQueue (s := { s with finals := fs }) (hc.withFinals h)
  unfold State.reconcile
  exact hc.fillQueue (hc.decideOwned (hc.withdraw (hc.takeOverAll (kept _ _) _ _) _))

end

/-! ## The engine -/

/-- What the engine's checks leave of a carrier that waits for one: it waits, it is under the engine, or its window stage has
failed. -/
def State.waitsOrFails (s t : State) (c : Nat) (y z : Carrier) : Prop :=
  z = y ∨ (t.engine.map Check.carrier = some c ∧ z = { y with restorePending := false }) ∨
    ∃ kind, s.windowStage y = some kind ∧ z = { y with
      restorePending := false
      state := .conflict
      conflict := some (kind, [])
      mark := addReason 1 y.mark }

/-- The engine has looked for candidates among the carriers of s, which wait for their checks. -/
structure State.looking (s t : State) : Prop where
  only : OnlyChecks s t
  clean : t.looksClean
  carriers : ∀ c y, s.carrier c = some y → ∃ z, t.carrier c = some z ∧ s.waitsOrFails t c y z

theorem State.looking.refl {s : State} (h : s.looksClean) : s.looking s :=
  ⟨OnlyChecks.refl s, h, fun _ y hy => ⟨y, hy, .inl rfl⟩⟩

theorem State.windowStage_only {s t : State} (h : OnlyChecks s t) (y : Carrier) : t.windowStage y = s.windowStage y := by
  have windows : t.window = s.window := by
    unfold OnlyChecks at h
    rw [h]
    rfl
  unfold State.windowStage
  rw [windows]

/-- The idle engine takes a candidate: it is under the engine, or its window stage fails. -/
theorem State.looking.takes {s t : State} (h : s.looking t) (idle : t.engine = none)
    (found : ∀ c z, t.carrier c = some z → ∃ y, s.carrier c = some y) {d : Nat} {x : Carrier} (hx : t.carrier d = some x) (hp : x.restorePending = true) :
    s.looking ((t.modCarrier d (fun y => { y with restorePending := false })).beginCheck d) := by
  obtain ⟨only, clean, carriers⟩ := h
  obtain ⟨w, hw⟩ := found d x hx
  have isW : x = w := by
    obtain ⟨z, hz, state⟩ := carriers d w hw
    obtain rfl := Option.some.inj (hx.symm.trans hz)
    rcases state with e | ⟨e, -⟩ | ⟨_, _, e⟩
    · exact e
    · rw [idle] at e
      cases e
    · rw [e] at hp
      cases hp
  subst isW
  have held : (t.modCarrier d (fun y => { y with restorePending := false })).carrier d = some { x with restorePending := false } := by
    rw [State.carrier_modCarrier, if_pos rfl, hx]
    rfl
  have cleared : (t.modCarrier d (fun y => { y with restorePending := false })).looksClean := State.looksClean_broad.modCarrier clean
  have stage : (t.modCarrier d (fun y => { y with restorePending := false })).windowStage { x with restorePending := false } =
      s.windowStage x := State.windowStage_only ((OnlyChecks.checks s).modCarrier only) x
  refine ⟨(OnlyChecks.checks s).beginCheck ((OnlyChecks.checks s).modCarrier only) d, State.beginCheck_looksClean cleared d,
    fun c y hy => ?_⟩
  have sound := cleared.1
  by_cases hc : c = d
  · subst hc
    obtain rfl := Option.some.inj (hy.symm.trans hw)
    rw [State.beginCheck_sound sound held, stage]
    cases hs : s.windowStage y with
    | some kind => exact ⟨_, State.enterConflict_carrier held kind [], .inr (.inr ⟨kind, hs, rfl⟩)⟩
    | none => exact ⟨_, held, .inr (.inl ⟨rfl, rfl⟩)⟩
  · obtain ⟨z, hz, state⟩ := carriers c y hy
    refine ⟨z, ?_, ?_⟩
    · rw [State.beginCheck_carrier_ne hc, State.carrier_modCarrier, if_neg hc, hz]
    · rcases state with e | ⟨e, -⟩ | e
      · exact .inl e
      · rw [idle] at e
        cases e
      · exact .inr (.inr e)

/-- The records of a carrier table stay where carriers are changed. -/
theorem Checks.carriersStay (s : State) : Checks (fun t => ∀ c, (t.carrier c).isSome = (s.carrier c).isSome) where
  modCarrier h c := (Table.isSome_modify _ _ _ c).trans (h c)
  withChecks _ h := h

theorem State.looking.engineTakes {s t : State} (n : Nat) (h : s.looking t) (stay : ∀ c, (t.carrier c).isSome = (s.carrier c).isSome) : s.looking (engineTakes n t) := by
  induction n generalizing t with
  | zero => exact h
  | succ n ih =>
    rw [Machine.engineTakes]
    split
    · exact h
    · rename_i busy
      have idle : t.engine = none := by simpa using busy
      split
      · exact h
      · rename_i d u hn
        obtain ⟨⟨x, hx, hp⟩, rfl⟩ := State.nextCandidate_clean h.clean hn
        refine ih (h.takes idle (fun c z hz => ?_) hx hp) ?_
        · have some := stay c
          rw [hz] at some
          exact Option.isSome_iff_exists.1 some.symm
        · exact (Checks.carriersStay s).beginCheck ((Checks.carriersStay s).modCarrier stay) d

/-- A clean engine looks for its first candidates. -/
theorem State.looking.engineLooks {s : State} (h : s.looksClean) : s.looking s.engineLooks := by
  unfold State.engineLooks
  split
  · exact State.looking.engineTakes 145 (State.looking.refl h) (fun _ => rfl)
  · exact State.looking.refl h

end Sys2Proof.Machine
end

section
/-! A load leaves the plan that the image gave, with the owners' work done (R172). -/

namespace Sys2Proof.Machine

/-! ## Loaded records -/

theorem State.loadedCarrier_intent {u : State} {y : Carrier} :
    ((∀ n role, y.intent = some (n, role) → ∃ x, u.station n = some x ∧ x.kind.cls = y.cls) →
      (u.loadedCarrier y).intent = y.intent) ∧
    (∀ n role, y.intent = some (n, role) → (∀ x, u.station n = some x → x.kind.cls ≠ y.cls) →
      (u.loadedCarrier y).intent = none) := by
  cases hi : y.intent with
  | none => exact ⟨fun _ => by simp [State.intentStands, hi], nofun⟩
  | some p =>
    obtain ⟨n, role⟩ := p
    refine ⟨fun stands => ?_, fun m r e falls => ?_⟩
    · obtain ⟨x, hx, cls⟩ := stands n role rfl
      simp [State.intentStands, hi, hx, cls]
    · cases e
      have falls : u.intentStands y = false := by
        unfold State.intentStands
        rw [hi]
        dsimp only
        split
        · rename_i x hx
          exact decide_eq_false (falls x hx)
        · rfl
      simp [falls]

theorem State.loadedCarrier_frame (u : State) (y : Carrier) : (u.loadedCarrier y).frequency = y.frequency ∧
    (u.loadedCarrier y).cls = y.cls ∧ (u.loadedCarrier y).window = y.window ∧ (u.loadedCarrier y).bound = y.bound ∧
    (u.loadedCarrier y).mark = y.mark := by
  cases h : u.intentStands y <;> simp [h]

/-- The loaded station of a Camera that names a BeltPack, or the other way round. -/
def State.pairedWith (u : State) (k : Nat) (x : Station) (b : Nat) : Prop := ∃ z, u.station b = some z ∧ z.pair = some k ∧
  ((x.kind = .camera ∧ z.kind = .beltpack) ∨ (x.kind = .beltpack ∧ z.kind = .camera))

theorem State.pairStands_iff {u : State} {k : Nat} {x : Station} (hx : u.station k = some x) {b : Nat} (hb : x.pair = some b) :
    u.pairStands k x = true ↔ u.pairedWith k x b := by
  unfold State.pairStands State.pairedWith State.pairUnsuited State.partnerOf
  rw [hb]
  cases hz : u.station b with
  | none => simp only [hz, Option.bind_none, reduceCtorEq, decide_false, Bool.and_false, Bool.false_eq_true, false_and, exists_false]
  | some z =>
    have self : b = k → x = z := fun e => by
      rw [e, hx] at hz
      exact Option.some.inj hz
    by_cases e : b = k
    · obtain rfl := self e
      cases hk : x.kind <;> simp [e, hk]
    · cases hk : x.kind <;> cases hkz : z.kind <;> simp [hz, e, hkz, and_comm]

theorem State.loadedStation_core {u : State} {k : Nat} {x : Station} (hx : u.station k = some x) :
    ((∀ b, x.pair = some b → u.pairedWith k x b) → u.loadedStation k x = x) ∧
    ((∃ b, x.pair = some b ∧ ¬ u.pairedWith k x b) → u.loadedStation k x = { x with pair := none }) := by
  unfold State.loadedStation
  cases hp : x.pair with
  | none => exact ⟨fun _ => if_pos (by simp [State.pairStands, hp]), nofun⟩
  | some b =>
    have stands := State.pairStands_iff hx hp
    refine ⟨fun h => if_pos (stands.2 (h b rfl)), fun ⟨c, hc, falls⟩ => if_neg (fun h => ?_)⟩
    cases hc
    exact falls (stands.1 h)

theorem memberOf_join {p : Word × Word} {m : Member} (hm : memberOf p = some m) : m.join = .fixed := by
  unfold memberOf at hm
  obtain ⟨id, -, rfl⟩ := Option.map_eq_some_iff.1 hm
  rfl

/-! ## The plan as loaded -/

section
variable {u : State} (h : u.asRead)
include h

theorem State.asRead.link {k : Nat} {x : Station} (hx : u.station k = some x) : x.link = .parked ∧ x.wanted.muted = true ∧
    x.primary = none ∧ x.standby = none := by
  obtain ⟨ws, rfl⟩ := h.stations k x hx
  exact ⟨rfl, rfl, rfl, rfl⟩

theorem State.asRead.member {c : Nat} {x : Conference} (hx : u.conference c = some x) : x.talkers = [] ∧ x.waiting = [] ∧
    ∀ m ∈ x.members, m.join = .fixed := by
  obtain ⟨ws, rfl⟩ := h.conferences c x hx
  refine ⟨rfl, rfl, fun m hm => ?_⟩
  obtain ⟨p, -, hp⟩ := List.mem_filterMap.1 hm
  exact memberOf_join hp

theorem State.asRead.carrier {c : Nat} {y : Carrier} (hy : u.carrier c = some y) : y.bound = none ∧ y.mark = [] := by
  obtain ⟨ws, rfl⟩ := h.carriers c y hy
  exact ⟨rfl, rfl⟩

/-- A loaded member of a station is absent: every loaded station is Parked (R105). -/
theorem State.asRead.absentNow (k : Nat) : u.absentNow (.station k) = true := by
  unfold State.absentNow
  cases hx : u.station k with
  | none => simp only [hx]
  | some x =>
    simp only [hx, (h.link hx).1]
    rfl

/-- What the conferences of the plan are, but for their deliveries. -/
theorem State.asRead.loadedConference {c : Nat} {x v : Conference} (hx : u.conference c = some x)
    (hv : v.unbased = (u.loadedConference x).unbased) : v.label = x.label ∧ v.talkers = [] ∧ v.waiting = [] ∧
      v.routing = v.routed ∧ v.members = u.loadedMembers x.members := by
  obtain ⟨talkers, waiting, -⟩ := h.member hx
  have members : v.members = u.loadedMembers x.members := (congrArg Conference.members hv :)
  have speak : v.talkers = x.talkers := (congrArg Conference.talkers hv :)
  refine ⟨(congrArg Conference.label hv :), speak.trans talkers, ((congrArg Conference.waiting hv :) : _).trans waiting, ?_, members⟩
  have routing : v.routing = Conference.routed { x with members := u.loadedMembers x.members } := (congrArg Conference.routing hv :)
  rw [routing, Conference.routed, Conference.routed, members, speak]

/-- A loaded carrier after the engine's first candidates: it waits for its check, is under the engine, or its window stage has
failed (R33, R41). -/
theorem State.asRead.loadedCarrier {v t : State} (hl : v.looking t) {c : Nat} {y : Carrier} (hy : u.carrier c = some y)
    (hv : v.carrier c = some (u.loadedCarrier y)) : ∃ z, t.carrier c = some z ∧ z.frequency = y.frequency ∧ z.cls = y.cls ∧
      z.window = y.window ∧ z.bound = none ∧ z.intent = (u.loadedCarrier y).intent ∧
      ((z.state = .checking ∧ z.mark = [] ∧ (z.restorePending = true ∨ t.engine.map Check.carrier = some c)) ∨
        (∃ kind, z.state = .conflict ∧ z.conflict = some (kind, []) ∧ z.mark = [1] ∧ t.windowStage z = some kind)) := by
  obtain ⟨bound, mark⟩ := h.carrier hy
  obtain ⟨frequency, cls, window, bound', mark'⟩ := u.loadedCarrier_frame y
  obtain ⟨z, hz, state⟩ := hl.carriers c _ hv
  have checks : (u.loadedCarrier y).state = .checking := rfl
  have waits : (u.loadedCarrier y).restorePending = true := rfl
  generalize u.loadedCarrier y = w at frequency cls window bound' mark' state checks waits ⊢
  refine ⟨z, hz, ?_⟩
  rcases state with rfl | ⟨engine, rfl⟩ | ⟨kind, failed, rfl⟩
  · exact ⟨frequency, cls, window, bound'.trans bound, rfl, .inl ⟨checks, mark'.trans mark, .inl waits⟩⟩
  · exact ⟨frequency, cls, window, bound'.trans bound, rfl, .inl ⟨checks, mark'.trans mark, .inr engine⟩⟩
  · refine ⟨frequency, cls, window, bound'.trans bound, rfl, .inr ⟨kind, rfl, rfl, ?_, ?_⟩⟩
    · dsimp only
      rw [mark', mark]
      rfl
    · rw [State.windowStage_only hl.only]
      exact failed

/-- A loaded conference after the work (R114). -/
theorem State.asRead.members {c : Nat} {x v : Conference} (hx : u.conference c = some x)
    (hv : v.unbased = (u.loadedConference x).unbased) : v.members.length ≤ 16 ∧ (v.members.map Member.id).Nodup ∧
    (∀ m ∈ v.members, m.join = .fixed ∧ (∃ n ∈ x.members, n.id = m.id ∧ n.priority = m.priority) ∧
      (∀ k, m.id = .station k → m.absent = true ∧ ∃ z, u.station k = some z ∧ z.kind ≠ .camera ∧ z.kind ≠ .mic ∧
        (z.kind = .inEar → m.listen = true ∧ m.talk = false))) ∧
    (x.members.length ≤ 16 → ∀ n ∈ x.members,
      (∀ k, n.id = .station k → ∃ z, u.station k = some z ∧ z.kind ≠ .camera ∧ z.kind ≠ .mic) →
      ∃ m ∈ v.members, m.id = n.id) := by
  obtain ⟨-, -, -, -, members⟩ := h.loadedConference hx hv
  obtain ⟨-, -, fixed⟩ := h.member hx
  rw [members]
  refine ⟨u.loadedMembers_length _, u.loadedMembers_nodup _, fun m hm => ?_, fun room n hn fit =>
    State.loadedMembers_complete room hn ((u.fitMember_iff n).2 fit)⟩
  obtain ⟨n, hn, fit, rfl⟩ := State.mem_loadedMembers hm
  refine ⟨fixed n hn, ⟨n, hn, rfl, rfl⟩, fun k hk => ?_⟩
  have hk : n.id = .station k := hk
  obtain ⟨z, hz, camera, mic⟩ := (u.fitMember_iff n).1 fit k hk
  have kind : u.kindOf n.id = some z.kind := by
    rw [hk]
    exact congrArg (Option.map Station.kind) hz
  refine ⟨?_, z, hz, camera, mic, fun ear => ?_⟩
  · exact (congrArg u.absentNow hk).trans (h.absentNow k)
  · simp only [kind, ear, decide_true, Bool.true_or, Bool.not_true, Bool.false_and, and_self]

/-- The owners' work, the decided deliveries and the engine's first candidates leave the plan that an image gave (R172). -/
theorem State.asRead.planLoaded (sound : u.badCodes = []) {windows : Table Window}
    (evaluated : ∀ k, 1 ≤ k → k ≤ 16 → windows.get k = (u.window k).map (·.loaded u.clock)) {v w : State}
    {service : Service} {load : LoadPhase} (hv : { u.worked windows with service := service, load := load } = v)
    (hw : v.decided w) : w.engineLooks.planLoaded u u.clock := by
  obtain ⟨⟨only, carriers, cores⟩, conferences⟩ := hw
  have clean : w.looksClean := by
    refine ⟨?_, ?_, ?_⟩
    · rw [only.sameMachine.badCodes, ← hv]
      exact sound
    · rw [only.checkQueue, ← hv]
      exact h.idle.2
    · rw [carriers, ← hv]
      exact Table.wf_map h.carriersTable _
  have looks := State.looking.engineLooks clean
  generalize w.engineLooks = t at looks
  have after := looks.only
  have tStations : ∀ k, (t.station k).map Station.core = (v.station k).map Station.core := fun k => by
    rw [← cores k]
    unfold OnlyChecks at after
    rw [after]
    rfl
  have tConferences : ∀ c, (t.conference c).map Conference.unbased = (v.conference c).map Conference.unbased := fun c => by
    rw [← conferences c]
    unfold OnlyChecks at after
    rw [after]
    rfl
  have rest : t.windows = windows ∧ t.galleries = v.galleries ∧ t.operators = u.operators ∧ t.settings = u.settings ∧
      t.freezeHolder = none := by
    unfold OnlyChecks at after
    unfold Only at only
    rw [after, only, ← hv]
    exact ⟨rfl, rfl, rfl, rfl, h.holder⟩
  obtain ⟨tWindows, tGalleries, operators, settings, holder⟩ := rest
  refine ⟨fun k h1 h16 => ?_, fun c y hy => ?_, fun k x hx => ?_, fun g x hx => ?_, fun c x hx => ?_, operators, settings, holder⟩
  · rw [State.window, tWindows, evaluated k h1 h16]
  · have held : w.carrier c = some (u.loadedCarrier y) := by
      rw [State.carrier, carriers, ← hv]
      exact (Table.get_map _ _ _).trans (congrArg (Option.map _) hy)
    obtain ⟨z, hz, frequency, cls, window, bound, intent, state⟩ := h.loadedCarrier looks hy held
    have intents := u.loadedCarrier_intent (y := y)
    exact ⟨z, hz, frequency, cls, window, bound, fun hi => intent.trans (intents.1 hi),
      fun n role hi hn => intent.trans (intents.2 n role hi hn), state⟩
  · have held : v.station k = some (u.loadedStation k x) := by
      rw [← hv]
      exact (Table.get_map _ _ _).trans (congrArg (Option.map _) hx)
    have core := tStations k
    rw [held] at core
    obtain ⟨z, hz, same⟩ := Option.map_eq_some_iff.1 core
    obtain ⟨stands, falls⟩ := State.loadedStation_core hx
    refine ⟨z, hz, fun hp => ?_, fun ⟨b, hb, hp⟩ => ?_⟩
    · rw [same, stands hp]
    · rw [same, falls ⟨b, hb, fun ⟨y, hy, back, kinds⟩ => hp y hy back kinds⟩]
  · rw [State.gallery, tGalleries, ← hv]
    exact (Table.get_map _ _ _).trans (congrArg (Option.map _) hx)
  · have held : v.conference c = some (u.loadedConference x) := by
      rw [← hv]
      exact (Table.get_map _ _ _).trans (congrArg (Option.map _) hx)
    have same := tConferences c
    rw [held] at same
    obtain ⟨z, hz, same⟩ := Option.map_eq_some_iff.1 same
    obtain ⟨label, talkers, waiting, routing, -⟩ := h.loadedConference hx same
    obtain ⟨few, distinct, each, complete⟩ := h.members hx same
    exact ⟨z, hz, label, talkers, waiting, routing, few, distinct, each, complete⟩

end

end Sys2Proof.Machine
end

section
/-! The end of a load (R172, R173, R177): what it leaves beside the plan, and the plan that a failed load leaves empty. -/

namespace Sys2Proof.Machine

/-! ## What the work after a load leaves -/

/-- Nothing but the records, the checks, the Directive Queue, the final deliveries, the service and the load phase differs. -/
def State.afterLoad (u t : State) : Prop :=
  t = { u with
    service := t.service
    load := t.load
    windows := t.windows
    carriers := t.carriers
    checkQueue := t.checkQueue
    engine := t.engine
    stations := t.stations
    galleries := t.galleries
    conferences := t.conferences
    queue := t.queue
    finals := t.finals }

/-- The plan tables hold nothing. -/
structure State.planless (t : State) : Prop where
  windows : t.windows.slots = []
  carriers : t.carriers.slots = []
  stations : t.stations.slots = []
  galleries : t.galleries.slots = []
  conferences : t.conferences.slots = []

theorem Table.modify_slotless {α : Type} {t : Table α} (h : t.slots = []) (k : Nat) (f : α → α) : (t.modify k f).slots = [] := by
  obtain ⟨l⟩ := t
  obtain rfl : l = [] := h
  rfl

theorem Decides.planless : Decides State.planless where
  station k _ _ h := ⟨h.windows, h.carriers, Table.modify_slotless h.stations k _, h.galleries, h.conferences⟩
  conference k _ h := ⟨h.windows, h.carriers, h.stations, h.galleries, Table.modify_slotless h.conferences k _⟩
  withQueue h := ⟨h.windows, h.carriers, h.stations, h.galleries, h.conferences⟩
  withFinals h := ⟨h.windows, h.carriers, h.stations, h.galleries, h.conferences⟩

theorem Checks.planless : Checks State.planless where
  modCarrier h := ⟨h.windows, Table.modify_slotless h.carriers _ _, h.stations, h.galleries, h.conferences⟩
  withChecks _ h := ⟨h.windows, h.carriers, h.stations, h.galleries, h.conferences⟩

theorem State.emptyPlan_planless {u : State} (h : u.emptyPlan = u) : u.planless := by
  rw [← h]
  exact ⟨rfl, rfl, rfl, rfl, rfl⟩

/-- A state that the deciding of deliveries leads to. -/
def State.leadsTo (v w : State) : Prop := ∀ P : State → Prop, Decides P → P v → P w

theorem State.leadsTo.decided {v w : State} (h : v.leadsTo w) : v.decided w := h _ (Decides.decided v) (State.decided.refl v)

section
variable {u : State} (h : u.asRead) (sound : u.badCodes = []) {service : Service} {load : LoadPhase} {w : State}
  (hw : State.leadsTo { u.ownersWork with service := service, load := load } w)
include hw

theorem State.worked_planless (empty : u.emptyPlan = u) : w.engineLooks.planless := by
  have start : State.planless { u.ownersWork with service := service, load := load } := by
    rw [State.emptyPlan_ownersWork empty]
    have held := State.emptyPlan_planless empty
    exact ⟨held.windows, held.carriers, held.stations, held.galleries, held.conferences⟩
  exact Checks.planless.engineLooks (hw _ Decides.planless start)

include h

theorem State.asRead.planWorked : w.engineLooks.service = service ∧ w.engineLooks.load = load ∧ u.afterLoad w.engineLooks := by
  obtain ⟨windows, work, -⟩ := h.ownersWork
  rw [work] at hw
  have only := hw.decided.1.1
  have looks := (OnlyChecks.checks w).engineLooks (OnlyChecks.refl w)
  generalize w.engineLooks = t at looks ⊢
  unfold OnlyChecks at looks
  unfold Only at only
  rw [only] at looks
  rw [looks]
  exact ⟨rfl, rfl, rfl⟩

/-- Every loaded station is Parked and muted, with no carrier (R172). -/
theorem State.asRead.stationsWorked (k : Nat) (x : Station) (hx : w.engineLooks.station k = some x) : x.link = .parked ∧
    x.wanted.muted = true ∧ x.primary = none ∧ x.standby = none := by
  obtain ⟨windows, work, -⟩ := h.ownersWork
  rw [work] at hw
  have looks := (OnlyChecks.checks w).engineLooks (OnlyChecks.refl w)
  have stations : w.engineLooks.station k = w.station k := by
    unfold OnlyChecks at looks
    rw [looks]
    rfl
  have cores := hw.decided.1.2.2 k
  rw [stations] at hx
  rw [hx] at cores
  obtain ⟨y, hy, same⟩ := Option.map_eq_some_iff.1 cores.symm
  have held : (u.stations.map u.loadedStation).get k = some y := hy
  rw [Table.get_map] at held
  obtain ⟨z, hz, rfl⟩ := Option.map_eq_some_iff.1 held
  obtain ⟨link, muted, primary, standby⟩ := h.link hz
  have kept : (u.loadedStation k z).link = z.link ∧ (u.loadedStation k z).wanted = z.wanted ∧
      (u.loadedStation k z).primary = z.primary ∧ (u.loadedStation k z).standby = z.standby := by
    unfold State.loadedStation
    split
    · exact ⟨rfl, rfl, rfl, rfl⟩
    · exact ⟨rfl, rfl, rfl, rfl⟩
  obtain ⟨link', wanted', primary', standby'⟩ := kept
  have xLink : (u.loadedStation k z).link = x.link := (congrArg Station.link same :)
  have xWanted : (u.loadedStation k z).wanted = x.wanted := (congrArg Station.wanted same :)
  have xPrimary : (u.loadedStation k z).primary = x.primary := (congrArg Station.primary same :)
  have xStandby : (u.loadedStation k z).standby = x.standby := (congrArg Station.standby same :)
  exact ⟨xLink.symm.trans (link'.trans link), by rw [← xWanted, wanted', muted], xPrimary.symm.trans (primary'.trans primary),
    xStandby.symm.trans (standby'.trans standby)⟩

include sound

theorem State.asRead.planAfter : w.engineLooks.planLoaded u u.clock := by
  obtain ⟨windows, work, evaluated⟩ := h.ownersWork
  rw [work] at hw
  exact h.planLoaded sound evaluated rfl hw.decided

end

end Sys2Proof.Machine
end

section
/-! LOAD (R172, R173, R177): what it takes from the image, and the end of a start-up's load. -/

namespace Sys2Proof.Machine

/-! ## What a load takes from the image -/

/-- The state p, whose plan is read, with the outcome of a load. -/
@[reducible] def State.outcome (p : State) (code : Nat) : State :=
  { p with
    startCode := code
    storeStates := if code = 0 then StoreStates.stored else StoreStates.changed
    storeOutcome := if code = 0 then 1 else 2
    badCodes := []
    latched := { p.latched with store := true } }

section
variable {s : State} (sound : s.badCodes = []) {limit : Option Nat}
include sound

theorem State.loadPlan_read (h : (s.emptyPlan.readImage limit).code = 0) :
    s.loadPlan limit = (s.emptyPlan.readImage limit).state.outcome (s.emptyPlan.readImage limit).code := by
  have clear : (s.emptyPlan.readImage limit).state.badCodes = [] := (State.readImage_badCodes _ _).trans sound
  unfold State.loadPlan
  dsimp only
  rw [if_pos h, clear]
  rfl

theorem State.loadPlan_failed (h : (s.emptyPlan.readImage limit).code ≠ 0) :
    s.loadPlan limit = s.emptyPlan.outcome (s.emptyPlan.readImage limit).code := by
  have clear : s.emptyPlan.badCodes = [] := sound
  unfold State.loadPlan
  dsimp only
  rw [if_neg h, clear]
  rfl

theorem State.loadPlan_asRead : (s.loadPlan limit).asRead := by
  have moved : ∀ {p : State} (code : Nat), p.asRead → (p.outcome code).asRead := fun _ h =>
    ⟨h.carriersTable, h.windows, h.carriers, h.stations, h.conferences, h.holder, h.idle⟩
  by_cases h : (s.emptyPlan.readImage limit).code = 0
  · rw [State.loadPlan_read sound h]
    exact moved _ (s.readImage_asRead limit)
  · rw [State.loadPlan_failed sound h]
    exact moved _ s.emptyPlan_asRead

theorem State.loadPlan_sound : (s.loadPlan limit).badCodes = [] := by
  rw [State.loadPlan_badCodes, sound]
  rfl

end

/-- What a load changes: the plan, the start code, and what tells of the store. -/
def State.loadsAs (s u : State) (code : Nat) : Prop :=
  u = { s with
    windows := u.windows
    carriers := u.carriers
    checkQueue := u.checkQueue
    engine := u.engine
    stations := u.stations
    galleries := u.galleries
    conferences := u.conferences
    operators := u.operators
    freezeHolder := u.freezeHolder
    settings := u.settings
    startCode := code
    storeStates := if code = 0 then StoreStates.stored else StoreStates.changed
    storeOutcome := if code = 0 then 1 else 2
    badCodes := []
    latched := { s.latched with store := true } }

theorem State.loadPlan_loadsAs {s : State} (sound : s.badCodes = []) (limit : Option Nat) :
    s.loadsAs (s.loadPlan limit) (s.emptyPlan.readImage limit).code := by
  by_cases h : (s.emptyPlan.readImage limit).code = 0
  · have beside := s.emptyPlan.readImage_besidePlan limit
    rw [State.loadPlan_read sound h]
    generalize (s.emptyPlan.readImage limit).code = code
    generalize (s.emptyPlan.readImage limit).state = p at beside
    unfold State.besidePlan at beside
    unfold State.loadsAs
    rw [beside]
    rfl
  · rw [State.loadPlan_failed sound h]
    rfl

/-- The plan of what was read is the plan as read. -/
theorem State.planLoaded.outcome {t p : State} {code : Nat} {clock : Clock} (h : t.planLoaded (p.outcome code) clock) :
    t.planLoaded p clock :=
  ⟨h.windows, h.carriers, h.stations, h.galleries, h.conferences, h.operators, h.settings, h.freezeHolder⟩

/-! ## What every load leaves -/

/-- What a load that ended in a state t leaves, beside the phases and the answer. -/
structure State.loadEnds (s t : State) (limit : Option Nat) : Prop where
  beside : ∃ u, s.loadsAs u (s.emptyPlan.readImage limit).code ∧ u.afterLoad t
  read : (s.emptyPlan.readImage limit).code = 0 → t.planLoaded (s.emptyPlan.readImage limit).state s.clock
  failed : (s.emptyPlan.readImage limit).code ≠ 0 → t.planless ∧ t.settings = (⟨4, 2, false, 500, 40, 15, 10, 10, 30, [], none⟩ : Settings)
  stations : ∀ k x, t.station k = some x → x.link = .parked ∧ x.wanted.muted = true ∧ x.primary = none ∧ x.standby = none

/-- The owners' work on the plan of a load, the deliveries decided and the engine set looking. -/
theorem State.loadEnds_of {s : State} (sound : s.badCodes = []) {limit : Option Nat} {service : Service} {load : LoadPhase}
    {w : State} (hw : State.leadsTo { (s.loadPlan limit).ownersWork with service := service, load := load } w) :
    w.engineLooks.service = service ∧ w.engineLooks.load = load ∧ s.loadEnds w.engineLooks limit := by
  have read := State.loadPlan_asRead sound (limit := limit)
  have clear := State.loadPlan_sound sound (limit := limit)
  have loads := State.loadPlan_loadsAs sound limit
  obtain ⟨hs, hl, after⟩ := read.planWorked hw
  refine ⟨hs, hl, ⟨_, loads, after⟩, fun h => ?_, fun h => ⟨?_, ?_⟩, read.stationsWorked hw⟩
  · have plan := read.planAfter clear hw
    have clock : (s.loadPlan limit).clock = s.clock := by rw [loads]
    rw [clock, State.loadPlan_read sound h] at plan
    exact plan.outcome
  · refine State.worked_planless hw ?_
    rw [State.loadPlan_failed sound h]
    rfl
  · rw [after]
    exact congrArg State.settings (State.loadPlan_failed sound h)

/-! ## The load of a start-up -/

theorem State.enterService_ends {s : State} (sound : s.badCodes = []) (limit : Option Nat) :
    (s.loadPlan limit).enterService.service = .inService ∧ (s.loadPlan limit).enterService.load = .none ∧
      s.loadEnds (s.loadPlan limit).enterService limit :=
  State.loadEnds_of sound (fun _ hc h => hc.decideOwned h)

theorem State.load_starting {s : State} (h : s.load = .loading) (sound : s.badCodes = []) (limit : Option Nat) :
    exec (.load limit) s = .next (s.loadPlan limit).enterService := by
  have run : exec (.load limit) s = .next (s.endLoad limit) := rfl
  rw [run, State.endLoad, h]
  exact congrArg Host.Outcome.next (State.loadThen_sound sound limit State.enterService)

/-- The end of a start-up's load (R172, R173). -/
theorem load_enters (limit : Option Nat) (s : State) (load : s.load = .loading) (sound : s.badCodes = []) :
    let code := (s.emptyPlan.readImage limit).code
    ∃ t, exec (.load limit) s = .next t ∧ t.service = .inService ∧ t.load = .none ∧ t.readyHigh = true ∧
      t.startCode = code ∧ t.storeStates = (if code = 0 then StoreStates.stored else StoreStates.changed) ∧
      t.storeOutcome = (if code = 0 then 1 else 2) ∧ t.latched = { s.latched with store := true } ∧
      (limit = some 0 → code = 1) ∧
      (limit = none → (s.store.read 0 ≠ 0x7A31#16 ∨ s.store.read 1 ≠ 0x0C96#16) → code = 2) ∧
      (code ≠ 0 → t.windows.slots = [] ∧ t.carriers.slots = [] ∧ t.stations.slots = [] ∧ t.galleries.slots = [] ∧
        t.conferences.slots = [] ∧ t.settings = (⟨4, 2, false, 500, 40, 15, 10, 10, 30, [], none⟩ : Settings)) ∧
      (code = 0 → t.planLoaded (s.emptyPlan.readImage limit).state s.clock) ∧
      (∀ k x, t.station k = some x → x.link = .parked ∧ x.wanted.muted = true ∧ x.primary = none ∧ x.standby = none) ∧
      t.clock = s.clock ∧ t.units = s.units ∧ t.store = s.store ∧ t.port = s.port ∧ t.pending = s.pending := by
  intro code
  obtain ⟨service, phase, ⟨u, loads, after⟩, read, failed, stations⟩ := State.enterService_ends sound limit
  have silent : limit = some 0 → code = 1 := fun e => by
    subst e
    exact s.emptyPlan.readImage_silent
  have unsigned : limit = none → (s.store.read 0 ≠ 0x7A31#16 ∨ s.store.read 1 ≠ 0x0C96#16) → code = 2 := fun e words => by
    subst e
    exact State.readImage_unsigned (s := s.emptyPlan) words
  refine ⟨_, State.load_starting load sound limit, service, phase, ?_⟩
  generalize (s.loadPlan limit).enterService = t at service phase after read failed stations ⊢
  have rest : t.startCode = code ∧ t.storeStates = (if code = 0 then StoreStates.stored else StoreStates.changed) ∧
      t.storeOutcome = (if code = 0 then 1 else 2) ∧ t.latched = { s.latched with store := true } ∧
      t.clock = s.clock ∧ t.units = s.units ∧ t.store = s.store ∧ t.port = s.port ∧ t.pending = s.pending := by
    unfold State.afterLoad at after
    unfold State.loadsAs at loads
    rw [after, loads]
    exact ⟨rfl, rfl, rfl, rfl, rfl, rfl, rfl, rfl, rfl⟩
  obtain ⟨startCode, storeStates, storeOutcome, latched, kept⟩ := rest
  refine ⟨by simp [State.readyHigh, service], startCode, storeStates, storeOutcome, latched, silent, unsigned, fun h => ?_, read,
    stations, kept⟩
  obtain ⟨planless, settings⟩ := failed h
  exact ⟨planless.windows, planless.carriers, planless.stations, planless.galleries, planless.conferences, settings⟩

end Sys2Proof.Machine
end

section
/-! RELOAD PLAN (R177): its beginning, its wait for the line, and the final deliveries that its load keeps. -/

namespace Sys2Proof.Machine

/-! ## The beginning of the load -/

theorem State.startReload_eq (s : State) (key : Word) : s.startReload key = s.emptied key := rfl

theorem State.stationsLive_false {s : State} (h : ∀ p ∈ s.stations.records, p.2.link = .parked) : s.stationsLive = false := by
  unfold State.stationsLive
  rw [List.any_eq_false]
  intro p hp
  rw [h p hp]
  nofun

/-- The tests of RELOAD PLAN pass. -/
theorem State.reloadPlan_eq {s : State} {o : Order} (ha : s.admits o .store) (hp : o.params = [])
    (hl : s.forced o = true ∨ ∀ p ∈ s.stations.records, p.2.link = .parked) : s.reloadPlan o =
      if s.line.isNone then (s.begun o).startReload o.key else { s.begun o with load := .reloadWaiting o.key } := by
  obtain ⟨⟨service, port, sound⟩, right, free⟩ := ha
  have live : (s.stationsLive && !s.forced o) = false := by
    rcases hl with h | h
    · rw [h, Bool.not_true, Bool.and_false]
    · rw [State.stationsLive_false h, Bool.false_and]
  have tests : firstFailing ([s.lacks o .store 8] ++ s.holds o ++ [failIf (s.stationsLive && !s.forced o) .state 4]) = none :=
    passes_append (passes_append (passes_cons (State.lacks_fst right 8) firstFailing_nil) (State.passes_holds free))
      (passes_cons live firstFailing_nil)
  have count : decide (o.params.length = 0) = true := by simp [hp]
  unfold State.reloadPlan
  rw [count, State.serviceDetail_inService service, State.gate_open port sound (length_of_noParams hp), tests]
  rfl

/-- RELOAD PLAN waits for the line, or empties the plan (R177). -/
theorem reloadPlan_begins (o : Order) (s : State) (ha : s.admits o .store) (hp : o.params = [])
    (hl : s.forced o = true ∨ ∀ p ∈ s.stations.records, p.2.link = .parked) :
    (s.line ≠ none → exec (.reloadPlan o) s = .next { s with
      miso := List.replicate 9 0#8, port := .processing o.key, load := .reloadWaiting o.key }) ∧
    (s.line = none → exec (.reloadPlan o) s = .next { s.emptied o.key with
      miso := List.replicate 9 0#8, port := .processing o.key }) := by
  have begun : s.begun o = { s with miso := List.replicate 9 0#8, port := .processing o.key } := by
    rw [State.begun, hp]
    rfl
  refine ⟨fun h => ?_, fun h => ?_⟩
  · have busy : s.line.isNone = false := Bool.eq_false_iff.2 (fun e => h (Option.isNone_iff_eq_none.1 e))
    refine congrArg Host.Outcome.next ((State.reloadPlan_eq ha hp hl).trans ?_)
    rw [busy, if_neg nofun, begun]
  · refine congrArg Host.Outcome.next ((State.reloadPlan_eq ha hp hl).trans ?_)
    rw [h, Option.isNone_none, if_pos rfl, begun]
    rfl

/-- The line is free for a RELOAD PLAN that waited for it. -/
theorem State.afterLine_reloads {s : State} {key : Word} (hl : s.load = .reloadWaiting key) (line : s.line = none)
    (hb : ∀ r ∈ s.badCodes, r ≠ ⟨.part, 0⟩ ∧ r.table ≠ .station) : s.afterLine = s.emptied key := by
  have unread : s.firstBad (fun r => r = ⟨.part, 0⟩ || r.table = .station) = none :=
    State.firstBad_none (fun r hr => by simp [(hb r hr).1, (hb r hr).2])
  unfold State.afterLine
  rw [hl]
  dsimp only
  rw [line, Option.isNone_none, if_pos rfl, State.reading, unread]
  rfl

/-- The end of a transaction lets a waiting RELOAD PLAN begin (R177). -/
theorem reloadPlan_waits (key : Word) (a seq : Nat) (s : State) (hl : s.load = .reloadWaiting key) :
    (s.line = some ⟨.discover a, seq⟩ → (∀ r ∈ s.badCodes, r ≠ ⟨.part, 0⟩ ∧ r.table ≠ .station) →
      exec .discoverMissed s = .next ({ s with line := none }.emptied key)) ∧
    (∀ u, s.line = some ⟨.poll a, seq⟩ → s.badCodes = [] → s.unitAt a = some u → u.state = .present → u.missed < 2 →
      exec .pollMissed s = .next ((s.unitNoted a { u with missed := u.missed + 1 }).emptied key)) := by
  refine ⟨fun line hb => ?_, fun u line hb hu present few => ?_⟩
  · have run : exec .discoverMissed s = .next s.discoverMiss := rfl
    rw [run, State.discoverMiss, line]
    exact congrArg Host.Outcome.next (State.afterLine_reloads (s := s.endTransaction) hl rfl hb)
  · have run : exec .pollMissed s = .next s.pollMiss := rfl
    have held : s.endTransaction.unitAt a = some u := hu
    have missed : s.endTransaction.missPoll a = s.unitNoted a { u with missed := u.missed + 1 } := by
      unfold State.missPoll
      rw [held]
      dsimp only
      split
      · rename_i absent
        exact absurd (present.symm.trans absent) nofun
      · rename_i lost
        exact absurd (present.symm.trans lost) nofun
      · rw [if_neg (by omega), State.modUnit_set held]
        rfl
    rw [run, State.pollMiss, line]
    dsimp only
    unfold State.unitEvent
    rw [State.beside_sound (s := s.endTransaction) hb, State.acting_sound (s := s.endTransaction) hb, missed]
    exact congrArg Host.Outcome.next (State.afterLine_reloads (s := s.unitNoted a { u with missed := u.missed + 1 }) hl rfl
      (fun r hr => absurd (show r ∈ s.badCodes from hr) (by simp [hb])))

/-! ## The final deliveries that are kept -/

/-- A final delivery stands as the only one of its key, but for its base. -/
def State.keepsFinal (s : State) (f : Final) : Prop := ∃ b, s.holdsFinal { f with base := b }

theorem State.keepsFinal.of_finals {s t : State} {f : Final} (h : s.keepsFinal f) (e : t.finals = s.finals) : t.keepsFinal f := by
  unfold State.keepsFinal State.holdsFinal at h ⊢
  rw [e]
  exact h

/-- A final delivery whose wanted state is not delivered is kept where deliveries are decided (R152). -/
theorem State.keepsFinal.decideDelivery {s : State} {f : Final} (h : s.keepsFinal f) (hd : f.delivered ≠ some f.wanted)
    (kd : DeliveryKind) (k : Nat) : (s.decideDelivery kd k).keepsFinal f := by
  rcases s.decideDelivery_base kd k with e | ⟨b, q, e, current⟩
  · rw [e]
    exact h
  · rw [e]
    refine State.keepsFinal.of_finals (s := s.setBase kd k b) ?_ rfl
    cases ho : s.owned kd k with
    | true => exact h.of_finals (State.setBase_owned ho b).1
    | false =>
      obtain ⟨base, held, alone⟩ := h
      have stays : b = .current → ¬ (f.kind = kd ∧ f.target = k) := by
        rintro rfl ⟨rfl, rfl⟩
        obtain ⟨d, found, delivered⟩ := current rfl
        obtain ⟨x, hx, rfl⟩ := Option.map_eq_some_iff.1 (State.finalDelivery_of_delivery ho found)
        have key := List.find?_some hx
        simp only [Bool.and_eq_true, decide_eq_true_eq] at key
        obtain rfl := alone x (List.mem_of_find?_eq_some hx) key.1 key.2
        exact hd delivered
      unfold State.setBase
      rw [ho, if_neg nofun]
      split
      · rename_i hb
        refine ⟨base, List.mem_filter.2 ⟨held, ?_⟩, fun g hg => alone g (List.mem_filter.1 hg).1⟩
        simpa [imp_iff_not_or] using stays hb
      · by_cases same : f.kind = kd ∧ f.target = k
        · obtain ⟨rfl, rfl⟩ := same
          refine ⟨b, List.mem_map.2 ⟨_, held, by simp⟩, fun g hg hk ht => ?_⟩
          obtain ⟨x, hx, rfl⟩ := List.mem_map.1 hg
          by_cases key : x.kind = f.kind ∧ x.target = f.target
          · rw [alone x hx key.1 key.2]
            simp
          · have other : ¬ (decide (x.kind = f.kind) && decide (x.target = f.target)) = true := by simpa using key
            rw [if_neg other] at hk ht
            exact absurd ⟨hk, ht⟩ key
        · have other : ¬ (decide (f.kind = kd) && decide (f.target = k)) = true := by simpa using same
          refine ⟨base, List.mem_map.2 ⟨_, held, if_neg other⟩, fun g hg hk ht => ?_⟩
          obtain ⟨x, hx, rfl⟩ := List.mem_map.1 hg
          have kept : (if (decide (x.kind = kd) && decide (x.target = k)) = true then { x with base := b } else x).kind = x.kind ∧
              (if (decide (x.kind = kd) && decide (x.target = k)) = true then { x with base := b } else x).target = x.target := by
            split
            · exact ⟨rfl, rfl⟩
            · exact ⟨rfl, rfl⟩
          have isF := alone x hx (kept.1.symm.trans hk) (kept.2.symm.trans ht)
          rw [isF, if_neg other]

/-- A final delivery that joins is kept. -/
theorem State.takeOver_keepsFinal (s : State) {f : Final} (hd : f.delivered ≠ some f.wanted) : (s.takeOver f true).keepsFinal f := by
  refine State.keepsFinal.decideDelivery (s := { s with finals := s.finalsWith f }) ?_ hd f.kind f.target
  exact ⟨f.base, List.mem_append_right _ (List.mem_singleton.2 rfl), (s.finalsWith_spec f).1⟩

/-- Another key's final delivery joins. -/
theorem State.keepsFinal.takeOver {s : State} {f : Final} (h : s.keepsFinal f) (hd : f.delivered ≠ some f.wanted) {g : Final}
    (key : ¬ (f.kind = g.kind ∧ f.target = g.target)) : (s.takeOver g true).keepsFinal f := by
  refine State.keepsFinal.decideDelivery (s := { s with finals := s.finalsWith g }) ?_ hd g.kind g.target
  obtain ⟨b, held, alone⟩ := h
  obtain ⟨-, others⟩ := s.finalsWith_spec g
  refine ⟨b, (others { f with base := b } key).2 held, fun e he hk ht => alone e ((others e ?_).1 he) hk ht⟩
  rw [hk, ht]
  exact key

/-- Of final deliveries that join one after the other, one that shares its key with no other is kept. -/
theorem State.takeOverAll_keepsFinal {f : Final} (hd : f.delivered ≠ some f.wanted) : ∀ (fs : List Final) (s : State),
    (∀ h ∈ fs, h.target = f.target → h = f) → s.keepsFinal f ∨ f ∈ fs → (s.takeOverAll fs true).keepsFinal f
  | [], _, _, h => h.resolve_right List.not_mem_nil
  | g :: fs, s, alone, h => by
    refine State.takeOverAll_keepsFinal hd fs (s.takeOver g true) (fun e he => alone e (List.mem_cons_of_mem _ he)) ?_
    by_cases same : g = f
    · subst same
      exact .inl (s.takeOver_keepsFinal hd)
    · rcases h with h | h
      · exact .inl (h.takeOver hd (fun key => same (alone g List.mem_cons_self key.2.symm)))
      · exact .inr ((List.mem_cons.1 h).resolve_left (Ne.symm same))

theorem State.finalsStand.withdraw {s t : State} (h : s.finalsStand t) (p : Entry → Bool) : s.finalsStand (t.withdraw p) := by
  have marked : ∀ q, s.finalsStand { t with queue := q } := fun _ => h.of_eq rfl
  unfold State.withdraw State.removeEntries
  split
  · exact State.finalsStand.fillQueue ((marked _).of_eq rfl)
  · exact marked _

theorem State.finalsStand.decideOwned {s t : State} (h : s.finalsStand t) : s.finalsStand t.decideOwned := by
  refine State.forEach_keeps h _ (fun _ p ht => ?_)
  split
  · exact ht.decideDelivery _ _
  · exact ht

/-- The final deliveries of the old stations that are gone join, and then deliveries are decided (R158). -/
theorem State.reconcile_eq (s : State) (old : List Final) : ∃ fs q p, s.reconcile old =
    ((State.takeOverAll { s with finals := fs, queue := q } (old.filter (fun f => !s.owned .tune f.target)) true).withdraw
      p).decideOwned.fillQueue := ⟨_, _, _, rfl⟩

/-- The tune delivery of an old station that is not loaded again is kept (R158; log 20). -/
theorem State.reconcile_keeps {s : State} {old : List Final} {f : Final} (hf : f ∈ old)
    (gone : s.station f.target = none) (hd : f.delivered ≠ some f.wanted) (alone : ∀ h ∈ old, h.target = f.target → h = f) :
    ∃ g ∈ (s.reconcile old).finals, g = { f with base := g.base } := by
  have left : f ∈ old.filter (fun f => !s.owned .tune f.target) :=
    List.mem_filter.2 ⟨hf, by simp [State.owned, gone]⟩
  have kept := fun t => State.takeOverAll_keepsFinal hd _ t (fun h hh => alone h (List.mem_filter.1 hh).1) (.inr left)
  obtain ⟨fs, q, p, e⟩ := s.reconcile_eq old
  rw [e]
  obtain ⟨b, held⟩ := kept { s with finals := fs, queue := q }
  exact held.stands hd (((State.finalsStand.refl _).withdraw p).decideOwned).fillQueue

/-! ## The end of the load -/

theorem State.load_reloading {s : State} {key : Word} {old : List Final} (h : s.load = .reloading key old) (sound : s.badCodes = [])
    (limit : Option Nat) : exec (.load limit) s = .next ((s.loadPlan limit).endReload key old) := by
  have run : exec (.load limit) s = .next (s.endLoad limit) := rfl
  rw [run, State.endLoad, h]
  exact congrArg Host.Outcome.next (State.loadThen_sound sound limit (State.endReload · key old))

/-- The loaded plan of RELOAD PLAN, its queue reconciled. -/
def State.reloaded (s : State) (old : List Final) : State := State.reconcile { s.ownersWork with load := .none } old

theorem State.endReload_eq (s : State) (key : Word) (old : List Final) :
    s.endReload key old = (s.reloaded old).engineLooks.answer ⟨.done, 0, key, []⟩ := rfl

theorem State.ownersWork_service {u : State} (h : u.asRead) : u.ownersWork.service = u.service := by
  obtain ⟨windows, e, -⟩ := h.ownersWork
  rw [e]

theorem State.reloaded_ends {s : State} (sound : s.badCodes = []) (limit : Option Nat) (old : List Final) :
    ((s.loadPlan limit).reloaded old).engineLooks.service = (s.loadPlan limit).service ∧
      ((s.loadPlan limit).reloaded old).engineLooks.load = .none ∧
      s.loadEnds ((s.loadPlan limit).reloaded old).engineLooks limit := by
  have service := State.ownersWork_service (State.loadPlan_asRead sound (limit := limit))
  refine State.loadEnds_of sound (fun _ hc start => ?_)
  rw [← service] at start
  exact hc.reconcile start old

/-- The answer of RELOAD PLAN changes the port alone. -/
theorem State.planLoaded.answer {t p : State} {clock : Clock} (h : t.planLoaded p clock) (r : Reply) :
    (t.answer r).planLoaded p clock :=
  ⟨h.windows, h.carriers, h.stations, h.galleries, h.conferences, h.operators, h.settings, h.freezeHolder⟩

theorem State.engineLooks_finals (s : State) : s.engineLooks.finals = s.finals ∧ s.engineLooks.stations = s.stations := by
  have looks := (OnlyChecks.checks s).engineLooks (OnlyChecks.refl s)
  unfold OnlyChecks at looks
  rw [looks]
  exact ⟨rfl, rfl⟩

/-- A station that the load does not leave was not there to own a delivery. -/
theorem State.reloaded_station {u : State} {old : List Final} {k : Nat} (none : (u.reloaded old).station k = none) :
    State.station { u.ownersWork with load := .none } k = Option.none := by
  have cores := ((Decides.decided { u.ownersWork with load := .none }).reconcile (State.decided.refl _) old).1.2.2 k
  rw [show State.station (State.reconcile { u.ownersWork with load := .none } old) k = Option.none from none] at cores
  exact Option.map_eq_none_iff.1 cores.symm

/-- The tune delivery of an old station that is not loaded again goes on after the load. -/
theorem State.reloaded_keeps {u : State} {old : List Final} {f : Final} (hf : f ∈ old)
    (gone : (u.reloaded old).engineLooks.station f.target = none) (hd : f.delivered ≠ some f.wanted)
    (alone : ∀ h ∈ old, h.target = f.target → h = f) :
    ∃ g ∈ (u.reloaded old).engineLooks.finals, g = { f with base := g.base } := by
  obtain ⟨same, tables⟩ := (u.reloaded old).engineLooks_finals
  rw [State.station, tables] at gone
  have missing := State.reloaded_station gone
  rw [same, State.reloaded]
  exact State.reconcile_keeps hf missing hd alone

theorem State.loadPlan_service {s : State} (sound : s.badCodes = []) (limit : Option Nat) :
    (s.loadPlan limit).service = s.service := by
  have loads := State.loadPlan_loadsAs sound limit
  generalize s.loadPlan limit = u at loads ⊢
  rw [loads]

/-- The end of RELOAD PLAN's load (R158, R177). -/
theorem load_reloads (limit : Option Nat) (key : Word) (old : List Final) (s : State) (load : s.load = .reloading key old)
    (service : s.service = .inService) (sound : s.badCodes = []) :
    ∃ t, exec (.load limit) s = .next t ∧ t.service = .inService ∧ t.load = .none ∧
      t.port = .pending ⟨.done, 0, key, []⟩ ∧ t.startCode = (s.emptyPlan.readImage limit).code ∧
      t.latched = { s.latched with store := true } ∧
      (t.startCode = 0 → t.planLoaded (s.emptyPlan.readImage limit).state s.clock) ∧
      (t.startCode ≠ 0 → t.windows.slots = [] ∧ t.carriers.slots = [] ∧ t.stations.slots = [] ∧
        t.galleries.slots = [] ∧ t.conferences.slots = [] ∧
        t.settings = (⟨4, 2, false, 500, 40, 15, 10, 10, 30, [], none⟩ : Settings)) ∧
      (∀ k x, t.station k = some x → x.link = .parked ∧ x.wanted.muted = true ∧ x.primary = none ∧ x.standby = none) ∧
      (∀ f ∈ old, f.kind = .tune → t.station f.target = none → f.delivered ≠ some f.wanted →
        (∀ h ∈ old, h.target = f.target → h = f) → ∃ g ∈ t.finals, g = { f with base := g.base }) ∧
      t.units = s.units ∧ t.line = s.line ∧ t.clock = s.clock ∧ t.store = s.store := by
  obtain ⟨inService, phase, ⟨u, loads, after⟩, read, failed, stations⟩ := State.reloaded_ends sound limit old
  have served := (State.loadPlan_service sound limit).trans service
  have finals : ∀ f ∈ old, f.kind = .tune → ((s.loadPlan limit).reloaded old).engineLooks.station f.target = none →
      f.delivered ≠ some f.wanted → (∀ h ∈ old, h.target = f.target → h = f) →
      ∃ g ∈ ((s.loadPlan limit).reloaded old).engineLooks.finals, g = { f with base := g.base } :=
    fun f hf _ gone hd alone => State.reloaded_keeps hf gone hd alone
  refine ⟨_, State.load_reloading load sound limit, ?_⟩
  rw [State.endReload_eq]
  obtain ⟨t, looked⟩ : ∃ t, ((s.loadPlan limit).reloaded old).engineLooks = t := ⟨_, rfl⟩
  rw [looked] at inService phase after read failed stations finals ⊢
  have rest : t.startCode = (s.emptyPlan.readImage limit).code ∧ t.latched = { s.latched with store := true } ∧
      t.units = s.units ∧ t.line = s.line ∧ t.clock = s.clock ∧ t.store = s.store := by
    unfold State.afterLoad at after
    unfold State.loadsAs at loads
    rw [after, loads]
    exact ⟨rfl, rfl, rfl, rfl, rfl, rfl⟩
  obtain ⟨startCode, latched, kept⟩ := rest
  refine ⟨inService.trans served, phase, rfl, startCode, latched, fun h => (read (startCode.symm.trans h)).answer _, fun h => ?_,
    stations, finals, kept⟩
  obtain ⟨planless, settings⟩ := failed (fun e => h (startCode.trans e))
  exact ⟨planless.windows, planless.carriers, planless.stations, planless.galleries, planless.conferences, settings⟩

end Sys2Proof.Machine

namespace Sys2Proof
open Machine

/-- Settles O57. -/
theorem loadsAndReloads : Obligations.LoadsAndReloads :=
  ⟨fun limit s load _ sound => load_enters limit s load sound,
    fun _ _ s fits size closes held => State.readImage_image (s := s.emptyPlan) fits size closes held,
    reloadPlan_begins, reloadPlan_waits, load_reloads⟩

end Sys2Proof
end
